-- ==== Sys2Proof/Machine/Memory.lean ====
section
/-! DEFINITION. Sparse data in one canonical form, and the bytes of the local memory ranges of Table 1.3.
An address that is not listed reads as 0 (DESIGN CHOICE, notes/assumptions/3.md; unsafe). -/

namespace Sys2Proof.Machine

/-- The value listed under a key. -/
def Store.get? {κ α : Type} [DecidableEq κ] (k : κ) : List (κ × α) → Option α
  | [] => none
  | p :: t => if p.1 = k then some p.2 else Store.get? k t

/-- The list without a key. -/
def Store.erase {κ α : Type} [DecidableEq κ] (k : κ) (l : List (κ × α)) : List (κ × α) :=
  l.filter fun p => decide (p.1 ≠ k)

/-- The pair put before the first entry whose key comes after it. -/
def Store.insert {κ α : Type} (lt : κ → κ → Bool) (k : κ) (v : α) : List (κ × α) → List (κ × α)
  | [] => [(k, v)]
  | p :: t => if lt k p.1 then (k, v) :: p :: t else p :: Store.insert lt k v t

/-- The list with the key set to the value. -/
def Store.put {κ α : Type} [DecidableEq κ] (lt : κ → κ → Bool) (k : κ) (v : α) (l : List (κ × α)) : List (κ × α) :=
  Store.insert lt k v (Store.erase k l)

/-- Like values held by number. -/
abbrev NStore (α : Type) := List (Nat × α)

/-- The value of number k, d where none is listed. -/
def NStore.get {α : Type} (d : α) (m : NStore α) (k : Nat) : α := (Store.get? k m).getD d

/-- The value of number k set. -/
def NStore.set {α : Type} (m : NStore α) (k : Nat) (v : α) : NStore α :=
  Store.put (fun a b => decide (a < b)) k v m

/-- The value of number k set, 0 leaving it unlisted. -/
def NStore.put0 (m : NStore Nat) (k v : Nat) : NStore Nat := if v = 0 then Store.erase k m else NStore.set m k v

/-- The number taken out of the list. -/
def NStore.del {α : Type} (m : NStore α) (k : Nat) : NStore α := Store.erase k m

/-- The canonical form of memory: addresses strictly rising, no entry equal to what an unlisted address reads as. -/
def Memory.wf (m : List Host.Cell) : Bool :=
  decide (List.Pairwise (fun a b => a.1 < b.1) m) && m.all fun p => decide (p.2 ≠ 0#8)

/-- The byte at an address; 0 where none is listed. -/
def Memory.byte (m : List Host.Cell) (a : Nat) : Byte := (Store.get? a m).getD 0#8

/-- One byte written; a zero byte leaves the address unlisted. -/
def Memory.setByte (m : List Host.Cell) (a : Nat) (b : Byte) : List Host.Cell :=
  if b = 0#8 then Store.erase a m else Store.put (fun x y => decide (x < y)) a b m

/-- n bytes from address a, the byte at the lowest address least significant (R50). -/
def Memory.read (m : List Host.Cell) (a : Nat) : Nat → Nat
  | 0 => 0
  | n + 1 => (Memory.byte m a).toNat + 256 * Memory.read m (a + 1) n

/-- n bytes written from address a, least significant byte at the lowest address. -/
def Memory.write (m : List Host.Cell) (a v : Nat) : Nat → List Host.Cell
  | 0 => m
  | n + 1 => Memory.write (Memory.setByte m a (BitVec.ofNat 8 v)) (a + 1) (v / 256) n

end Sys2Proof.Machine
end

