-- ==== Sys2Proof/Machine/RegIds.lean ====
section
/-! DEFINITION. The names of the register families of the register tables of spec/02 to spec/16, one constructor per
row (the replicated registers of one row are told apart by their indices), and every named field of them with its
bits, access code (R7), reset value and reserved encodings (R9). A field whose reset the tables give as "keystone"
holds 0 until the keystone loader sets it (R470). A field the tables give no number for resets to 0
(DESIGN CHOICE, notes/assumptions/2.md; unsafe). -/

namespace Sys2Proof.Machine

/-- One constructor per register row of the spec, in the order of the chapters. -/
inductive RegId where
  | layCtrl   -- LAYk_CTRL, R46
  | layAssign   -- LAYk_ASSIGN, R42
  | layFormat   -- LAYk_FORMAT, R41
  | layMapBase   -- LAYk_MAP_BASE, R41
  | layPatBase   -- LAYk_PAT_BASE, R41
  | layBmpSize   -- LAYk_BMP_SIZE, R41
  | layBmpStride   -- LAYk_BMP_STRIDE, R41
  | laySprRange   -- LAYk_SPR_RANGE, R41
  | layScrollX   -- LAYk_SCROLL_X, R43
  | layScrollY   -- LAYk_SCROLL_Y, R43
  | layWinH   -- LAYk_WIN_H, R43
  | layWinV   -- LAYk_WIN_V, R43
  | layAlpha   -- LAYk_ALPHA, R43
  | layPal   -- LAYk_PAL, R43
  | layAffMtx   -- LAYk_AFF_MTX, R43
  | layAffC   -- LAYk_AFF_C, R43
  | layAffU0   -- LAYk_AFF_U0, R43
  | layAffV0   -- LAYk_AFF_V0, R43
  | layStat   -- LAYk_STAT, R47
  | layDropcnt   -- LAYk_DROPCNT, R69
  | layAssignAct   -- LAYk_ASSIGN_ACT, R42
  | layFormatAct   -- LAYk_FORMAT_ACT, R41
  | layMapBaseAct   -- LAYk_MAP_BASE_ACT, R41
  | layPatBaseAct   -- LAYk_PAT_BASE_ACT, R41
  | layBmpSizeAct   -- LAYk_BMP_SIZE_ACT, R41
  | layBmpStrideAct   -- LAYk_BMP_STRIDE_ACT, R41
  | laySprRangeAct   -- LAYk_SPR_RANGE_ACT, R41
  | lpeCtrl   -- LPEn_CTRL, R79
  | lpeBase   -- LPEn_BASE, R80
  | lpeStepmax   -- LPEn_STEPMAX, R99
  | lpeStat   -- LPEn_STAT, R84
  | lpeOvercnt   -- LPEn_OVERCNT, R93
  | lpeStallcnt   -- LPEn_STALLCNT, R98
  | lpeLine   -- LPEn_LINE, R97
  | lpeBaseAct   -- LPEn_BASE_ACT, R80
  | cpsLane   -- CPS_LANEj, R109
  | cpsLaneAct   -- CPS_LANEj_ACT, R109
  | cpsFsig   -- CPS_FSIG, R128
  | cpsFence   -- CPS_FENCEf, R128
  | cpsFlip   -- CPS_FLIPk, R127
  | cpsCtrl   -- CPSn_CTRL, R107
  | cpsBackdrop   -- CPSn_BACKDROP, R107
  | cpsPageA   -- CPSn_PAGEA, R107
  | cpsPageB   -- CPSn_PAGEB, R107
  | cpsIngot   -- CPSn_INGOT, R107
  | cpsTeeAddr   -- CPSn_TEE_ADDR, R107
  | cpsTeeAddr2   -- CPSn_TEE_ADDR2, R107
  | cpsTeeStride   -- CPSn_TEE_STRIDE, R107
  | cpsTeeX   -- CPSn_TEE_X, R107
  | cpsTeeCfg   -- CPSn_TEE_CFG, R107
  | cpsStat   -- CPSn_STAT, R134
  | cpsUndercnt   -- CPSn_UNDERCNT, R19
  | cpsFmisscnt   -- CPSn_FMISSCNT, R129
  | cpsTeedropcnt   -- CPSn_TEEDROPCNT, R132
  | cpsProgress   -- CPSn_PROGRESS, R134
  | cpsMinslack   -- CPSn_MINSLACK, R134
  | cpsCtrlAct   -- CPSn_CTRL_ACT, R107
  | hmkFrame   -- HMKn_FRAME, R141
  | hmkHstat   -- HMKn_HSTAT, R151
  | hmkBlankcol   -- HMKn_BLANKCOL, R154
  | hmkMislo   -- HMKn_MISLO, R147
  | hmkMishi   -- HMKn_MISHI, R147
  | hmkCfg   -- CFG, R148
  | hmkRectH   -- RECT_H, R148
  | hmkRectV   -- RECT_V, R148
  | hmkExp   -- EXP, R150
  | hmkHval0   -- HVAL0, R152
  | hmkHtag0   -- HTAG0, R152
  | hmkHval1   -- HVAL1, R152
  | hmkHtag1   -- HTAG1, R152
  | hmkLastc   -- LASTC, R144
  | hmkLastcFrm   -- LASTC_FRM, R145
  | hmkLasts   -- LASTS, R144
  | hmkLastsFrm   -- LASTS_FRM, R145
  | hmkStat   -- STAT, R151
  | hmkMiscnt   -- MISCNT, R144
  | shCtrl   -- SHn_CTRL, R163
  | shFormat   -- SHn_FORMAT, R159
  | shHtime   -- SHn_HTIME, R159
  | shHsync   -- SHn_HSYNC, R159
  | shVtime   -- SHn_VTIME, R159
  | shVsync   -- SHn_VSYNC, R159
  | shPclk   -- SHn_PCLK, R159
  | shLock   -- SHn_LOCK, R165
  | shFaddr   -- SHn_FADDR, R174
  | shFaddrAct   -- SHn_FADDR_ACT, R174
  | shLmatch   -- SHn_LMATCHk, R179
  | shTbepochLo   -- SHn_TBEPOCH_LO, R165
  | shTbepochHi   -- SHn_TBEPOCH_HI, R165
  | shTbper   -- SHn_TBPER, R169
  | shGloffs   -- SHn_GLOFFS, R165
  | shLutctrl   -- SHn_LUTCTRL, R180
  | shTbperHi   -- SHn_TBPER_HI, R169
  | shStat   -- SHn_STAT, R177
  | shStarvecnt   -- SHn_STARVECNT, R178
  | shBeam   -- SHn_BEAM, R179
  | shFrame   -- SHn_FRAME, R173
  | shPherr   -- SHn_PHERR, R166
  | shDotper   -- SHn_DOTPER, R198
  | shFstampLo   -- SHn_FSTAMP_LO, R198
  | shFstampHi   -- SHn_FSTAMP_HI, R198
  | shFstampFr   -- SHn_FSTAMP_FR, R198
  | shOut   -- SHn_OUT, R196
  | shDpcfg   -- SHn_DPCFG, R187
  | shDpstat   -- SHn_DPSTAT, R177
  | shDpcmd   -- SHn_DPCMD, R187
  | shAuxctrl   -- SHn_AUXCTRL, R189
  | shAuxdata   -- SHn_AUXDATAi, R189
  | shAuxstat   -- SHn_AUXSTAT, R189
  | shAna   -- SHn_ANA, R195
  | shPar   -- SHn_PAR, R197
  | glCtrl   -- SH0_GL_CTRL, R168
  | glStat   -- SH0_GL_STAT, R168
  | glFper   -- SH0_GL_FPER, R169
  | glLines   -- SH0_GL_LINES, R168
  | glFstampLo   -- SH0_GL_FSTAMP_LO, R168
  | glFstampHi   -- SH0_GL_FSTAMP_HI, R168
  | glFperHi   -- SH0_GL_FPER_HI, R169
  | shLut   -- LUT entry, R180
  | audCtrl   -- AUD_CTRL, R205
  | audClk   -- AUD_CLK, R201
  | audEpochLo   -- AUD_EPOCH_LO, R201
  | audEpochHi   -- AUD_EPOCH_HI, R201
  | audScountLo   -- AUD_SCOUNT_LO, R202
  | audScountHi   -- AUD_SCOUNT_HI, R202
  | audBstampLo   -- AUD_BSTAMP_LO, R201
  | audBstampHi   -- AUD_BSTAMP_HI, R201
  | audStat   -- AUD_STAT, R233
  | audLatecnt   -- AUD_LATECNT, R229
  | audVend   -- AUD_VENDw, R220
  | audVbus   -- AUD_VBUSb, R207
  | audVbusSatcnt   -- AUD_VBUS_SATCNT, R207
  | audVbusSat   -- AUD_VBUS_SAT, R207
  | effCtrl   -- EFFe_CTRL, R223
  | effMem   -- EFFe_MEM, R223
  | effMix   -- EFFe_MIX, R222
  | effStat   -- EFFe_STAT, R223
  | effP   -- EFFe_Pj, R223
  | effIn   -- EFFe_INc_j, R206
  | mbCtrl   -- MBm_CTRL, R224
  | mbLim   -- MBm_LIM, R224
  | mbRel   -- MBm_REL, R224
  | mbStat   -- MBm_STAT, R207
  | mbLimcnt   -- MBm_LIMCNT, R224
  | mbSatcnt   -- MBm_SATCNT, R207
  | mbIn   -- MBm_INj, R206
  | outCfg   -- OUTp_CFG, R227
  | outStat   -- OUTp_STAT, R227
  | outSlipcnt   -- OUTp_SLIPCNT, R229
  | outSlot   -- OUTp_SLOTj, R226
  | spdCfg   -- SPDs_CFG, R227
  | spdStat   -- SPDs_STAT, R227
  | spdSlipcnt   -- SPDs_SLIPCNT, R229
  | spdCs   -- SPDs_CS, R227
  | spdSlot   -- SPDs_SLOTj, R226
  | dpaCfg   -- DPAh_CFG, R227
  | dpaStat   -- DPAh_STAT, R227
  | dpaSlipcnt   -- DPAh_SLIPCNT, R229
  | dpaSlot   -- DPAh_SLOTj, R226
  | inCfg   -- INi_CFG, R227
  | inStat   -- INi_STAT, R227
  | inSlipcnt   -- INi_SLIPCNT, R230
  | inRate   -- INi_RATE, R227
  | cqCtrl   -- CAPq_CTRL, R231
  | cqBase   -- CAPq_BASE, R231
  | cqWptr   -- CAPq_WPTR, R231
  | cqRptr   -- CAPq_RPTR, R231
  | cqStat   -- CAPq_STAT, R231
  | cqSlipcnt   -- CAPq_SLIPCNT, R231
  | vCtrl   -- Vv_CTRL, R213
  | vAddr   -- Vv_ADDR, R213
  | vStart   -- Vv_START, R213
  | vLoop   -- Vv_LOOP, R213
  | vEnd   -- Vv_END, R213
  | vStep   -- Vv_STEP, R216
  | vEnv0   -- Vv_ENV0, R219
  | vEnv1   -- Vv_ENV1, R219
  | vLfo   -- Vv_LFO, R216
  | vOut   -- Vv_OUTo, R208
  | vCmd   -- Vv_CMD, R220
  | vAtLo   -- Vv_AT_LO, R220
  | vAtHi   -- Vv_AT_HI, R220
  | vWptr   -- Vv_WPTR, R218
  | vStat   -- Vv_STAT, R220
  | vPos   -- Vv_POS, R216
  | vLevel   -- Vv_LEVEL, R219
  | vFmnet   -- Vv_FMNET, R221
  | vFm   -- Vv_FMk, R221
  | bltOp   -- BLT_OP, R234
  | bltSbase   -- BLT_SBASE, R234
  | bltSstride   -- BLT_SSTRIDE, R234
  | bltSxy   -- BLT_SXY, R234
  | bltDbase   -- BLT_DBASE, R234
  | bltDstride   -- BLT_DSTRIDE, R234
  | bltDxy   -- BLT_DXY, R234
  | bltSize   -- BLT_SIZE, R234
  | bltFill   -- BLT_FILL, R234
  | bltPal   -- BLT_PAL, R234
  | bltWmark   -- BLT_WMARK, R234
  | bltPace   -- BLT_PACE, R234
  | bltGo   -- BLT_GO, R234
  | bltStat   -- BLT_STAT, R249
  | bltRow   -- BLT_ROW, R245
  | bltDonecnt   -- BLT_DONECNT, R246
  | dmaBell   -- DMA_BELL, R251
  | dmaStat   -- DMA_STAT, R250
  | dmaDone   -- DMA_DONEw, R269
  | dmaErr   -- DMA_ERRw, R269
  | dmaTask   -- DMA_TASKt, R264
  | dmacCfg   -- DMAc_CFG, R252
  | dmacHi   -- DMAc_HI, R252
  | dmacLo   -- DMAc_LO, R252
  | dmacDesc   -- DMAc_DESC, R252
  | dmacCmd   -- DMAc_CMD, R255
  | dmacStat   -- DMAc_STAT, R269
  | dmacPos   -- DMAc_POS, R261
  | dmacDonecnt   -- DMAc_DONECNT, R265
  | coreCtrl   -- SYS_COREk_CTRL, R313
  | coreStat   -- SYS_COREk_STAT, R313
  | coreBrk   -- SYS_COREk_BRK, R315
  | intcSrc   -- INTC_SRCs, R326
  | intcPend   -- INTC_PENDw, R325
  | intcSwset   -- INTC_SWSET, R324
  | intcPri   -- INTC_COREk_PRI, R326
  | intcClaim   -- INTC_COREk_CLAIM, R330
  | intcStat   -- INTC_COREk_STAT, R326
  | mbxTx   -- MBX_TXi, R335
  | mbxRx   -- MBX_RXi, R335
  | mbxMstat   -- MBX_MSTAT, R335
  | mbxSend   -- MBX_SEND, R336
  | mbxRecv   -- MBX_RECV, R337
  | mbxChCfg   -- MBX_CHc_CFG, R340
  | mbxChStat   -- MBX_CHc_STAT, R339
  | mbxReady   -- MBX_READYr_w, R341
  | mbxCptId   -- MBX_CPTj_ID, R345
  | mbxCptTmo   -- MBX_CPTj_TMO, R345
  | mbxCptlock   -- MBX_CPTLOCK, R346
  | fabCtrl   -- FAB_CTRL, R362
  | fabCethr   -- FAB_CETHR, R366
  | fabStat   -- FAB_STAT, R365
  | fabElogW   -- FAB_ELOG_Wi, R364
  | fabElogLevel   -- FAB_ELOG_LEVEL, R364
  | fabElogPop   -- FAB_ELOG_POP, R364
  | fabSpareCmd   -- FAB_SPARE_CMD, R367
  | fabSpareStat   -- FAB_SPARE_STAT, R369
  | fabMap   -- FAB_MAPb, R367
  | fabFsrow   -- FAB_FSROWf, R371
  | fabCe   -- FAB_CEs, R359
  | fabUe   -- FAB_UEs, R360
  | fabInjLo   -- FAB_INJ_LO, R363
  | fabInjHi   -- FAB_INJ_HI, R363
  | tbLo   -- TB_LO, R377
  | tbHi   -- TB_HI, R377
  | tbStat   -- TB_STAT, R375
  | cmpCtrl   -- TIM_CMPc_CTRL, R383
  | cmpValLo   -- TIM_CMPc_VAL_LO, R380
  | cmpValHi   -- TIM_CMPc_VAL_HI, R380
  | cmpPeriod   -- TIM_CMPc_PERIOD, R382
  | cmpStat   -- TIM_CMPc_STAT, R382
  | timLatewin   -- TIM_LATEWIN, R381
  | timFired   -- TIM_FIREDw, R382
  | intCtrl   -- TIM_INTi_CTRL, R385
  | intReload   -- TIM_INTi_RELOAD, R387
  | intCount   -- TIM_INTi_COUNT, R387
  | intCmd   -- TIM_INTi_CMD, R553
  | intStat   -- TIM_INTi_STAT, R386
  | capCtrl   -- CAP_c_CTRL, R389
  | capOffs   -- CAP_c_OFFS, R393
  | capLo   -- CAP_c_LO, R392
  | capHi   -- CAP_c_HI, R392
  | capStatus   -- CAP_c_STATUS, R392
  | capPos   -- CAP_c_POS, R393
  | capPfrm   -- CAP_c_PFRM, R393
  | capNew   -- CAP_NEWw, R391
  | adcCtrl   -- ADC_CTRL, R395
  | adcSeq   -- ADC_SEQi, R395
  | adcCmd   -- ADC_CMD, R395
  | adcFifo   -- ADC_FIFO, R397
  | adcLevel   -- ADC_LEVEL, R397
  | adcWin   -- ADC_WIN, R398
  | adcWinen   -- ADC_WINEN, R398
  | adcStat   -- ADC_STAT, R395
  | adcOvrcnt   -- ADC_OVRCNT, R397
  | adcSstampLo   -- ADC_SSTAMP_LO, R395
  | adcSstampHi   -- ADC_SSTAMP_HI, R395
  | adcFifomark   -- ADC_FIFOMARK, R397
  | evfTask   -- EVF_TASKt, R402
  | evfTstat   -- EVF_TSTATt, R403
  | evfFlag   -- EVF_FLAGf, R404
  | evfSwtrig   -- EVF_SWTRIG, R401
  | evfSwprod   -- EVF_SWPROD, R401
  | evfCfg   -- EVF_CFG, R405
  | evfStat   -- EVF_STAT, R405
  | evfLoopcnt   -- EVF_LOOPCNT, R405
  | pinCfg   -- PIN_CFGp, R417
  | pinData   -- PIN_DATAb, R414
  | pinOe   -- PIN_OEb, R415
  | pinIn   -- PIN_INb, R413
  | pinSet   -- PIN_SETb, R414
  | pinClr   -- PIN_CLRb, R414
  | pinTgl   -- PIN_TGLb, R414
  | pinLocked   -- PIN_LOCKEDb, R417
  | pinLockrej   -- PIN_LOCKREJb, R417
  | pinBank   -- PIN_BANKb, R408
  | pinLockkey   -- PIN_LOCKKEY, R416
  | pinStat   -- PIN_STAT, R418
  | pinUnpark   -- PIN_UNPARK, R419
  | pinEv   -- PIN_EVk, R421
  | uartCfg   -- UARTu_CFG, R423
  | uartDiv   -- UARTu_DIV, R423
  | uartData   -- UARTu_DATA, R422
  | uartStat   -- UARTu_STAT, R422
  | spiCfg   -- SPIs_CFG, R423
  | spiDiv   -- SPIs_DIV, R423
  | spiData   -- SPIs_DATA, R422
  | spiStat   -- SPIs_STAT, R422
  | i2cCfg   -- I2Ci_CFG, R423
  | i2cData   -- I2Ci_DATA, R422
  | i2cStat   -- I2Ci_STAT, R422
  | psqCtrl   -- PSQs_CTRL, R434
  | psqGroup   -- PSQs_GROUP, R424
  | psqCmd   -- PSQs_CMD, R432
  | psqStat   -- PSQs_STAT, R437
  | psqSr   -- PSQs_SR, R424
  | psqSc   -- PSQs_SC, R424
  | psqDr   -- PSQs_DR, R424
  | psqLc   -- PSQs_LC, R424
  | psqTrLo   -- PSQs_TR_LO, R424
  | psqTrHi   -- PSQs_TR_HI, R424
  | psqCapLo   -- PSQs_CAP_LO, R424
  | psqCapHi   -- PSQs_CAP_HI, R424
  | psqOutv   -- PSQs_OUTV, R424
  | psqOev   -- PSQs_OEV, R424
  | psqLevel   -- PSQs_LEVEL, R424
  | psqIdle   -- PSQs_IDLE, R431
  | psqTxf   -- PSQs_TXF, R426
  | psqRxf   -- PSQs_RXF, R426
  | psqProg   -- PSQs_PROGi, R426
  | lnkCfg   -- LNK_CFG, R446
  | lnkBcast   -- LNK_BCAST, R452
  | lnkStat   -- LNK_STAT, R462
  | lnkTerr   -- LNK_TERR, R453
  | lnkParent   -- LNK_PARENT, R453
  | lnkFormtmo   -- LNK_FORMTMO, R455
  | lnkRoute   -- LNK_ROUTEd, R447
  | lnklCtrl   -- LNKl_CTRL, R444
  | lnklStat   -- LNKl_STAT, R462
  | lnklPeer   -- LNKl_PEER, R447
  | lnklDelay   -- LNKl_DELAY, R453
  | lnklAsym   -- LNKl_ASYM, R453
  | lnklRetrycnt   -- LNKl_RETRYCNT, R443
  | lnklCrccnt   -- LNKl_CRCCNT, R443
  | sysRstcause   -- SYS_RSTCAUSE, R474
  | sysReset   -- SYS_RESET, R474
  | sysPark   -- SYS_PARK, R418
  | sysBoot   -- SYS_BOOT, R468
  | sysBooterr   -- SYS_BOOTERR, R467
  | sysWdogCtrl   -- SYS_WDOG_CTRL, R476
  | sysWdogKick   -- SYS_WDOG_KICK, R476
  | sysWdogStat   -- SYS_WDOG_STAT, R476
  | sysSupply   -- SYS_SUPPLY, R525
  | hstBfAddr   -- HST_BF_ADDR, R478
  | hstBfCmd   -- HST_BF_CMD, R478
  | hstBfStat   -- HST_BF_STAT, R478
  | hstBfBuf   -- HST_BF_BUFi, R478
  | hstId   -- HST_ID, R12
  | hstChip   -- HST_CHIP, R470
  | hstDigest   -- HST_DIGESTi, R472
  | hstObcfg   -- HST_OBCFG, R483
  | hstWinchip   -- HST_WINCHIP, R480
  | hstObwinLo   -- HST_OBWINi_LO, R483
  | hstObwinHi   -- HST_OBWINi_HI, R483
  | hstF0vec   -- HST_F0VECv, R482
  | hstF1vec   -- HST_F1VECv, R482
  | hstLtol   -- HST_LTOL, R503
  | psmCtrl   -- PSM_CTRL, R489
  | psmStat   -- PSM_STAT, R503
  | psmBlock   -- PSM_BLOCK, R488
  | psmWake   -- PSM_WAKE, R493
  | psmWakecause   -- PSM_WAKECAUSE, R493
  | psmWaketLo   -- PSM_WAKET_LO, R493
  | psmWaketHi   -- PSM_WAKET_HI, R493
  | psmLtolEff   -- PSM_LTOL_EFF, R489
  | psmCoreLtol   -- PSM_COREk_LTOL, R489
  | psmLtolch   -- PSM_LTOLCH, R490
  | psmMbxltol   -- PSM_MBXLTOL, R490
  | psmAlarmLo   -- PSM_ALARM_LO, R493
  | psmAlarmHi   -- PSM_ALARM_HI, R493
  | psmAlarmCtrl   -- PSM_ALARM_CTRL, R493
  | psmS4lat   -- PSM_S4LAT, R497
  | psmOffcnt   -- PSM_OFFCNT, R496
  | psmAvs   -- PSM_AVS, R500
  | psmVlim   -- PSM_VLIM, R503
  | psmVcore   -- PSM_VCORE, R529
  | psmTemp   -- PSM_TEMP, R498
  | psmPaceref   -- PSM_PACEREF, R499
  | psmPace   -- PSM_PACEm, R499
  | psmDom   -- PSM_DOMw, R485
  | psmDomoff   -- PSM_DOMOFF, R486
  | asyReq   -- ASY_REQ, R506
  | asyStat   -- ASY_STAT, R515
  | asyResW0   -- ASY_RES_W0, R513
  | asyResW1   -- ASY_RES_W1, R513
  | asyResW2   -- ASY_RES_W2, R513
  | asyResPop   -- ASY_RES_POP, R513
  | asyLgrW   -- ASY_LGR_Wi, R513
  | asyLgrPop   -- ASY_LGR_POP, R513
  | asyLgrLevel   -- ASY_LGR_LEVEL, R513
  | asyMaint   -- ASY_MAINT, R509
  | asyDieidLo   -- ASY_DIEID_LO, R516
  | asyDieidHi   -- ASY_DIEID_HI, R516
  | asySpares   -- ASY_SPARES, R514
deriving DecidableEq, Repr, Inhabited

/-- One register: its family and the two indices its address is computed from (0 where it has none). -/
structure RegKey where
  id : RegId
  i : Nat
  j : Nat
deriving DecidableEq, Repr, Inhabited

/-- The access codes of Table 0.4 (R7). -/
inductive Acc where
  | rw | ro | wo | w1c | rc | lk
deriving DecidableEq, Repr

/-- One field of a register family: bits hi down to lo, access code, reset value, reserved encodings as ranges. -/
structure Fd where
  id : RegId
  hi : Nat
  lo : Nat
  acc : Acc
  rst : Nat
  resv : List (Nat × Nat)
deriving DecidableEq, Repr

/-- A field of one register: the unit in which the registers are held. -/
structure FKey where
  id : RegId
  lo : Nat
  i : Nat
  j : Nat
deriving DecidableEq, Repr, Inhabited

namespace F

def layCtrl_STATIC : Fd := ⟨.layCtrl, 7, 7, .rw, 0, []⟩
def layCtrl_WIN_INV : Fd := ⟨.layCtrl, 6, 6, .rw, 0, []⟩
def layCtrl_WIN_EN : Fd := ⟨.layCtrl, 5, 5, .rw, 0, []⟩
def layCtrl_WRAP_Y : Fd := ⟨.layCtrl, 4, 4, .rw, 0, []⟩
def layCtrl_WRAP_X : Fd := ⟨.layCtrl, 3, 3, .rw, 0, []⟩
def layCtrl_IDX0_OPQ : Fd := ⟨.layCtrl, 2, 2, .rw, 0, []⟩
def layCtrl_PREMUL : Fd := ⟨.layCtrl, 1, 1, .rw, 0, []⟩
def layCtrl_EN : Fd := ⟨.layCtrl, 0, 0, .rw, 0, []⟩
def layAssign_BOUND : Fd := ⟨.layAssign, 31, 31, .rw, 0, []⟩
def layAssign_SLOT : Fd := ⟨.layAssign, 12, 8, .rw, 0, []⟩
def layAssign_HEAD : Fd := ⟨.layAssign, 2, 0, .rw, 0, []⟩
def layFormat_MAPH_LOG2 : Fd := ⟨.layFormat, 19, 16, .rw, 0, [(13, 15)]⟩
def layFormat_MAPW_LOG2 : Fd := ⟨.layFormat, 15, 12, .rw, 0, [(13, 15)]⟩
def layFormat_TSIZE : Fd := ⟨.layFormat, 9, 8, .rw, 0, [(3, 3)]⟩
def layFormat_PFMT : Fd := ⟨.layFormat, 7, 4, .rw, 0, [(7, 15)]⟩
def layFormat_KIND : Fd := ⟨.layFormat, 1, 0, .rw, 0, []⟩
def layMapBase_ADDR : Fd := ⟨.layMapBase, 29, 8, .rw, 0, []⟩
def layPatBase_ADDR : Fd := ⟨.layPatBase, 29, 4, .rw, 0, []⟩
def layBmpSize_HM1 : Fd := ⟨.layBmpSize, 29, 16, .rw, 0, []⟩
def layBmpSize_WM1 : Fd := ⟨.layBmpSize, 13, 0, .rw, 0, []⟩
def layBmpStride_STRIDE : Fd := ⟨.layBmpStride, 23, 4, .rw, 0, []⟩
def laySprRange_COUNTM1 : Fd := ⟨.laySprRange, 31, 16, .rw, 0, []⟩
def laySprRange_FIRST : Fd := ⟨.laySprRange, 15, 0, .rw, 0, []⟩
def layScrollX_SX : Fd := ⟨.layScrollX, 31, 0, .rw, 0, []⟩
def layScrollY_SY : Fd := ⟨.layScrollY, 31, 0, .rw, 0, []⟩
def layWinH_X1 : Fd := ⟨.layWinH, 31, 16, .rw, 0, []⟩
def layWinH_X0 : Fd := ⟨.layWinH, 15, 0, .rw, 0, []⟩
def layWinV_Y1 : Fd := ⟨.layWinV, 31, 16, .rw, 0, []⟩
def layWinV_Y0 : Fd := ⟨.layWinV, 15, 0, .rw, 0, []⟩
def layAlpha_ALPHA : Fd := ⟨.layAlpha, 11, 0, .rw, 0xFFF, []⟩
def layPal_BANK : Fd := ⟨.layPal, 9, 0, .rw, 0, []⟩
def layAffMtx_MTX : Fd := ⟨.layAffMtx, 11, 0, .rw, 0, []⟩
def layAffC_CY : Fd := ⟨.layAffC, 31, 16, .rw, 0, []⟩
def layAffC_CX : Fd := ⟨.layAffC, 15, 0, .rw, 0, []⟩
def layAffU0_U0 : Fd := ⟨.layAffU0, 31, 0, .rw, 0, []⟩
def layAffV0_V0 : Fd := ⟨.layAffV0, 31, 0, .rw, 0, []⟩
def layStat_FENCE_MISS : Fd := ⟨.layStat, 5, 5, .w1c, 0, []⟩
def layStat_POISON : Fd := ⟨.layStat, 4, 4, .w1c, 0, []⟩
def layStat_SLOT_CLASH : Fd := ⟨.layStat, 3, 3, .w1c, 0, []⟩
def layStat_ADDR_ERR : Fd := ⟨.layStat, 2, 2, .w1c, 0, []⟩
def layStat_DESC_ERR : Fd := ⟨.layStat, 1, 1, .w1c, 0, []⟩
def layStat_SPAN_DROP : Fd := ⟨.layStat, 0, 0, .w1c, 0, []⟩
def layDropcnt_SAT : Fd := ⟨.layDropcnt, 31, 31, .rc, 0, []⟩
def layDropcnt_COUNT : Fd := ⟨.layDropcnt, 15, 0, .rc, 0, []⟩
def layAssignAct_BOUND : Fd := ⟨.layAssignAct, 31, 31, .ro, 0, []⟩
def layAssignAct_SLOT : Fd := ⟨.layAssignAct, 12, 8, .ro, 0, []⟩
def layAssignAct_HEAD : Fd := ⟨.layAssignAct, 2, 0, .ro, 0, []⟩
def layFormatAct_MAPH_LOG2 : Fd := ⟨.layFormatAct, 19, 16, .ro, 0, []⟩
def layFormatAct_MAPW_LOG2 : Fd := ⟨.layFormatAct, 15, 12, .ro, 0, []⟩
def layFormatAct_TSIZE : Fd := ⟨.layFormatAct, 9, 8, .ro, 0, []⟩
def layFormatAct_PFMT : Fd := ⟨.layFormatAct, 7, 4, .ro, 0, []⟩
def layFormatAct_KIND : Fd := ⟨.layFormatAct, 1, 0, .ro, 0, []⟩
def layMapBaseAct_ADDR : Fd := ⟨.layMapBaseAct, 29, 8, .ro, 0, []⟩
def layPatBaseAct_ADDR : Fd := ⟨.layPatBaseAct, 29, 4, .ro, 0, []⟩
def layBmpSizeAct_HM1 : Fd := ⟨.layBmpSizeAct, 29, 16, .ro, 0, []⟩
def layBmpSizeAct_WM1 : Fd := ⟨.layBmpSizeAct, 13, 0, .ro, 0, []⟩
def layBmpStrideAct_STRIDE : Fd := ⟨.layBmpStrideAct, 23, 4, .ro, 0, []⟩
def laySprRangeAct_COUNTM1 : Fd := ⟨.laySprRangeAct, 31, 16, .ro, 0, []⟩
def laySprRangeAct_FIRST : Fd := ⟨.laySprRangeAct, 15, 0, .ro, 0, []⟩
def lpeCtrl_EN : Fd := ⟨.lpeCtrl, 0, 0, .rw, 0, []⟩
def lpeBase_ADDR : Fd := ⟨.lpeBase, 29, 2, .rw, 0, []⟩
def lpeStepmax_STEPS : Fd := ⟨.lpeStepmax, 15, 0, .rw, 0x1000, [(0, 255)]⟩
def lpeStat_STALL : Fd := ⟨.lpeStat, 9, 9, .w1c, 0, []⟩
def lpeStat_POISON : Fd := ⟨.lpeStat, 8, 8, .w1c, 0, []⟩
def lpeStat_PADDR : Fd := ⟨.lpeStat, 7, 7, .w1c, 0, []⟩
def lpeStat_STACK : Fd := ⟨.lpeStat, 6, 6, .w1c, 0, []⟩
def lpeStat_RUNAWAY : Fd := ⟨.lpeStat, 5, 5, .w1c, 0, []⟩
def lpeStat_WAIT_PAST : Fd := ⟨.lpeStat, 4, 4, .w1c, 0, []⟩
def lpeStat_BAD_CMD : Fd := ⟨.lpeStat, 3, 3, .w1c, 0, []⟩
def lpeStat_BAD_REG : Fd := ⟨.lpeStat, 2, 2, .w1c, 0, []⟩
def lpeStat_XHEAD : Fd := ⟨.lpeStat, 1, 1, .w1c, 0, []⟩
def lpeStat_LINE_OVER : Fd := ⟨.lpeStat, 0, 0, .w1c, 0, []⟩
def lpeOvercnt_SAT : Fd := ⟨.lpeOvercnt, 31, 31, .rc, 0, []⟩
def lpeOvercnt_COUNT : Fd := ⟨.lpeOvercnt, 15, 0, .rc, 0, []⟩
def lpeStallcnt_SAT : Fd := ⟨.lpeStallcnt, 31, 31, .rc, 0, []⟩
def lpeStallcnt_COUNT : Fd := ⟨.lpeStallcnt, 15, 0, .rc, 0, []⟩
def lpeLine_RUN : Fd := ⟨.lpeLine, 31, 31, .ro, 0, []⟩
def lpeLine_HOLD : Fd := ⟨.lpeLine, 30, 30, .ro, 0, []⟩
def lpeLine_C : Fd := ⟨.lpeLine, 15, 0, .ro, 0, []⟩
def lpeBaseAct_ADDR : Fd := ⟨.lpeBaseAct, 31, 0, .ro, 0, []⟩
def cpsLane_EN : Fd := ⟨.cpsLane, 31, 31, .rw, 1, []⟩
def cpsLane_HEAD : Fd := ⟨.cpsLane, 2, 0, .rw, 0, []⟩
def cpsLaneAct_EN : Fd := ⟨.cpsLaneAct, 31, 31, .ro, 1, []⟩
def cpsLaneAct_HEAD : Fd := ⟨.cpsLaneAct, 2, 0, .ro, 0, []⟩
def cpsFsig_FENCE : Fd := ⟨.cpsFsig, 7, 0, .wo, 0, []⟩
def cpsFence_SIG : Fd := ⟨.cpsFence, 31, 31, .w1c, 0, []⟩
def cpsFence_OVR : Fd := ⟨.cpsFence, 30, 30, .w1c, 0, []⟩
def cpsFence_HEAD : Fd := ⟨.cpsFence, 2, 0, .rw, 0, []⟩
def cpsFlip_ARM : Fd := ⟨.cpsFlip, 31, 31, .rw, 0, []⟩
def cpsFlip_NOFENCE : Fd := ⟨.cpsFlip, 30, 30, .rw, 0, []⟩
def cpsFlip_FENCE : Fd := ⟨.cpsFlip, 7, 0, .rw, 0, []⟩
def cpsCtrl_TEE_EN : Fd := ⟨.cpsCtrl, 10, 10, .rw, 0, []⟩
def cpsCtrl_INGOT_EN : Fd := ⟨.cpsCtrl, 9, 9, .rw, 0, []⟩
def cpsCtrl_OCC_EN : Fd := ⟨.cpsCtrl, 8, 8, .rw, 0, []⟩
def cpsCtrl_CH_LOG2 : Fd := ⟨.cpsCtrl, 6, 4, .rw, 2, [(5, 7)]⟩
def cpsCtrl_MODE : Fd := ⟨.cpsCtrl, 1, 0, .rw, 0, [(3, 3)]⟩
def cpsBackdrop_RGB : Fd := ⟨.cpsBackdrop, 29, 0, .rw, 0, []⟩
def cpsPageA_OFFSET : Fd := ⟨.cpsPageA, 23, 12, .rw, 0, []⟩
def cpsPageB_OFFSET : Fd := ⟨.cpsPageB, 23, 12, .rw, 0x800, []⟩
def cpsIngot_SIZE : Fd := ⟨.cpsIngot, 24, 16, .rw, 0, [(257, 511)]⟩
def cpsIngot_BASE : Fd := ⟨.cpsIngot, 7, 0, .rw, 0, []⟩
def cpsTeeAddr_ADDR : Fd := ⟨.cpsTeeAddr, 29, 4, .rw, 0, []⟩
def cpsTeeAddr2_ADDR : Fd := ⟨.cpsTeeAddr2, 29, 4, .rw, 0, []⟩
def cpsTeeStride_STRIDE : Fd := ⟨.cpsTeeStride, 23, 4, .rw, 0, []⟩
def cpsTeeX_X1 : Fd := ⟨.cpsTeeX, 31, 16, .rw, 0, []⟩
def cpsTeeX_X0 : Fd := ⟨.cpsTeeX, 15, 0, .rw, 0, []⟩
def cpsTeeCfg_FSIG_EN : Fd := ⟨.cpsTeeCfg, 31, 31, .rw, 0, []⟩
def cpsTeeCfg_PAIR : Fd := ⟨.cpsTeeCfg, 30, 30, .rw, 0, []⟩
def cpsTeeCfg_FENCE : Fd := ⟨.cpsTeeCfg, 23, 16, .rw, 0, []⟩
def cpsTeeCfg_CHIP : Fd := ⟨.cpsTeeCfg, 9, 0, .rw, 0, []⟩
def cpsStat_LANE_CLASH : Fd := ⟨.cpsStat, 7, 7, .w1c, 0, []⟩
def cpsStat_INGOT_POISON : Fd := ⟨.cpsStat, 6, 6, .w1c, 0, []⟩
def cpsStat_NOLANE : Fd := ⟨.cpsStat, 5, 5, .w1c, 0, []⟩
def cpsStat_INGOT_FULL : Fd := ⟨.cpsStat, 4, 4, .w1c, 0, []⟩
def cpsStat_TEE_ERR : Fd := ⟨.cpsStat, 3, 3, .w1c, 0, []⟩
def cpsStat_TEE_DROP : Fd := ⟨.cpsStat, 2, 2, .w1c, 0, []⟩
def cpsStat_FENCE_MISS : Fd := ⟨.cpsStat, 1, 1, .w1c, 0, []⟩
def cpsStat_UNDERRUN : Fd := ⟨.cpsStat, 0, 0, .w1c, 0, []⟩
def cpsUndercnt_SAT : Fd := ⟨.cpsUndercnt, 31, 31, .rc, 0, []⟩
def cpsUndercnt_COUNT : Fd := ⟨.cpsUndercnt, 15, 0, .rc, 0, []⟩
def cpsFmisscnt_SAT : Fd := ⟨.cpsFmisscnt, 31, 31, .rc, 0, []⟩
def cpsFmisscnt_COUNT : Fd := ⟨.cpsFmisscnt, 15, 0, .rc, 0, []⟩
def cpsTeedropcnt_SAT : Fd := ⟨.cpsTeedropcnt, 31, 31, .rc, 0, []⟩
def cpsTeedropcnt_COUNT : Fd := ⟨.cpsTeedropcnt, 15, 0, .rc, 0, []⟩
def cpsProgress_RUN : Fd := ⟨.cpsProgress, 31, 31, .ro, 0, []⟩
def cpsProgress_FRAME : Fd := ⟨.cpsProgress, 23, 16, .ro, 0, []⟩
def cpsProgress_COURSE : Fd := ⟨.cpsProgress, 15, 0, .ro, 0, []⟩
def cpsMinslack_SLACK : Fd := ⟨.cpsMinslack, 23, 0, .ro, 0, []⟩
def cpsCtrlAct_TEE_EN : Fd := ⟨.cpsCtrlAct, 10, 10, .ro, 0, []⟩
def cpsCtrlAct_INGOT_EN : Fd := ⟨.cpsCtrlAct, 9, 9, .ro, 0, []⟩
def cpsCtrlAct_OCC_EN : Fd := ⟨.cpsCtrlAct, 8, 8, .ro, 0, []⟩
def cpsCtrlAct_CH_LOG2 : Fd := ⟨.cpsCtrlAct, 6, 4, .ro, 2, []⟩
def cpsCtrlAct_MODE : Fd := ⟨.cpsCtrlAct, 1, 0, .ro, 0, []⟩
def hmkFrame_FRAME : Fd := ⟨.hmkFrame, 31, 0, .ro, 0, []⟩
def hmkHstat_FWRAP : Fd := ⟨.hmkHstat, 2, 2, .w1c, 0, []⟩
def hmkHstat_FRZ_SUPV : Fd := ⟨.hmkHstat, 1, 1, .ro, 0, []⟩
def hmkHstat_FROZEN : Fd := ⟨.hmkHstat, 0, 0, .w1c, 0, []⟩
def hmkBlankcol_RGB : Fd := ⟨.hmkBlankcol, 29, 0, .rw, 0, []⟩
def hmkMislo_MIS : Fd := ⟨.hmkMislo, 31, 0, .ro, 0, []⟩
def hmkMishi_MIS : Fd := ⟨.hmkMishi, 31, 0, .ro, 0, []⟩
def hmkCfg_LOCK : Fd := ⟨.hmkCfg, 31, 31, .lk, 0, []⟩
def hmkCfg_SUPV : Fd := ⟨.hmkCfg, 16, 16, .lk, 0, []⟩
def hmkCfg_FREEZE : Fd := ⟨.hmkCfg, 9, 9, .lk, 0, []⟩
def hmkCfg_BLANK : Fd := ⟨.hmkCfg, 8, 8, .lk, 0, []⟩
def hmkCfg_MODE : Fd := ⟨.hmkCfg, 5, 4, .lk, 0, [(3, 3)]⟩
def hmkCfg_TAPS : Fd := ⟨.hmkCfg, 2, 1, .lk, 3, [(0, 0)]⟩
def hmkCfg_EN : Fd := ⟨.hmkCfg, 0, 0, .lk, 0, []⟩
def hmkRectH_X1 : Fd := ⟨.hmkRectH, 31, 16, .lk, 0, []⟩
def hmkRectH_X0 : Fd := ⟨.hmkRectH, 15, 0, .lk, 0, []⟩
def hmkRectV_Y1 : Fd := ⟨.hmkRectV, 31, 16, .lk, 0, []⟩
def hmkRectV_Y0 : Fd := ⟨.hmkRectV, 15, 0, .lk, 0, []⟩
def hmkExp_EXP : Fd := ⟨.hmkExp, 31, 0, .lk, 0, []⟩
def hmkHval0_VAL : Fd := ⟨.hmkHval0, 31, 0, .rw, 0, []⟩
def hmkHtag0_TAG : Fd := ⟨.hmkHtag0, 31, 0, .rw, 0, []⟩
def hmkHval1_VAL : Fd := ⟨.hmkHval1, 31, 0, .rw, 0, []⟩
def hmkHtag1_TAG : Fd := ⟨.hmkHtag1, 31, 0, .rw, 0, []⟩
def hmkLastc_SIG : Fd := ⟨.hmkLastc, 31, 0, .ro, 0, []⟩
def hmkLastcFrm_FRAME : Fd := ⟨.hmkLastcFrm, 31, 0, .ro, 0, []⟩
def hmkLasts_SIG : Fd := ⟨.hmkLasts, 31, 0, .ro, 0, []⟩
def hmkLastsFrm_FRAME : Fd := ⟨.hmkLastsFrm, 31, 0, .ro, 0, []⟩
def hmkStat_ARMED1 : Fd := ⟨.hmkStat, 9, 9, .ro, 0, []⟩
def hmkStat_ARMED0 : Fd := ⟨.hmkStat, 8, 8, .ro, 0, []⟩
def hmkStat_LOCK_REJ : Fd := ⟨.hmkStat, 7, 7, .w1c, 0, []⟩
def hmkStat_WR_REJ : Fd := ⟨.hmkStat, 6, 6, .w1c, 0, []⟩
def hmkStat_BLANKED : Fd := ⟨.hmkStat, 5, 5, .w1c, 0, []⟩
def hmkStat_LEARNED : Fd := ⟨.hmkStat, 4, 4, .ro, 0, []⟩
def hmkStat_NOEXP : Fd := ⟨.hmkStat, 3, 3, .w1c, 0, []⟩
def hmkStat_SKIP : Fd := ⟨.hmkStat, 2, 2, .w1c, 0, []⟩
def hmkStat_MISS : Fd := ⟨.hmkStat, 1, 1, .w1c, 0, []⟩
def hmkStat_MISC : Fd := ⟨.hmkStat, 0, 0, .w1c, 0, []⟩
def hmkMiscnt_SAT : Fd := ⟨.hmkMiscnt, 31, 31, .rc, 0, []⟩
def hmkMiscnt_COUNT : Fd := ⟨.hmkMiscnt, 15, 0, .rc, 0, []⟩
def shCtrl_PLL_EN : Fd := ⟨.shCtrl, 1, 1, .rw, 0, []⟩
def shCtrl_RUN : Fd := ⟨.shCtrl, 0, 0, .rw, 0, []⟩
def shFormat_REPM1 : Fd := ⟨.shFormat, 5, 4, .rw, 0, []⟩
def shFormat_FSFMT : Fd := ⟨.shFormat, 0, 0, .rw, 0, []⟩
def shHtime_HT : Fd := ⟨.shHtime, 31, 16, .rw, 0, []⟩
def shHtime_HA : Fd := ⟨.shHtime, 15, 0, .rw, 0, []⟩
def shHsync_HPOL : Fd := ⟨.shHsync, 31, 31, .rw, 0, []⟩
def shHsync_HSW : Fd := ⟨.shHsync, 28, 16, .rw, 0, []⟩
def shHsync_HFP : Fd := ⟨.shHsync, 12, 0, .rw, 0, []⟩
def shVtime_VT : Fd := ⟨.shVtime, 31, 16, .rw, 0, []⟩
def shVtime_VA : Fd := ⟨.shVtime, 15, 0, .rw, 0, []⟩
def shVsync_VPOL : Fd := ⟨.shVsync, 31, 31, .rw, 0, []⟩
def shVsync_VSW : Fd := ⟨.shVsync, 28, 16, .rw, 0, []⟩
def shVsync_VFP : Fd := ⟨.shVsync, 12, 0, .rw, 0, []⟩
def shPclk_FREQ : Fd := ⟨.shPclk, 31, 0, .rw, 0, []⟩
def shLock_MAXADJ : Fd := ⟨.shLock, 27, 16, .rw, 64, []⟩
def shLock_SYNCSRC : Fd := ⟨.shLock, 1, 0, .rw, 0, [(3, 3)]⟩
def shFaddr_OFFSET : Fd := ⟨.shFaddr, 23, 12, .rw, 0, []⟩
def shFaddrAct_OFFSET : Fd := ⟨.shFaddrAct, 23, 12, .ro, 0, []⟩
def shLmatch_EN : Fd := ⟨.shLmatch, 31, 31, .rw, 0, []⟩
def shLmatch_DOT : Fd := ⟨.shLmatch, 28, 16, .rw, 0, []⟩
def shLmatch_LINE : Fd := ⟨.shLmatch, 12, 0, .rw, 0, []⟩
def shTbepochLo_EPOCH : Fd := ⟨.shTbepochLo, 31, 0, .rw, 0, []⟩
def shTbepochHi_EPOCH : Fd := ⟨.shTbepochHi, 31, 0, .rw, 0, []⟩
def shTbper_PER : Fd := ⟨.shTbper, 31, 0, .rw, 0, []⟩
def shGloffs_OFFS : Fd := ⟨.shGloffs, 31, 0, .rw, 0, []⟩
def shLutctrl_DITHER : Fd := ⟨.shLutctrl, 5, 4, .rw, 0, [(3, 3)]⟩
def shLutctrl_LUT_EN : Fd := ⟨.shLutctrl, 0, 0, .rw, 0, []⟩
def shTbperHi_PERHI : Fd := ⟨.shTbperHi, 5, 0, .rw, 0, []⟩
def shStat_POISON : Fd := ⟨.shStat, 9, 9, .w1c, 0, []⟩
def shStat_LOCK_LOST : Fd := ⟨.shStat, 8, 8, .w1c, 0, []⟩
def shStat_PLL_LOST : Fd := ⟨.shStat, 7, 7, .w1c, 0, []⟩
def shStat_STARVE : Fd := ⟨.shStat, 6, 6, .w1c, 0, []⟩
def shStat_CFG_ERR : Fd := ⟨.shStat, 5, 5, .w1c, 0, []⟩
def shStat_CFG_REJ : Fd := ⟨.shStat, 4, 4, .w1c, 0, []⟩
def shStat_LOCKED : Fd := ⟨.shStat, 3, 3, .ro, 0, []⟩
def shStat_PLL_LOCK : Fd := ⟨.shStat, 2, 2, .ro, 0, []⟩
def shStat_FADDR_PEND : Fd := ⟨.shStat, 1, 1, .ro, 0, []⟩
def shStat_RUNNING : Fd := ⟨.shStat, 0, 0, .ro, 0, []⟩
def shStarvecnt_SAT : Fd := ⟨.shStarvecnt, 31, 31, .rc, 0, []⟩
def shStarvecnt_COUNT : Fd := ⟨.shStarvecnt, 15, 0, .rc, 0, []⟩
def shBeam_X : Fd := ⟨.shBeam, 28, 16, .ro, 0, []⟩
def shBeam_Y : Fd := ⟨.shBeam, 12, 0, .ro, 0, []⟩
def shFrame_FRAME : Fd := ⟨.shFrame, 31, 0, .ro, 0, []⟩
def shPherr_ERR : Fd := ⟨.shPherr, 31, 0, .ro, 0, []⟩
def shDotper_PER : Fd := ⟨.shDotper, 31, 0, .ro, 0, []⟩
def shFstampLo_T : Fd := ⟨.shFstampLo, 31, 0, .ro, 0, []⟩
def shFstampHi_T : Fd := ⟨.shFstampHi, 31, 0, .ro, 0, []⟩
def shFstampFr_FR : Fd := ⟨.shFstampFr, 15, 0, .ro, 0, []⟩
def shOut_SYNCPINS : Fd := ⟨.shOut, 4, 4, .rw, 0, []⟩
def shOut_OUTSEL : Fd := ⟨.shOut, 1, 0, .rw, 0, []⟩
def shDpcfg_AUD_EN : Fd := ⟨.shDpcfg, 9, 9, .rw, 0, []⟩
def shDpcfg_PSR_EN : Fd := ⟨.shDpcfg, 8, 8, .rw, 0, []⟩
def shDpcfg_AUTO_LT : Fd := ⟨.shDpcfg, 7, 7, .rw, 1, []⟩
def shDpcfg_SSC : Fd := ⟨.shDpcfg, 6, 6, .rw, 0, []⟩
def shDpcfg_BPC : Fd := ⟨.shDpcfg, 5, 4, .rw, 0, [(3, 3)]⟩
def shDpcfg_LANES : Fd := ⟨.shDpcfg, 3, 2, .rw, 0, [(3, 3)]⟩
def shDpcfg_MAXRATE : Fd := ⟨.shDpcfg, 1, 0, .rw, 0, []⟩
def shDpstat_AUD_NOROOM : Fd := ⟨.shDpstat, 13, 13, .w1c, 0, []⟩
def shDpstat_PSR_ERR : Fd := ⟨.shDpstat, 12, 12, .w1c, 0, []⟩
def shDpstat_LINK_LOSS : Fd := ⟨.shDpstat, 11, 11, .w1c, 0, []⟩
def shDpstat_LT_FAIL : Fd := ⟨.shDpstat, 10, 10, .w1c, 0, []⟩
def shDpstat_HPD_IRQ : Fd := ⟨.shDpstat, 9, 9, .w1c, 0, []⟩
def shDpstat_HPD_CHG : Fd := ⟨.shDpstat, 8, 8, .w1c, 0, []⟩
def shDpstat_PSR_ACT : Fd := ⟨.shDpstat, 6, 6, .ro, 0, []⟩
def shDpstat_LANES : Fd := ⟨.shDpstat, 5, 4, .ro, 0, []⟩
def shDpstat_RATE : Fd := ⟨.shDpstat, 3, 2, .ro, 0, []⟩
def shDpstat_TRAINED : Fd := ⟨.shDpstat, 1, 1, .ro, 0, []⟩
def shDpstat_HPD : Fd := ⟨.shDpstat, 0, 0, .ro, 0, []⟩
def shDpcmd_PSR_EXIT : Fd := ⟨.shDpcmd, 2, 2, .wo, 0, []⟩
def shDpcmd_PSR_ENTER : Fd := ⟨.shDpcmd, 1, 1, .wo, 0, []⟩
def shDpcmd_TRAIN : Fd := ⟨.shDpcmd, 0, 0, .wo, 0, []⟩
/-- The spec refers to DisplayPort for the request codes; those taken as reserved here are PRESUMED from DisplayPort
(notes/assumptions/73.md): all but the I2C requests 0 to 2 and 4 to 6 and the native requests 8 and 9. -/
def shAuxctrl_CMD : Fd := ⟨.shAuxctrl, 31, 28, .rw, 0, [(3, 3), (7, 7), (10, 15)]⟩
def shAuxctrl_ADDR : Fd := ⟨.shAuxctrl, 27, 8, .rw, 0, []⟩
def shAuxctrl_LENM1 : Fd := ⟨.shAuxctrl, 3, 0, .rw, 0, []⟩
def shAuxdata_DATA : Fd := ⟨.shAuxdata, 31, 0, .rw, 0, []⟩
def shAuxstat_COUNT : Fd := ⟨.shAuxstat, 12, 8, .ro, 0, []⟩
def shAuxstat_TIMEOUT : Fd := ⟨.shAuxstat, 4, 4, .w1c, 0, []⟩
def shAuxstat_DEFER : Fd := ⟨.shAuxstat, 3, 3, .w1c, 0, []⟩
def shAuxstat_NACK : Fd := ⟨.shAuxstat, 2, 2, .w1c, 0, []⟩
def shAuxstat_DONE : Fd := ⟨.shAuxstat, 1, 1, .w1c, 0, []⟩
def shAuxstat_BUSY : Fd := ⟨.shAuxstat, 0, 0, .ro, 0, []⟩
def shAna_SERR : Fd := ⟨.shAna, 3, 3, .rw, 0, []⟩
def shAna_CSYNC : Fd := ⟨.shAna, 2, 2, .rw, 0, []⟩
def shAna_LEVEL : Fd := ⟨.shAna, 1, 0, .rw, 0, [(3, 3)]⟩
def shPar_CLKINV : Fd := ⟨.shPar, 4, 4, .rw, 0, []⟩
def shPar_WIDTH : Fd := ⟨.shPar, 3, 0, .rw, 0, [(0, 3), (11, 15)]⟩
def glCtrl_TRI : Fd := ⟨.glCtrl, 1, 1, .rw, 0, []⟩
def glCtrl_EN : Fd := ⟨.glCtrl, 0, 0, .rw, 0, []⟩
def glStat_LOST : Fd := ⟨.glStat, 2, 2, .w1c, 0, []⟩
def glStat_STABLE : Fd := ⟨.glStat, 1, 1, .ro, 0, []⟩
def glStat_PRESENT : Fd := ⟨.glStat, 0, 0, .ro, 0, []⟩
def glFper_PER : Fd := ⟨.glFper, 31, 0, .ro, 0, []⟩
def glLines_LINES : Fd := ⟨.glLines, 12, 0, .ro, 0, []⟩
def glFstampLo_T : Fd := ⟨.glFstampLo, 31, 0, .ro, 0, []⟩
def glFstampHi_T : Fd := ⟨.glFstampHi, 31, 0, .ro, 0, []⟩
def glFperHi_PERHI : Fd := ⟨.glFperHi, 5, 0, .ro, 0, []⟩
def shLut_VAL : Fd := ⟨.shLut, 11, 0, .rw, 0, []⟩
def audCtrl_TICKDIV : Fd := ⟨.audCtrl, 15, 8, .rw, 0, []⟩
def audCtrl_HOLD : Fd := ⟨.audCtrl, 1, 1, .rw, 0, []⟩
def audCtrl_RUN : Fd := ⟨.audCtrl, 0, 0, .rw, 0, []⟩
def audClk_TBLOCK : Fd := ⟨.audClk, 1, 1, .rw, 0, []⟩
def audClk_PLL_EN : Fd := ⟨.audClk, 0, 0, .rw, 0, []⟩
def audEpochLo_EPOCH : Fd := ⟨.audEpochLo, 31, 0, .rw, 0, []⟩
def audEpochHi_EPOCH : Fd := ⟨.audEpochHi, 31, 0, .rw, 0, []⟩
def audScountLo_N : Fd := ⟨.audScountLo, 31, 0, .ro, 0, []⟩
def audScountHi_N : Fd := ⟨.audScountHi, 31, 0, .ro, 0, []⟩
def audBstampLo_T : Fd := ⟨.audBstampLo, 31, 0, .ro, 0, []⟩
def audBstampHi_T : Fd := ⟨.audBstampHi, 31, 0, .ro, 0, []⟩
def audStat_POISON : Fd := ⟨.audStat, 9, 9, .w1c, 0, []⟩
def audStat_EFF : Fd := ⟨.audStat, 8, 8, .w1c, 0, []⟩
def audStat_PORT : Fd := ⟨.audStat, 7, 7, .w1c, 0, []⟩
def audStat_VOICE : Fd := ⟨.audStat, 6, 6, .w1c, 0, []⟩
def audStat_SAT : Fd := ⟨.audStat, 5, 5, .w1c, 0, []⟩
def audStat_LATE : Fd := ⟨.audStat, 4, 4, .w1c, 0, []⟩
def audStat_CFG_ERR : Fd := ⟨.audStat, 3, 3, .w1c, 0, []⟩
def audStat_TB_LOCKED : Fd := ⟨.audStat, 2, 2, .ro, 0, []⟩
def audStat_PLL_LOCK : Fd := ⟨.audStat, 1, 1, .ro, 0, []⟩
def audStat_RUNNING : Fd := ⟨.audStat, 0, 0, .ro, 0, []⟩
def audLatecnt_SAT : Fd := ⟨.audLatecnt, 31, 31, .rc, 0, []⟩
def audLatecnt_COUNT : Fd := ⟨.audLatecnt, 15, 0, .rc, 0, []⟩
def audVend_VEND : Fd := ⟨.audVend, 31, 0, .w1c, 0, []⟩
def audVbus_RAMPING : Fd := ⟨.audVbus, 31, 31, .ro, 0, []⟩
def audVbus_RAMP : Fd := ⟨.audVbus, 26, 16, .rw, 100, [(0, 0), (2001, 2047)]⟩
def audVbus_GAIN : Fd := ⟨.audVbus, 15, 0, .rw, 0x1000, []⟩
def audVbusSatcnt_SAT : Fd := ⟨.audVbusSatcnt, 31, 31, .rc, 0, []⟩
def audVbusSatcnt_COUNT : Fd := ⟨.audVbusSatcnt, 15, 0, .rc, 0, []⟩
def audVbusSat_SAT : Fd := ⟨.audVbusSat, 0, 0, .w1c, 0, []⟩
def effCtrl_RAMP : Fd := ⟨.effCtrl, 26, 16, .rw, 100, [(0, 0), (2001, 2047)]⟩
def effCtrl_TYPE : Fd := ⟨.effCtrl, 2, 0, .rw, 0, [(6, 7)]⟩
def effMem_SIZE : Fd := ⟨.effMem, 26, 16, .rw, 0, [(1025, 2047)]⟩
def effMem_BASE : Fd := ⟨.effMem, 9, 0, .rw, 0, []⟩
def effMix_WET : Fd := ⟨.effMix, 31, 16, .rw, 0, []⟩
def effMix_DRY : Fd := ⟨.effMix, 15, 0, .rw, 0x1000, []⟩
def effStat_MEM_ERR : Fd := ⟨.effStat, 0, 0, .w1c, 0, []⟩
def effP_P : Fd := ⟨.effP, 31, 0, .rw, 0, []⟩
def effIn_RAMPING : Fd := ⟨.effIn, 31, 31, .ro, 0, []⟩
def effIn_PEND : Fd := ⟨.effIn, 30, 30, .ro, 0, []⟩
def effIn_SRC : Fd := ⟨.effIn, 24, 16, .rw, 0, []⟩
def effIn_GAIN : Fd := ⟨.effIn, 15, 0, .rw, 0x1000, []⟩
def mbCtrl_RAMPING : Fd := ⟨.mbCtrl, 31, 31, .ro, 0, []⟩
def mbCtrl_RAMP : Fd := ⟨.mbCtrl, 26, 16, .rw, 100, [(0, 0), (2001, 2047)]⟩
def mbCtrl_GAIN : Fd := ⟨.mbCtrl, 15, 0, .rw, 0x1000, []⟩
def mbLim_LAH : Fd := ⟨.mbLim, 31, 30, .rw, 0, []⟩
def mbLim_THR : Fd := ⟨.mbLim, 23, 0, .rw, 0x7FFFFF, []⟩
def mbRel_REL : Fd := ⟨.mbRel, 15, 0, .rw, 50, [(0, 0)]⟩
def mbStat_SAT : Fd := ⟨.mbStat, 0, 0, .w1c, 0, []⟩
def mbLimcnt_SAT : Fd := ⟨.mbLimcnt, 31, 31, .rc, 0, []⟩
def mbLimcnt_COUNT : Fd := ⟨.mbLimcnt, 15, 0, .rc, 0, []⟩
def mbSatcnt_SAT : Fd := ⟨.mbSatcnt, 31, 31, .rc, 0, []⟩
def mbSatcnt_COUNT : Fd := ⟨.mbSatcnt, 15, 0, .rc, 0, []⟩
def mbIn_RAMPING : Fd := ⟨.mbIn, 31, 31, .ro, 0, []⟩
def mbIn_PEND : Fd := ⟨.mbIn, 30, 30, .ro, 0, []⟩
def mbIn_SRC : Fd := ⟨.mbIn, 24, 16, .rw, 0, []⟩
def mbIn_GAIN : Fd := ⟨.mbIn, 15, 0, .rw, 0x1000, []⟩
def outCfg_EN : Fd := ⟨.outCfg, 31, 31, .rw, 0, []⟩
def outCfg_MODE : Fd := ⟨.outCfg, 29, 28, .rw, 0, [(3, 3)]⟩
def outCfg_CLKSRC : Fd := ⟨.outCfg, 27, 27, .rw, 0, []⟩
def outCfg_MCLK_EN : Fd := ⟨.outCfg, 26, 26, .rw, 0, []⟩
def outCfg_SWIDTH : Fd := ⟨.outCfg, 25, 24, .rw, 1, [(3, 3)]⟩
def outCfg_D24 : Fd := ⟨.outCfg, 23, 23, .rw, 1, []⟩
def outCfg_RATE : Fd := ⟨.outCfg, 22, 20, .rw, 2, [(7, 7)]⟩
def outCfg_SLOTSM1 : Fd := ⟨.outCfg, 19, 16, .rw, 1, []⟩
def outStat_CLKLOSS : Fd := ⟨.outStat, 4, 4, .w1c, 0, []⟩
def outStat_SLIP : Fd := ⟨.outStat, 3, 3, .w1c, 0, []⟩
def outStat_CFG_REJ : Fd := ⟨.outStat, 2, 2, .w1c, 0, []⟩
def outStat_CFG_ERR : Fd := ⟨.outStat, 1, 1, .w1c, 0, []⟩
def outStat_RUNNING : Fd := ⟨.outStat, 0, 0, .ro, 0, []⟩
def outSlipcnt_SAT : Fd := ⟨.outSlipcnt, 31, 31, .rc, 0, []⟩
def outSlipcnt_COUNT : Fd := ⟨.outSlipcnt, 15, 0, .rc, 0, []⟩
def outSlot_RAMPING : Fd := ⟨.outSlot, 31, 31, .ro, 0, []⟩
def outSlot_PEND : Fd := ⟨.outSlot, 30, 30, .ro, 0, []⟩
def outSlot_RAMP : Fd := ⟨.outSlot, 26, 16, .rw, 100, [(0, 0), (2001, 2047)]⟩
def outSlot_SRC : Fd := ⟨.outSlot, 5, 0, .rw, 0x3F, [(32, 62)]⟩
def spdCfg_EN : Fd := ⟨.spdCfg, 31, 31, .rw, 0, []⟩
def spdCfg_D24 : Fd := ⟨.spdCfg, 23, 23, .rw, 1, []⟩
def spdCfg_RATE : Fd := ⟨.spdCfg, 22, 20, .rw, 2, [(7, 7)]⟩
def spdStat_CLKLOSS : Fd := ⟨.spdStat, 4, 4, .w1c, 0, []⟩
def spdStat_SLIP : Fd := ⟨.spdStat, 3, 3, .w1c, 0, []⟩
def spdStat_CFG_REJ : Fd := ⟨.spdStat, 2, 2, .w1c, 0, []⟩
def spdStat_CFG_ERR : Fd := ⟨.spdStat, 1, 1, .w1c, 0, []⟩
def spdStat_RUNNING : Fd := ⟨.spdStat, 0, 0, .ro, 0, []⟩
def spdSlipcnt_SAT : Fd := ⟨.spdSlipcnt, 31, 31, .rc, 0, []⟩
def spdSlipcnt_COUNT : Fd := ⟨.spdSlipcnt, 15, 0, .rc, 0, []⟩
def spdCs_CATEGORY : Fd := ⟨.spdCs, 15, 8, .rw, 0, []⟩
def spdCs_CPR : Fd := ⟨.spdCs, 2, 2, .rw, 0, []⟩
def spdSlot_RAMPING : Fd := ⟨.spdSlot, 31, 31, .ro, 0, []⟩
def spdSlot_PEND : Fd := ⟨.spdSlot, 30, 30, .ro, 0, []⟩
def spdSlot_RAMP : Fd := ⟨.spdSlot, 26, 16, .rw, 100, [(0, 0), (2001, 2047)]⟩
def spdSlot_SRC : Fd := ⟨.spdSlot, 5, 0, .rw, 0x3F, [(32, 62)]⟩
def dpaCfg_EN : Fd := ⟨.dpaCfg, 31, 31, .rw, 0, []⟩
def dpaCfg_D24 : Fd := ⟨.dpaCfg, 23, 23, .rw, 1, []⟩
def dpaCfg_RATE : Fd := ⟨.dpaCfg, 22, 20, .rw, 2, [(7, 7)]⟩
def dpaCfg_CH8 : Fd := ⟨.dpaCfg, 16, 16, .rw, 0, []⟩
def dpaStat_CLKLOSS : Fd := ⟨.dpaStat, 4, 4, .w1c, 0, []⟩
def dpaStat_SLIP : Fd := ⟨.dpaStat, 3, 3, .w1c, 0, []⟩
def dpaStat_CFG_REJ : Fd := ⟨.dpaStat, 2, 2, .w1c, 0, []⟩
def dpaStat_CFG_ERR : Fd := ⟨.dpaStat, 1, 1, .w1c, 0, []⟩
def dpaStat_RUNNING : Fd := ⟨.dpaStat, 0, 0, .ro, 0, []⟩
def dpaSlipcnt_SAT : Fd := ⟨.dpaSlipcnt, 31, 31, .rc, 0, []⟩
def dpaSlipcnt_COUNT : Fd := ⟨.dpaSlipcnt, 15, 0, .rc, 0, []⟩
def dpaSlot_RAMPING : Fd := ⟨.dpaSlot, 31, 31, .ro, 0, []⟩
def dpaSlot_PEND : Fd := ⟨.dpaSlot, 30, 30, .ro, 0, []⟩
def dpaSlot_RAMP : Fd := ⟨.dpaSlot, 26, 16, .rw, 100, [(0, 0), (2001, 2047)]⟩
def dpaSlot_SRC : Fd := ⟨.dpaSlot, 5, 0, .rw, 0x3F, [(32, 62)]⟩
def inCfg_EN : Fd := ⟨.inCfg, 31, 31, .rw, 0, []⟩
def inCfg_MODE : Fd := ⟨.inCfg, 29, 28, .rw, 0, [(3, 3)]⟩
def inCfg_CLKSRC : Fd := ⟨.inCfg, 27, 27, .rw, 0, []⟩
def inCfg_MCLK_EN : Fd := ⟨.inCfg, 26, 26, .rw, 0, []⟩
def inCfg_SWIDTH : Fd := ⟨.inCfg, 25, 24, .rw, 1, [(3, 3)]⟩
def inCfg_D24 : Fd := ⟨.inCfg, 23, 23, .rw, 1, []⟩
def inCfg_RATE : Fd := ⟨.inCfg, 22, 20, .rw, 2, [(7, 7)]⟩
def inCfg_SLOTSM1 : Fd := ⟨.inCfg, 19, 16, .rw, 1, []⟩
def inStat_CLKLOSS : Fd := ⟨.inStat, 4, 4, .w1c, 0, []⟩
def inStat_SLIP : Fd := ⟨.inStat, 3, 3, .w1c, 0, []⟩
def inStat_CFG_REJ : Fd := ⟨.inStat, 2, 2, .w1c, 0, []⟩
def inStat_CFG_ERR : Fd := ⟨.inStat, 1, 1, .w1c, 0, []⟩
def inStat_RUNNING : Fd := ⟨.inStat, 0, 0, .ro, 0, []⟩
def inSlipcnt_SAT : Fd := ⟨.inSlipcnt, 31, 31, .rc, 0, []⟩
def inSlipcnt_COUNT : Fd := ⟨.inSlipcnt, 15, 0, .rc, 0, []⟩
def inRate_RATE : Fd := ⟨.inRate, 31, 0, .ro, 0, []⟩
def cqCtrl_EN : Fd := ⟨.cqCtrl, 31, 31, .rw, 0, []⟩
def cqCtrl_SIZE : Fd := ⟨.cqCtrl, 20, 16, .rw, 8, [(0, 7), (27, 31)]⟩
def cqCtrl_KIND : Fd := ⟨.cqCtrl, 7, 7, .rw, 0, []⟩
def cqCtrl_SRC : Fd := ⟨.cqCtrl, 6, 0, .rw, 0, []⟩
def cqBase_BASE : Fd := ⟨.cqBase, 29, 8, .rw, 0, []⟩
def cqWptr_WPTR : Fd := ⟨.cqWptr, 25, 0, .ro, 0, []⟩
def cqRptr_RPTR : Fd := ⟨.cqRptr, 25, 0, .rw, 0, []⟩
def cqStat_SLIP : Fd := ⟨.cqStat, 0, 0, .w1c, 0, []⟩
def cqSlipcnt_SAT : Fd := ⟨.cqSlipcnt, 31, 31, .rc, 0, []⟩
def cqSlipcnt_COUNT : Fd := ⟨.cqSlipcnt, 15, 0, .rc, 0, []⟩
def vCtrl_RAMP : Fd := ⟨.vCtrl, 26, 16, .rw, 100, [(0, 0), (2001, 2047)]⟩
def vCtrl_ENDEV : Fd := ⟨.vCtrl, 15, 15, .rw, 0, []⟩
def vCtrl_FB : Fd := ⟨.vCtrl, 14, 12, .rw, 0, []⟩
def vCtrl_FBOP : Fd := ⟨.vCtrl, 9, 8, .rw, 0, []⟩
def vCtrl_STREAM : Fd := ⟨.vCtrl, 6, 6, .rw, 0, []⟩
def vCtrl_LOOP : Fd := ⟨.vCtrl, 5, 5, .rw, 0, []⟩
def vCtrl_SRC : Fd := ⟨.vCtrl, 2, 0, .rw, 0, [(6, 7)]⟩
def vAddr_ADDR : Fd := ⟨.vAddr, 29, 4, .rw, 0, []⟩
def vStart_START : Fd := ⟨.vStart, 31, 0, .rw, 0, []⟩
def vLoop_LOOP : Fd := ⟨.vLoop, 31, 0, .rw, 0, []⟩
def vEnd_END : Fd := ⟨.vEnd, 31, 0, .rw, 0, []⟩
def vStep_STEP : Fd := ⟨.vStep, 31, 0, .rw, 0x01000000, []⟩
def vEnv0_DECAY : Fd := ⟨.vEnv0, 31, 16, .rw, 0, []⟩
def vEnv0_ATTACK : Fd := ⟨.vEnv0, 15, 0, .rw, 0, []⟩
def vEnv1_RELEASE : Fd := ⟨.vEnv1, 31, 16, .rw, 0, []⟩
def vEnv1_SUSTAIN : Fd := ⟨.vEnv1, 11, 0, .rw, 0xFFF, []⟩
def vLfo_DEPTH : Fd := ⟨.vLfo, 31, 16, .rw, 0, [(1201, 65535)]⟩
def vLfo_RATE : Fd := ⟨.vLfo, 12, 0, .rw, 0, [(5001, 8191)]⟩
def vOut_RAMPING : Fd := ⟨.vOut, 31, 31, .ro, 0, []⟩
def vOut_PEND : Fd := ⟨.vOut, 30, 30, .ro, 0, []⟩
def vOut_EN : Fd := ⟨.vOut, 22, 22, .rw, 0, []⟩
def vOut_BUS : Fd := ⟨.vOut, 21, 16, .rw, 0, []⟩
def vOut_GAIN : Fd := ⟨.vOut, 15, 0, .rw, 0x1000, []⟩
def vCmd_AT : Fd := ⟨.vCmd, 2, 2, .wo, 0, []⟩
def vCmd_OP : Fd := ⟨.vCmd, 1, 0, .wo, 0, []⟩
def vAtLo_T : Fd := ⟨.vAtLo, 31, 0, .rw, 0, []⟩
def vAtHi_T : Fd := ⟨.vAtHi, 31, 0, .rw, 0, []⟩
def vWptr_WPTR : Fd := ⟨.vWptr, 25, 0, .rw, 0, []⟩
def vStat_PEND : Fd := ⟨.vStat, 13, 13, .ro, 0, []⟩
def vStat_BAD_SRC : Fd := ⟨.vStat, 12, 12, .w1c, 0, []⟩
def vStat_POISON : Fd := ⟨.vStat, 11, 11, .w1c, 0, []⟩
def vStat_ADDR_ERR : Fd := ⟨.vStat, 10, 10, .w1c, 0, []⟩
def vStat_STARVE : Fd := ⟨.vStat, 9, 9, .w1c, 0, []⟩
def vStat_LATE : Fd := ⟨.vStat, 8, 8, .w1c, 0, []⟩
def vStat_STATE : Fd := ⟨.vStat, 2, 0, .ro, 0, []⟩
def vPos_POS : Fd := ⟨.vPos, 31, 0, .ro, 0, []⟩
def vLevel_LEVEL : Fd := ⟨.vLevel, 11, 0, .ro, 0, []⟩
def vFmnet_L23 : Fd := ⟨.vFmnet, 9, 9, .rw, 0, []⟩
def vFmnet_L13 : Fd := ⟨.vFmnet, 8, 8, .rw, 0, []⟩
def vFmnet_L03 : Fd := ⟨.vFmnet, 7, 7, .rw, 0, []⟩
def vFmnet_L12 : Fd := ⟨.vFmnet, 6, 6, .rw, 0, []⟩
def vFmnet_L02 : Fd := ⟨.vFmnet, 5, 5, .rw, 0, []⟩
def vFmnet_L01 : Fd := ⟨.vFmnet, 4, 4, .rw, 0, []⟩
def vFmnet_CAR : Fd := ⟨.vFmnet, 3, 0, .rw, 8, []⟩
def vFm_RATIO : Fd := ⟨.vFm, 31, 16, .rw, 0x0100, []⟩
def vFm_LEVEL : Fd := ⟨.vFm, 15, 4, .rw, 0, []⟩
def vFm_ENVF : Fd := ⟨.vFm, 1, 1, .rw, 0, []⟩
def bltOp_FSIG : Fd := ⟨.bltOp, 24, 24, .rw, 0, []⟩
def bltOp_FENCE : Fd := ⟨.bltOp, 23, 16, .rw, 0, []⟩
def bltOp_DPM : Fd := ⟨.bltOp, 13, 13, .rw, 0, []⟩
def bltOp_SPM : Fd := ⟨.bltOp, 12, 12, .rw, 0, []⟩
def bltOp_DFMT : Fd := ⟨.bltOp, 11, 8, .rw, 0, [(7, 15)]⟩
def bltOp_SFMT : Fd := ⟨.bltOp, 7, 4, .rw, 0, [(7, 15)]⟩
def bltOp_WM_EN : Fd := ⟨.bltOp, 3, 3, .rw, 0, []⟩
def bltOp_OP : Fd := ⟨.bltOp, 1, 0, .rw, 0, [(3, 3)]⟩
def bltSbase_ADDR : Fd := ⟨.bltSbase, 29, 0, .rw, 0, []⟩
def bltSstride_STRIDE : Fd := ⟨.bltSstride, 23, 0, .rw, 0, []⟩
def bltSxy_Y : Fd := ⟨.bltSxy, 31, 16, .rw, 0, []⟩
def bltSxy_X : Fd := ⟨.bltSxy, 15, 0, .rw, 0, []⟩
def bltDbase_ADDR : Fd := ⟨.bltDbase, 29, 0, .rw, 0, []⟩
def bltDstride_STRIDE : Fd := ⟨.bltDstride, 23, 0, .rw, 0, []⟩
def bltDxy_Y : Fd := ⟨.bltDxy, 31, 16, .rw, 0, []⟩
def bltDxy_X : Fd := ⟨.bltDxy, 15, 0, .rw, 0, []⟩
def bltSize_HM1 : Fd := ⟨.bltSize, 31, 16, .rw, 0, []⟩
def bltSize_WM1 : Fd := ⟨.bltSize, 13, 0, .rw, 0, []⟩
def bltFill_VALUE : Fd := ⟨.bltFill, 31, 0, .rw, 0, []⟩
def bltPal_BANK : Fd := ⟨.bltPal, 9, 0, .rw, 0, []⟩
def bltWmark_LINE : Fd := ⟨.bltWmark, 15, 0, .rw, 0, []⟩
def bltPace_BURSTLOG : Fd := ⟨.bltPace, 19, 16, .rw, 4, [(5, 15)]⟩
def bltPace_DEAD : Fd := ⟨.bltPace, 15, 0, .rw, 0, []⟩
def bltGo_ABORT : Fd := ⟨.bltGo, 1, 1, .wo, 0, []⟩
def bltGo_GO : Fd := ⟨.bltGo, 0, 0, .wo, 0, []⟩
def bltStat_BUSY : Fd := ⟨.bltStat, 31, 31, .ro, 0, []⟩
def bltStat_QLEVEL : Fd := ⟨.bltStat, 18, 16, .ro, 0, []⟩
def bltStat_OVERLAP : Fd := ⟨.bltStat, 8, 8, .w1c, 0, []⟩
def bltStat_BAD_FMT : Fd := ⟨.bltStat, 7, 7, .w1c, 0, []⟩
def bltStat_QFULL : Fd := ⟨.bltStat, 6, 6, .w1c, 0, []⟩
def bltStat_ERR : Fd := ⟨.bltStat, 5, 5, .w1c, 0, []⟩
def bltStat_POISON : Fd := ⟨.bltStat, 4, 4, .w1c, 0, []⟩
def bltStat_ABORTED : Fd := ⟨.bltStat, 3, 3, .w1c, 0, []⟩
def bltStat_WMARK : Fd := ⟨.bltStat, 1, 1, .w1c, 0, []⟩
def bltStat_DONE : Fd := ⟨.bltStat, 0, 0, .w1c, 0, []⟩
def bltRow_VALID : Fd := ⟨.bltRow, 31, 31, .ro, 0, []⟩
def bltRow_LINE : Fd := ⟨.bltRow, 15, 0, .ro, 0, []⟩
def bltDonecnt_SAT : Fd := ⟨.bltDonecnt, 31, 31, .rc, 0, []⟩
def bltDonecnt_COUNT : Fd := ⟨.bltDonecnt, 15, 0, .rc, 0, []⟩
def dmaBell_CHAN : Fd := ⟨.dmaBell, 9, 0, .wo, 0, []⟩
def dmaStat_BUFUSE : Fd := ⟨.dmaStat, 16, 8, .ro, 0, []⟩
def dmaStat_INFLIGHT : Fd := ⟨.dmaStat, 6, 0, .ro, 0, []⟩
def dmaDone_DONE : Fd := ⟨.dmaDone, 31, 0, .w1c, 0, []⟩
def dmaErr_ERR : Fd := ⟨.dmaErr, 31, 0, .w1c, 0, []⟩
def dmaTask_EN : Fd := ⟨.dmaTask, 31, 31, .rw, 0, []⟩
def dmaTask_CHAN : Fd := ⟨.dmaTask, 9, 0, .rw, 0, []⟩
def dmacCfg_BURSTM1 : Fd := ⟨.dmacCfg, 27, 20, .rw, 0xFF, []⟩
def dmacCfg_MAXOUTM1 : Fd := ⟨.dmacCfg, 19, 16, .rw, 3, []⟩
def dmacCfg_PRIO : Fd := ⟨.dmacCfg, 13, 12, .rw, 0, []⟩
def dmacCfg_REQSRC : Fd := ⟨.dmacCfg, 9, 0, .rw, 0, [(2, 63), (209, 255), (320, 511)]⟩
def dmacHi_MARK : Fd := ⟨.dmacHi, 23, 0, .rw, 0, []⟩
def dmacLo_MARK : Fd := ⟨.dmacLo, 23, 0, .rw, 0, []⟩
def dmacDesc_ADDR : Fd := ⟨.dmacDesc, 29, 5, .rw, 0, []⟩
def dmacCmd_ABORT : Fd := ⟨.dmacCmd, 3, 3, .wo, 0, []⟩
def dmacCmd_RESUME : Fd := ⟨.dmacCmd, 2, 2, .wo, 0, []⟩
def dmacCmd_HALT : Fd := ⟨.dmacCmd, 1, 1, .wo, 0, []⟩
def dmacCmd_START : Fd := ⟨.dmacCmd, 0, 0, .wo, 0, []⟩
def dmacStat_STATE : Fd := ⟨.dmacStat, 18, 16, .ro, 0, []⟩
def dmacStat_CFG_REJ : Fd := ⟨.dmacStat, 8, 8, .w1c, 0, []⟩
def dmacStat_CFG_ERR : Fd := ⟨.dmacStat, 7, 7, .w1c, 0, []⟩
def dmacStat_DESC_POISON : Fd := ⟨.dmacStat, 6, 6, .w1c, 0, []⟩
def dmacStat_DESC_ADDR : Fd := ⟨.dmacStat, 5, 5, .w1c, 0, []⟩
def dmacStat_ERR : Fd := ⟨.dmacStat, 4, 4, .w1c, 0, []⟩
def dmacStat_POISON : Fd := ⟨.dmacStat, 3, 3, .w1c, 0, []⟩
def dmacStat_REQ : Fd := ⟨.dmacStat, 1, 1, .ro, 0, []⟩
def dmacStat_DONE : Fd := ⟨.dmacStat, 0, 0, .w1c, 0, []⟩
def dmacPos_POS : Fd := ⟨.dmacPos, 26, 0, .ro, 0, []⟩
def dmacDonecnt_SAT : Fd := ⟨.dmacDonecnt, 31, 31, .rc, 0, []⟩
def dmacDonecnt_COUNT : Fd := ⟨.dmacDonecnt, 15, 0, .rc, 0, []⟩
def coreCtrl_RESET : Fd := ⟨.coreCtrl, 3, 3, .wo, 0, []⟩
def coreCtrl_STEP : Fd := ⟨.coreCtrl, 2, 2, .wo, 0, []⟩
def coreCtrl_HALT : Fd := ⟨.coreCtrl, 1, 1, .wo, 0, []⟩
def coreCtrl_RUN : Fd := ⟨.coreCtrl, 0, 0, .wo, 0, []⟩
def coreStat_PC : Fd := ⟨.coreStat, 29, 16, .ro, 0, []⟩
def coreStat_HALT_BRK : Fd := ⟨.coreStat, 9, 9, .w1c, 0, []⟩
def coreStat_STEP_DONE : Fd := ⟨.coreStat, 8, 8, .w1c, 0, []⟩
def coreStat_STATE : Fd := ⟨.coreStat, 2, 0, .ro, 0, []⟩
def coreBrk_EN : Fd := ⟨.coreBrk, 31, 31, .rw, 0, []⟩
def coreBrk_ADDR : Fd := ⟨.coreBrk, 13, 0, .rw, 0, []⟩
def intcSrc_TARGETS : Fd := ⟨.intcSrc, 23, 16, .rw, 0, []⟩
def intcSrc_PRIO : Fd := ⟨.intcSrc, 3, 0, .rw, 0, []⟩
def intcPend_PEND : Fd := ⟨.intcPend, 31, 0, .w1c, 0, []⟩
def intcSwset_SRC : Fd := ⟨.intcSwset, 8, 0, .wo, 0, []⟩
def intcPri_PRI : Fd := ⟨.intcPri, 3, 0, .rw, 0, []⟩
def intcClaim_PREV : Fd := ⟨.intcClaim, 19, 16, .rc, 0, []⟩
def intcClaim_SRC : Fd := ⟨.intcClaim, 8, 0, .rc, 0, []⟩
def intcStat_REQ : Fd := ⟨.intcStat, 31, 31, .ro, 0, []⟩
def intcStat_ASLEEP : Fd := ⟨.intcStat, 30, 30, .ro, 0, []⟩
def intcStat_ELIG : Fd := ⟨.intcStat, 29, 29, .ro, 0, []⟩
def intcStat_NEXT : Fd := ⟨.intcStat, 8, 0, .ro, 0, []⟩
def mbxTx_DATA : Fd := ⟨.mbxTx, 31, 0, .rw, 0, []⟩
def mbxRx_DATA : Fd := ⟨.mbxRx, 31, 0, .ro, 0, []⟩
def mbxMstat_OP : Fd := ⟨.mbxMstat, 17, 17, .ro, 0, []⟩
def mbxMstat_CHAN : Fd := ⟨.mbxMstat, 16, 8, .ro, 0, []⟩
def mbxMstat_LEVEL : Fd := ⟨.mbxMstat, 6, 4, .ro, 0, []⟩
def mbxMstat_CODE : Fd := ⟨.mbxMstat, 3, 0, .ro, 0, []⟩
def mbxSend_CHAN : Fd := ⟨.mbxSend, 8, 0, .wo, 0, []⟩
def mbxRecv_CHAN : Fd := ⟨.mbxRecv, 8, 0, .wo, 0, []⟩
def mbxChCfg_EN : Fd := ⟨.mbxChCfg, 31, 31, .rw, 0, []⟩
def mbxChCfg_RXID : Fd := ⟨.mbxChCfg, 23, 16, .rw, 0, []⟩
def mbxChCfg_TIMEOUT : Fd := ⟨.mbxChCfg, 15, 0, .rw, 0, []⟩
def mbxChStat_CFG_REJ : Fd := ⟨.mbxChStat, 11, 11, .w1c, 0, []⟩
def mbxChStat_FULL : Fd := ⟨.mbxChStat, 10, 10, .w1c, 0, []⟩
def mbxChStat_DENY : Fd := ⟨.mbxChStat, 9, 9, .w1c, 0, []⟩
def mbxChStat_TMO : Fd := ⟨.mbxChStat, 8, 8, .w1c, 0, []⟩
def mbxChStat_LEVEL : Fd := ⟨.mbxChStat, 2, 0, .ro, 0, []⟩
def mbxReady_READY : Fd := ⟨.mbxReady, 31, 0, .ro, 0, []⟩
def mbxCptId_VALID : Fd := ⟨.mbxCptId, 31, 31, .lk, 0, []⟩
def mbxCptId_TXID : Fd := ⟨.mbxCptId, 15, 8, .lk, 0, []⟩
def mbxCptId_RXID : Fd := ⟨.mbxCptId, 7, 0, .lk, 0, []⟩
def mbxCptTmo_TIMEOUT : Fd := ⟨.mbxCptTmo, 15, 0, .lk, 0, []⟩
def mbxCptlock_LOCK_REJ : Fd := ⟨.mbxCptlock, 1, 1, .w1c, 0, []⟩
def mbxCptlock_LOCKED : Fd := ⟨.mbxCptlock, 0, 0, .ro, 0, []⟩
def fabCtrl_SCRUB_EN : Fd := ⟨.fabCtrl, 8, 8, .rw, 1, []⟩
def fabCtrl_SCRUBH : Fd := ⟨.fabCtrl, 7, 0, .rw, 24, [(0, 0)]⟩
def fabCethr_THR : Fd := ⟨.fabCethr, 15, 0, .rw, 64, []⟩
def fabStat_ELOG_OVF : Fd := ⟨.fabStat, 4, 4, .w1c, 0, []⟩
def fabStat_SPARE_FAIL : Fd := ⟨.fabStat, 3, 3, .w1c, 0, []⟩
def fabStat_SPARE_DONE : Fd := ⟨.fabStat, 2, 2, .w1c, 0, []⟩
def fabStat_CE_HIGH : Fd := ⟨.fabStat, 1, 1, .w1c, 0, []⟩
def fabStat_UE : Fd := ⟨.fabStat, 0, 0, .w1c, 0, []⟩
def fabElogW_W : Fd := ⟨.fabElogW, 31, 0, .ro, 0, []⟩
def fabElogLevel_SAT : Fd := ⟨.fabElogLevel, 31, 31, .rc, 0, []⟩
def fabElogLevel_OVF : Fd := ⟨.fabElogLevel, 23, 8, .rc, 0, []⟩
def fabElogLevel_LEVEL : Fd := ⟨.fabElogLevel, 4, 0, .ro, 0, []⟩
def fabElogPop_POP : Fd := ⟨.fabElogPop, 0, 0, .wo, 0, []⟩
def fabSpareCmd_GO : Fd := ⟨.fabSpareCmd, 31, 31, .wo, 0, []⟩
def fabSpareCmd_ROW : Fd := ⟨.fabSpareCmd, 27, 16, .rw, 0, []⟩
def fabSpareCmd_STORE : Fd := ⟨.fabSpareCmd, 5, 0, .rw, 0, []⟩
def fabSpareStat_BUSY : Fd := ⟨.fabSpareStat, 31, 31, .ro, 0, []⟩
def fabSpareStat_PHASE : Fd := ⟨.fabSpareStat, 29, 28, .ro, 0, []⟩
def fabSpareStat_REASON : Fd := ⟨.fabSpareStat, 27, 24, .ro, 0, []⟩
def fabSpareStat_PROGRESS : Fd := ⟨.fabSpareStat, 7, 0, .ro, 0, []⟩
def fabMap_PHYS : Fd := ⟨.fabMap, 4, 0, .ro, 0, []⟩
def fabFsrow_USED : Fd := ⟨.fabFsrow, 6, 0, .ro, 0, []⟩
def fabCe_SAT : Fd := ⟨.fabCe, 31, 31, .rc, 0, []⟩
def fabCe_COUNT : Fd := ⟨.fabCe, 15, 0, .rc, 0, []⟩
def fabUe_SAT : Fd := ⟨.fabUe, 31, 31, .rc, 0, []⟩
def fabUe_COUNT : Fd := ⟨.fabUe, 15, 0, .rc, 0, []⟩
def fabInjLo_ADDR : Fd := ⟨.fabInjLo, 31, 4, .rw, 0, []⟩
def fabInjHi_KIND : Fd := ⟨.fabInjHi, 1, 0, .rw, 0, [(3, 3)]⟩
def tbLo_T : Fd := ⟨.tbLo, 31, 0, .ro, 0, []⟩
def tbHi_T : Fd := ⟨.tbHi, 31, 0, .ro, 0, []⟩
def tbStat_WRAP : Fd := ⟨.tbStat, 4, 4, .w1c, 0, []⟩
def tbStat_REF_LOST : Fd := ⟨.tbStat, 3, 3, .w1c, 0, []⟩
def tbStat_PLL_LOCK : Fd := ⟨.tbStat, 2, 2, .ro, 0, []⟩
def tbStat_REFSRC : Fd := ⟨.tbStat, 1, 0, .ro, 0, []⟩
def cmpCtrl_DISARM : Fd := ⟨.cmpCtrl, 31, 31, .wo, 0, []⟩
def cmpCtrl_ACT : Fd := ⟨.cmpCtrl, 9, 8, .rw, 0, []⟩
def cmpCtrl_PAIR : Fd := ⟨.cmpCtrl, 4, 4, .rw, 0, []⟩
def cmpValLo_V : Fd := ⟨.cmpValLo, 31, 0, .rw, 0, []⟩
def cmpValHi_V : Fd := ⟨.cmpValHi, 31, 0, .rw, 0, []⟩
def cmpPeriod_PERIOD : Fd := ⟨.cmpPeriod, 31, 0, .rw, 0, [(1, 3)]⟩
def cmpStat_ARMED : Fd := ⟨.cmpStat, 3, 3, .ro, 0, []⟩
def cmpStat_OUT : Fd := ⟨.cmpStat, 2, 2, .ro, 0, []⟩
def cmpStat_LATE : Fd := ⟨.cmpStat, 1, 1, .w1c, 0, []⟩
def cmpStat_FIRED : Fd := ⟨.cmpStat, 0, 0, .w1c, 0, []⟩
def timLatewin_WIN : Fd := ⟨.timLatewin, 31, 0, .rw, 0x80000000, []⟩
def timFired_FIRED : Fd := ⟨.timFired, 31, 0, .w1c, 0, []⟩
def intCtrl_PRE : Fd := ⟨.intCtrl, 20, 16, .rw, 0, [(16, 31)]⟩
def intCtrl_TASKACT : Fd := ⟨.intCtrl, 2, 2, .rw, 0, []⟩
def intCtrl_MODE : Fd := ⟨.intCtrl, 1, 1, .rw, 0, []⟩
def intReload_RELOAD : Fd := ⟨.intReload, 31, 0, .rw, 0, []⟩
def intCount_COUNT : Fd := ⟨.intCount, 31, 0, .ro, 0, []⟩
def intCmd_LOAD : Fd := ⟨.intCmd, 3, 3, .wo, 0, []⟩
def intCmd_STOP : Fd := ⟨.intCmd, 2, 2, .wo, 0, []⟩
def intCmd_CONT : Fd := ⟨.intCmd, 1, 1, .wo, 0, []⟩
def intCmd_START : Fd := ⟨.intCmd, 0, 0, .wo, 0, []⟩
def intStat_RUNNING : Fd := ⟨.intStat, 2, 2, .ro, 0, []⟩
def intStat_CFG_ERR : Fd := ⟨.intStat, 1, 1, .w1c, 0, []⟩
def intStat_ZERO : Fd := ⟨.intStat, 0, 0, .w1c, 0, []⟩
def capCtrl_EN : Fd := ⟨.capCtrl, 31, 31, .rw, 0, []⟩
def capCtrl_KIND : Fd := ⟨.capCtrl, 30, 30, .rw, 0, []⟩
def capCtrl_EDGE : Fd := ⟨.capCtrl, 29, 28, .rw, 1, [(0, 0)]⟩
def capCtrl_BIND : Fd := ⟨.capCtrl, 27, 27, .rw, 0, []⟩
def capCtrl_HEAD : Fd := ⟨.capCtrl, 26, 24, .rw, 0, []⟩
def capCtrl_FILT : Fd := ⟨.capCtrl, 23, 16, .rw, 0, []⟩
def capCtrl_PORT : Fd := ⟨.capCtrl, 9, 0, .rw, 0, []⟩
def capOffs_OFFS : Fd := ⟨.capOffs, 23, 0, .rw, 0, []⟩
def capLo_T : Fd := ⟨.capLo, 31, 0, .ro, 0, []⟩
def capHi_T : Fd := ⟨.capHi, 31, 0, .ro, 0, []⟩
def capStatus_SEQ : Fd := ⟨.capStatus, 15, 8, .ro, 0, []⟩
def capStatus_OOR : Fd := ⟨.capStatus, 2, 2, .ro, 0, []⟩
def capStatus_OVR : Fd := ⟨.capStatus, 1, 1, .ro, 0, []⟩
def capStatus_NEW : Fd := ⟨.capStatus, 0, 0, .ro, 0, []⟩
def capPos_BLANK : Fd := ⟨.capPos, 31, 31, .ro, 0, []⟩
def capPos_X : Fd := ⟨.capPos, 29, 16, .ro, 0, []⟩
def capPos_Y : Fd := ⟨.capPos, 12, 0, .ro, 0, []⟩
def capPfrm_FRAME : Fd := ⟨.capPfrm, 31, 0, .ro, 0, []⟩
def capNew_NEW : Fd := ⟨.capNew, 31, 0, .ro, 0, []⟩
def adcCtrl_EN : Fd := ⟨.adcCtrl, 31, 31, .rw, 0, []⟩
def adcCtrl_TRIG : Fd := ⟨.adcCtrl, 17, 16, .rw, 0, [(3, 3)]⟩
def adcCtrl_LENM1 : Fd := ⟨.adcCtrl, 3, 0, .rw, 0, []⟩
def adcSeq_CH : Fd := ⟨.adcSeq, 31, 0, .rw, 0, []⟩
def adcCmd_STOP : Fd := ⟨.adcCmd, 1, 1, .wo, 0, []⟩
def adcCmd_START : Fd := ⟨.adcCmd, 0, 0, .wo, 0, []⟩
def adcFifo_WORD : Fd := ⟨.adcFifo, 31, 0, .ro, 0, []⟩
def adcLevel_LEVEL : Fd := ⟨.adcLevel, 5, 0, .ro, 0, []⟩
def adcWin_HI : Fd := ⟨.adcWin, 27, 16, .rw, 0xFFF, []⟩
def adcWin_LO : Fd := ⟨.adcWin, 11, 0, .rw, 0, []⟩
def adcWinen_EN : Fd := ⟨.adcWinen, 15, 0, .rw, 0, []⟩
def adcStat_NOTANA : Fd := ⟨.adcStat, 5, 5, .w1c, 0, []⟩
def adcStat_TRIG_LOST : Fd := ⟨.adcStat, 4, 4, .w1c, 0, []⟩
def adcStat_LIMIT : Fd := ⟨.adcStat, 3, 3, .w1c, 0, []⟩
def adcStat_OVR : Fd := ⟨.adcStat, 2, 2, .w1c, 0, []⟩
def adcStat_READY : Fd := ⟨.adcStat, 1, 1, .ro, 0, []⟩
def adcStat_BUSY : Fd := ⟨.adcStat, 0, 0, .ro, 0, []⟩
def adcOvrcnt_SAT : Fd := ⟨.adcOvrcnt, 31, 31, .rc, 0, []⟩
def adcOvrcnt_COUNT : Fd := ⟨.adcOvrcnt, 15, 0, .rc, 0, []⟩
def adcSstampLo_T : Fd := ⟨.adcSstampLo, 31, 0, .ro, 0, []⟩
def adcSstampHi_T : Fd := ⟨.adcSstampHi, 31, 0, .ro, 0, []⟩
def adcFifomark_MARK : Fd := ⟨.adcFifomark, 5, 0, .rw, 16, [(0, 0), (33, 63)]⟩
def evfTask_EN : Fd := ⟨.evfTask, 31, 31, .rw, 0, []⟩
def evfTask_COUNT : Fd := ⟨.evfTask, 30, 30, .rw, 0, []⟩
def evfTask_GATE : Fd := ⟨.evfTask, 29, 29, .rw, 0, []⟩
def evfTask_GINV : Fd := ⟨.evfTask, 28, 28, .rw, 0, []⟩
def evfTask_GFLAG : Fd := ⟨.evfTask, 20, 16, .rw, 0, []⟩
def evfTask_SRC : Fd := ⟨.evfTask, 8, 0, .rw, 0x1FF, [(384, 510)]⟩
def evfTstat_SAT : Fd := ⟨.evfTstat, 31, 31, .rc, 0, []⟩
def evfTstat_PEND : Fd := ⟨.evfTstat, 23, 16, .ro, 0, []⟩
def evfTstat_MERGE : Fd := ⟨.evfTstat, 15, 0, .rc, 0, []⟩
def evfFlag_VAL : Fd := ⟨.evfFlag, 31, 31, .rw, 0, []⟩
def evfFlag_CLRSRC : Fd := ⟨.evfFlag, 24, 16, .rw, 0x1FF, []⟩
def evfFlag_SETSRC : Fd := ⟨.evfFlag, 8, 0, .rw, 0x1FF, []⟩
def evfSwtrig_TASK : Fd := ⟨.evfSwtrig, 8, 0, .wo, 0, []⟩
def evfSwprod_ANY : Fd := ⟨.evfSwprod, 31, 0, .wo, 0, []⟩
def evfCfg_HOPMAX : Fd := ⟨.evfCfg, 2, 0, .rw, 4, [(0, 0)]⟩
def evfStat_LASTSRC : Fd := ⟨.evfStat, 24, 16, .ro, 0, []⟩
def evfStat_LOOP : Fd := ⟨.evfStat, 0, 0, .w1c, 0, []⟩
def evfLoopcnt_SAT : Fd := ⟨.evfLoopcnt, 31, 31, .rc, 0, []⟩
def evfLoopcnt_COUNT : Fd := ⟨.evfLoopcnt, 15, 0, .rc, 0, []⟩
def pinCfg_WAKEPOL : Fd := ⟨.pinCfg, 15, 15, .lk, 0, []⟩
def pinCfg_WAKE : Fd := ⟨.pinCfg, 14, 14, .lk, 0, []⟩
def pinCfg_PARK : Fd := ⟨.pinCfg, 13, 12, .lk, 0, [(3, 3)]⟩
def pinCfg_DRIVE : Fd := ⟨.pinCfg, 11, 10, .lk, 1, []⟩
def pinCfg_SLOW : Fd := ⟨.pinCfg, 9, 9, .lk, 0, []⟩
def pinCfg_TTL : Fd := ⟨.pinCfg, 8, 8, .lk, 0, []⟩
def pinCfg_OD : Fd := ⟨.pinCfg, 7, 7, .lk, 0, []⟩
def pinCfg_PULL : Fd := ⟨.pinCfg, 5, 4, .lk, 0, [(3, 3)]⟩
def pinCfg_FUNC : Fd := ⟨.pinCfg, 3, 0, .lk, 0, []⟩
def pinData_DATA : Fd := ⟨.pinData, 31, 0, .rw, 0, []⟩
def pinOe_OE : Fd := ⟨.pinOe, 31, 0, .rw, 0, []⟩
def pinIn_IN : Fd := ⟨.pinIn, 31, 0, .ro, 0, []⟩
def pinSet_SET : Fd := ⟨.pinSet, 31, 0, .wo, 0, []⟩
def pinClr_CLR : Fd := ⟨.pinClr, 31, 0, .wo, 0, []⟩
def pinTgl_TGL : Fd := ⟨.pinTgl, 31, 0, .wo, 0, []⟩
def pinLocked_LOCKED : Fd := ⟨.pinLocked, 31, 0, .ro, 0, []⟩
def pinLockrej_REJ : Fd := ⟨.pinLockrej, 31, 0, .w1c, 0, []⟩
def pinBank_VIO_ERR : Fd := ⟨.pinBank, 2, 2, .w1c, 0, []⟩
def pinBank_VIO_OK : Fd := ⟨.pinBank, 1, 1, .ro, 0, []⟩
def pinBank_VSEL : Fd := ⟨.pinBank, 0, 0, .lk, 0, []⟩
def pinLockkey_KEY : Fd := ⟨.pinLockkey, 31, 16, .wo, 0, []⟩
def pinLockkey_PORT : Fd := ⟨.pinLockkey, 9, 0, .wo, 0, []⟩
def pinStat_VIO : Fd := ⟨.pinStat, 2, 2, .ro, 0, []⟩
def pinStat_LOCK_SEQERR : Fd := ⟨.pinStat, 1, 1, .w1c, 0, []⟩
def pinStat_PARKED : Fd := ⟨.pinStat, 0, 0, .ro, 1, []⟩
def pinUnpark_GO : Fd := ⟨.pinUnpark, 0, 0, .wo, 0, []⟩
def pinEv_EN : Fd := ⟨.pinEv, 31, 31, .rw, 0, []⟩
def pinEv_EDGE : Fd := ⟨.pinEv, 29, 28, .rw, 1, [(0, 0)]⟩
def pinEv_FILT : Fd := ⟨.pinEv, 23, 16, .rw, 0, []⟩
def pinEv_PORT : Fd := ⟨.pinEv, 9, 0, .rw, 0, []⟩
def uartCfg_EN : Fd := ⟨.uartCfg, 31, 31, .rw, 0, []⟩
def uartCfg_RTSCTS : Fd := ⟨.uartCfg, 8, 8, .rw, 0, []⟩
def uartCfg_PARITY : Fd := ⟨.uartCfg, 7, 6, .rw, 0, [(3, 3)]⟩
def uartCfg_STOP2 : Fd := ⟨.uartCfg, 5, 5, .rw, 0, []⟩
def uartCfg_D7 : Fd := ⟨.uartCfg, 4, 4, .rw, 0, []⟩
def uartDiv_DIV : Fd := ⟨.uartDiv, 23, 0, .rw, 0x21E88E, [(0, 25599)]⟩
def uartData_DATA : Fd := ⟨.uartData, 31, 0, .rw, 0, []⟩
def uartStat_TXLVL : Fd := ⟨.uartStat, 31, 28, .ro, 0, []⟩
def uartStat_RXLVL : Fd := ⟨.uartStat, 27, 24, .ro, 0, []⟩
def uartStat_BUSY : Fd := ⟨.uartStat, 7, 7, .ro, 0, []⟩
def uartStat_TXOVR : Fd := ⟨.uartStat, 6, 6, .w1c, 0, []⟩
def uartStat_RXOVR : Fd := ⟨.uartStat, 5, 5, .w1c, 0, []⟩
def uartStat_UNDER : Fd := ⟨.uartStat, 4, 4, .w1c, 0, []⟩
def uartStat_NACK : Fd := ⟨.uartStat, 3, 3, .w1c, 0, []⟩
def uartStat_ARB : Fd := ⟨.uartStat, 2, 2, .w1c, 0, []⟩
def uartStat_FRAME : Fd := ⟨.uartStat, 1, 1, .w1c, 0, []⟩
def spiCfg_EN : Fd := ⟨.spiCfg, 31, 31, .rw, 0, []⟩
def spiCfg_TARGET : Fd := ⟨.spiCfg, 30, 30, .rw, 0, []⟩
def spiCfg_WIDTH : Fd := ⟨.spiCfg, 9, 8, .rw, 0, [(3, 3)]⟩
def spiCfg_LSBF : Fd := ⟨.spiCfg, 7, 7, .rw, 0, []⟩
def spiCfg_CPOL : Fd := ⟨.spiCfg, 6, 6, .rw, 0, []⟩
def spiCfg_CPHA : Fd := ⟨.spiCfg, 5, 5, .rw, 0, []⟩
def spiCfg_CS : Fd := ⟨.spiCfg, 2, 0, .rw, 0, [(5, 7)]⟩
def spiDiv_HALF : Fd := ⟨.spiDiv, 15, 0, .rw, 10, [(0, 9)]⟩
def spiData_DATA : Fd := ⟨.spiData, 31, 0, .rw, 0, []⟩
def spiStat_TXLVL : Fd := ⟨.spiStat, 31, 28, .ro, 0, []⟩
def spiStat_RXLVL : Fd := ⟨.spiStat, 27, 24, .ro, 0, []⟩
def spiStat_BUSY : Fd := ⟨.spiStat, 7, 7, .ro, 0, []⟩
def spiStat_TXOVR : Fd := ⟨.spiStat, 6, 6, .w1c, 0, []⟩
def spiStat_RXOVR : Fd := ⟨.spiStat, 5, 5, .w1c, 0, []⟩
def spiStat_UNDER : Fd := ⟨.spiStat, 4, 4, .w1c, 0, []⟩
def spiStat_NACK : Fd := ⟨.spiStat, 3, 3, .w1c, 0, []⟩
def spiStat_ARB : Fd := ⟨.spiStat, 2, 2, .w1c, 0, []⟩
def spiStat_FRAME : Fd := ⟨.spiStat, 1, 1, .w1c, 0, []⟩
def i2cCfg_EN : Fd := ⟨.i2cCfg, 31, 31, .rw, 0, []⟩
def i2cCfg_TARGET : Fd := ⟨.i2cCfg, 30, 30, .rw, 0, []⟩
def i2cCfg_FAST : Fd := ⟨.i2cCfg, 8, 8, .rw, 0, []⟩
def i2cCfg_ADDR : Fd := ⟨.i2cCfg, 6, 0, .rw, 0, []⟩
def i2cData_DATA : Fd := ⟨.i2cData, 31, 0, .rw, 0, []⟩
def i2cStat_TXLVL : Fd := ⟨.i2cStat, 31, 28, .ro, 0, []⟩
def i2cStat_RXLVL : Fd := ⟨.i2cStat, 27, 24, .ro, 0, []⟩
def i2cStat_BUSY : Fd := ⟨.i2cStat, 7, 7, .ro, 0, []⟩
def i2cStat_TXOVR : Fd := ⟨.i2cStat, 6, 6, .w1c, 0, []⟩
def i2cStat_RXOVR : Fd := ⟨.i2cStat, 5, 5, .w1c, 0, []⟩
def i2cStat_UNDER : Fd := ⟨.i2cStat, 4, 4, .w1c, 0, []⟩
def i2cStat_NACK : Fd := ⟨.i2cStat, 3, 3, .w1c, 0, []⟩
def i2cStat_ARB : Fd := ⟨.i2cStat, 2, 2, .w1c, 0, []⟩
def i2cStat_FRAME : Fd := ⟨.i2cStat, 1, 1, .w1c, 0, []⟩
def psqCtrl_EN : Fd := ⟨.psqCtrl, 31, 31, .rw, 0, []⟩
def psqCtrl_SHDIR : Fd := ⟨.psqCtrl, 8, 8, .rw, 0, []⟩
def psqCtrl_ENTRY : Fd := ⟨.psqCtrl, 6, 0, .rw, 0, []⟩
def psqGroup_COUNTM1 : Fd := ⟨.psqGroup, 20, 16, .rw, 0, []⟩
def psqGroup_BASE : Fd := ⟨.psqGroup, 9, 0, .rw, 0, []⟩
def psqCmd_FLUSH : Fd := ⟨.psqCmd, 3, 3, .wo, 0, []⟩
def psqCmd_RESUME : Fd := ⟨.psqCmd, 2, 2, .wo, 0, []⟩
def psqCmd_HALT : Fd := ⟨.psqCmd, 1, 1, .wo, 0, []⟩
def psqCmd_RESTART : Fd := ⟨.psqCmd, 0, 0, .wo, 0, []⟩
def psqStat_TASKPEND : Fd := ⟨.psqStat, 24, 24, .ro, 0, []⟩
def psqStat_BAD_INST : Fd := ⟨.psqStat, 22, 22, .w1c, 0, []⟩
def psqStat_CFG_ERR : Fd := ⟨.psqStat, 21, 21, .w1c, 0, []⟩
def psqStat_PROG_REJ : Fd := ⟨.psqStat, 20, 20, .w1c, 0, []⟩
def psqStat_LATE : Fd := ⟨.psqStat, 19, 19, .w1c, 0, []⟩
def psqStat_OVERRUN : Fd := ⟨.psqStat, 18, 18, .w1c, 0, []⟩
def psqStat_UNDERRUN : Fd := ⟨.psqStat, 17, 17, .w1c, 0, []⟩
def psqStat_PC : Fd := ⟨.psqStat, 14, 8, .ro, 0, []⟩
def psqStat_STATE : Fd := ⟨.psqStat, 1, 0, .ro, 0, []⟩
def psqSr_SR : Fd := ⟨.psqSr, 31, 0, .rw, 0, []⟩
def psqSc_SC : Fd := ⟨.psqSc, 5, 0, .ro, 0, []⟩
def psqDr_DR : Fd := ⟨.psqDr, 31, 0, .rw, 0, []⟩
def psqLc_LC : Fd := ⟨.psqLc, 15, 0, .rw, 0, []⟩
def psqTrLo_TR : Fd := ⟨.psqTrLo, 31, 0, .ro, 0, []⟩
def psqTrHi_TR : Fd := ⟨.psqTrHi, 31, 0, .ro, 0, []⟩
def psqCapLo_CAP : Fd := ⟨.psqCapLo, 31, 0, .ro, 0, []⟩
def psqCapHi_CAP : Fd := ⟨.psqCapHi, 31, 0, .ro, 0, []⟩
def psqOutv_OUTV : Fd := ⟨.psqOutv, 31, 0, .ro, 0, []⟩
def psqOev_OEV : Fd := ⟨.psqOev, 31, 0, .ro, 0, []⟩
def psqLevel_TXFREE : Fd := ⟨.psqLevel, 11, 8, .ro, 8, []⟩
def psqLevel_RXHELD : Fd := ⟨.psqLevel, 3, 0, .ro, 0, []⟩
def psqIdle_IDLE : Fd := ⟨.psqIdle, 31, 0, .rw, 0, []⟩
def psqTxf_DATA : Fd := ⟨.psqTxf, 31, 0, .wo, 0, []⟩
def psqRxf_DATA : Fd := ⟨.psqRxf, 31, 0, .ro, 0, []⟩
def psqProg_INST : Fd := ⟨.psqProg, 31, 0, .rw, 0, []⟩
def lnkCfg_ROLE : Fd := ⟨.lnkCfg, 31, 30, .ro, 0, []⟩
def lnkCfg_TOPO : Fd := ⟨.lnkCfg, 29, 28, .ro, 0, []⟩
def lnkCfg_WM1 : Fd := ⟨.lnkCfg, 25, 16, .ro, 0, []⟩
def lnkCfg_HM1 : Fd := ⟨.lnkCfg, 14, 10, .ro, 0, []⟩
def lnkCfg_ROOT : Fd := ⟨.lnkCfg, 9, 0, .ro, 0, []⟩
def lnkBcast_BCEN : Fd := ⟨.lnkBcast, 31, 31, .lk, 0, []⟩
def lnkBcast_BCSELF : Fd := ⟨.lnkBcast, 16, 16, .lk, 0, []⟩
def lnkBcast_BCCHIP : Fd := ⟨.lnkBcast, 9, 0, .lk, 1023, []⟩
def lnkStat_REROUTE : Fd := ⟨.lnkStat, 7, 7, .w1c, 0, []⟩
def lnkStat_AHEAD : Fd := ⟨.lnkStat, 6, 6, .w1c, 0, []⟩
def lnkStat_ALIGN_LOST : Fd := ⟨.lnkStat, 5, 5, .w1c, 0, []⟩
def lnkStat_FORM_TMO : Fd := ⟨.lnkStat, 4, 4, .w1c, 0, []⟩
def lnkStat_ALIGNED : Fd := ⟨.lnkStat, 2, 2, .ro, 0, []⟩
def lnkStat_FORMED : Fd := ⟨.lnkStat, 1, 1, .ro, 0, []⟩
def lnkTerr_THETA : Fd := ⟨.lnkTerr, 31, 0, .ro, 0, []⟩
def lnkParent_VALID : Fd := ⟨.lnkParent, 31, 31, .ro, 0, []⟩
def lnkParent_LINK : Fd := ⟨.lnkParent, 30, 28, .ro, 0, []⟩
def lnkParent_HOPS : Fd := ⟨.lnkParent, 25, 16, .ro, 0, []⟩
def lnkParent_CHIP : Fd := ⟨.lnkParent, 9, 0, .ro, 0, []⟩
def lnkFormtmo_MS : Fd := ⟨.lnkFormtmo, 15, 0, .ro, 0, []⟩
def lnkRoute_VALID : Fd := ⟨.lnkRoute, 31, 31, .ro, 0, []⟩
def lnkRoute_LINK : Fd := ⟨.lnkRoute, 2, 0, .ro, 0, []⟩
def lnklCtrl_EN : Fd := ⟨.lnklCtrl, 31, 31, .rw, 0, []⟩
def lnklCtrl_RETRAIN : Fd := ⟨.lnklCtrl, 30, 30, .wo, 0, []⟩
def lnklCtrl_SPARE_EN : Fd := ⟨.lnklCtrl, 29, 29, .rw, 1, []⟩
def lnklCtrl_RETRYMAX : Fd := ⟨.lnklCtrl, 11, 8, .rw, 8, [(0, 0)]⟩
def lnklCtrl_LANETHR : Fd := ⟨.lnklCtrl, 7, 0, .rw, 16, []⟩
def lnklStat_STATE : Fd := ⟨.lnklStat, 31, 29, .ro, 0, []⟩
def lnklStat_WIDTH : Fd := ⟨.lnklStat, 26, 24, .ro, 0, []⟩
def lnklStat_LANES : Fd := ⟨.lnklStat, 20, 16, .ro, 0, []⟩
def lnklStat_PEER_ERR : Fd := ⟨.lnklStat, 7, 7, .w1c, 0, []⟩
def lnklStat_WIDTH_DN : Fd := ⟨.lnklStat, 6, 6, .w1c, 0, []⟩
def lnklStat_SPARED : Fd := ⟨.lnklStat, 5, 5, .w1c, 0, []⟩
def lnklStat_DOWN : Fd := ⟨.lnklStat, 4, 4, .w1c, 0, []⟩
def lnklStat_RETRAINED : Fd := ⟨.lnklStat, 3, 3, .w1c, 0, []⟩
def lnklStat_RETRY : Fd := ⟨.lnklStat, 2, 2, .w1c, 0, []⟩
def lnklStat_CRC : Fd := ⟨.lnklStat, 1, 1, .w1c, 0, []⟩
def lnklPeer_VALID : Fd := ⟨.lnklPeer, 31, 31, .ro, 0, []⟩
def lnklPeer_CHIP : Fd := ⟨.lnklPeer, 9, 0, .ro, 0, []⟩
def lnklDelay_DELAY : Fd := ⟨.lnklDelay, 31, 0, .ro, 0, []⟩
def lnklAsym_ASYM : Fd := ⟨.lnklAsym, 31, 0, .rw, 0, []⟩
def lnklRetrycnt_SAT : Fd := ⟨.lnklRetrycnt, 31, 31, .rc, 0, []⟩
def lnklRetrycnt_COUNT : Fd := ⟨.lnklRetrycnt, 15, 0, .rc, 0, []⟩
def lnklCrccnt_SAT : Fd := ⟨.lnklCrccnt, 31, 31, .rc, 0, []⟩
def lnklCrccnt_COUNT : Fd := ⟨.lnklCrccnt, 15, 0, .rc, 0, []⟩
def sysRstcause_PERST : Fd := ⟨.sysRstcause, 6, 6, .w1c, 0, []⟩
def sysRstcause_FOOT : Fd := ⟨.sysRstcause, 5, 5, .w1c, 0, []⟩
def sysRstcause_WDOG : Fd := ⟨.sysRstcause, 4, 4, .w1c, 0, []⟩
def sysRstcause_KEYSTONE : Fd := ⟨.sysRstcause, 3, 3, .w1c, 0, []⟩
def sysRstcause_COLD : Fd := ⟨.sysRstcause, 2, 2, .w1c, 0, []⟩
def sysRstcause_BALL : Fd := ⟨.sysRstcause, 1, 1, .w1c, 0, []⟩
def sysRstcause_POR : Fd := ⟨.sysRstcause, 0, 0, .w1c, 1, []⟩
def sysReset_KEY : Fd := ⟨.sysReset, 31, 16, .wo, 0, []⟩
def sysReset_KIND : Fd := ⟨.sysReset, 1, 0, .wo, 0, []⟩
def sysPark_GO : Fd := ⟨.sysPark, 0, 0, .wo, 0, []⟩
def sysBoot_STATE : Fd := ⟨.sysBoot, 31, 28, .ro, 0, []⟩
def sysBoot_FALLBACK : Fd := ⟨.sysBoot, 9, 9, .ro, 0, []⟩
def sysBoot_LEDGER_BAD : Fd := ⟨.sysBoot, 8, 8, .ro, 0, []⟩
def sysBoot_COPY : Fd := ⟨.sysBoot, 5, 4, .ro, 3, []⟩
def sysBooterr_REASON1 : Fd := ⟨.sysBooterr, 7, 4, .ro, 0, []⟩
def sysBooterr_REASON0 : Fd := ⟨.sysBooterr, 3, 0, .ro, 0, []⟩
def sysWdogCtrl_EN : Fd := ⟨.sysWdogCtrl, 31, 31, .ro, 0, []⟩
def sysWdogCtrl_TIMEOUT : Fd := ⟨.sysWdogCtrl, 23, 0, .ro, 0, []⟩
def sysWdogKick_KEY : Fd := ⟨.sysWdogKick, 15, 0, .wo, 0, []⟩
def sysWdogStat_KICK_ERR : Fd := ⟨.sysWdogStat, 31, 31, .w1c, 0, []⟩
def sysWdogStat_LEFT : Fd := ⟨.sysWdogStat, 23, 0, .ro, 0, []⟩
def sysSupply_STORE_ZERO : Fd := ⟨.sysSupply, 16, 16, .w1c, 0, []⟩
def sysSupply_LOST_VDAC : Fd := ⟨.sysSupply, 12, 12, .w1c, 0, []⟩
def sysSupply_LOST_VSER12 : Fd := ⟨.sysSupply, 11, 11, .w1c, 0, []⟩
def sysSupply_LOST_VSER09 : Fd := ⟨.sysSupply, 10, 10, .w1c, 0, []⟩
def sysSupply_LOST_VMEM : Fd := ⟨.sysSupply, 9, 9, .w1c, 0, []⟩
def sysSupply_LOST_VCORE : Fd := ⟨.sysSupply, 8, 8, .w1c, 0, []⟩
def sysSupply_VDAC_OK : Fd := ⟨.sysSupply, 4, 4, .ro, 0, []⟩
def sysSupply_VSER12_OK : Fd := ⟨.sysSupply, 3, 3, .ro, 0, []⟩
def sysSupply_VSER09_OK : Fd := ⟨.sysSupply, 2, 2, .ro, 0, []⟩
def sysSupply_VMEM_OK : Fd := ⟨.sysSupply, 1, 1, .ro, 0, []⟩
def sysSupply_VCORE_OK : Fd := ⟨.sysSupply, 0, 0, .ro, 0, []⟩
def hstBfAddr_ADDR : Fd := ⟨.hstBfAddr, 27, 0, .rw, 0, []⟩
def hstBfCmd_CMD : Fd := ⟨.hstBfCmd, 3, 0, .wo, 0, []⟩
def hstBfStat_BUSY : Fd := ⟨.hstBfStat, 31, 31, .ro, 0, []⟩
def hstBfStat_FAIL : Fd := ⟨.hstBfStat, 3, 3, .w1c, 0, []⟩
def hstBfStat_BUSY_REJ : Fd := ⟨.hstBfStat, 2, 2, .w1c, 0, []⟩
def hstBfStat_DENY : Fd := ⟨.hstBfStat, 1, 1, .w1c, 0, []⟩
def hstBfStat_DONE : Fd := ⟨.hstBfStat, 0, 0, .w1c, 0, []⟩
def hstBfBuf_DATA : Fd := ⟨.hstBfBuf, 31, 0, .rw, 0, []⟩
def hstId_PART : Fd := ⟨.hstId, 31, 16, .ro, 0x6816, []⟩
def hstId_STEP : Fd := ⟨.hstId, 15, 8, .ro, 0xA1, []⟩
def hstChip_OVR : Fd := ⟨.hstChip, 15, 15, .ro, 0, []⟩
def hstChip_CHIP : Fd := ⟨.hstChip, 9, 0, .ro, 0, []⟩
def hstDigest_D : Fd := ⟨.hstDigest, 31, 0, .ro, 0, []⟩
def hstObcfg_OBEN : Fd := ⟨.hstObcfg, 31, 31, .rw, 0, []⟩
def hstObcfg_OBCHIP : Fd := ⟨.hstObcfg, 9, 0, .rw, 1022, []⟩
def hstWinchip_CHIP : Fd := ⟨.hstWinchip, 9, 0, .rw, 0, []⟩
def hstObwinLo_ADDR : Fd := ⟨.hstObwinLo, 31, 24, .rw, 0, []⟩
def hstObwinLo_EN : Fd := ⟨.hstObwinLo, 0, 0, .rw, 0, []⟩
def hstObwinHi_ADDR : Fd := ⟨.hstObwinHi, 31, 0, .rw, 0, []⟩
def hstF0vec_EN : Fd := ⟨.hstF0vec, 31, 31, .rw, 0, []⟩
def hstF0vec_SRC : Fd := ⟨.hstF0vec, 8, 0, .rw, 0, []⟩
def hstF1vec_EN : Fd := ⟨.hstF1vec, 31, 31, .rw, 0, []⟩
def hstF1vec_SRC : Fd := ⟨.hstF1vec, 8, 0, .rw, 0, []⟩
def hstLtol_EN : Fd := ⟨.hstLtol, 31, 31, .rw, 0, []⟩
def hstLtol_US : Fd := ⟨.hstLtol, 23, 0, .rw, 0, []⟩
def psmCtrl_AUTO : Fd := ⟨.psmCtrl, 31, 31, .rw, 1, []⟩
def psmCtrl_REARM : Fd := ⟨.psmCtrl, 30, 30, .wo, 0, []⟩
def psmCtrl_MAXSTATE : Fd := ⟨.psmCtrl, 26, 24, .rw, 0, [(5, 7)]⟩
def psmCtrl_ENTRY_DLY : Fd := ⟨.psmCtrl, 23, 16, .rw, 20, [(0, 0)]⟩
def psmCtrl_GATE_DLY : Fd := ⟨.psmCtrl, 15, 8, .rw, 10, []⟩
def psmStat_SUSP : Fd := ⟨.psmStat, 31, 31, .ro, 0, []⟩
def psmStat_THERM_TRIP : Fd := ⟨.psmStat, 11, 11, .w1c, 0, []⟩
def psmStat_THERM_HI : Fd := ⟨.psmStat, 10, 10, .w1c, 0, []⟩
def psmStat_PACE_LOW : Fd := ⟨.psmStat, 9, 9, .w1c, 0, []⟩
def psmStat_PMB_ERR : Fd := ⟨.psmStat, 8, 8, .w1c, 0, []⟩
def psmStat_ENTRY_ABORT : Fd := ⟨.psmStat, 7, 7, .w1c, 0, []⟩
def psmStat_TARGET : Fd := ⟨.psmStat, 6, 4, .ro, 0, []⟩
def psmStat_STATE : Fd := ⟨.psmStat, 2, 0, .ro, 0, []⟩
def psmBlock_BLOCK : Fd := ⟨.psmBlock, 12, 0, .ro, 0, []⟩
def psmWake_GO : Fd := ⟨.psmWake, 0, 0, .wo, 0, []⟩
def psmWakecause_PORT : Fd := ⟨.psmWakecause, 25, 16, .ro, 0, []⟩
def psmWakecause_CAUSE : Fd := ⟨.psmWakecause, 4, 0, .w1c, 0, []⟩
def psmWaketLo_T : Fd := ⟨.psmWaketLo, 31, 0, .ro, 0, []⟩
def psmWaketHi_T : Fd := ⟨.psmWaketHi, 31, 0, .ro, 0, []⟩
def psmLtolEff_NONE : Fd := ⟨.psmLtolEff, 31, 31, .ro, 1, []⟩
def psmLtolEff_US : Fd := ⟨.psmLtolEff, 23, 0, .ro, 0, []⟩
def psmCoreLtol_EN : Fd := ⟨.psmCoreLtol, 31, 31, .rw, 0, []⟩
def psmCoreLtol_US : Fd := ⟨.psmCoreLtol, 23, 0, .rw, 0, []⟩
def psmLtolch_EN : Fd := ⟨.psmLtolch, 31, 31, .rw, 0, []⟩
def psmLtolch_CHAN : Fd := ⟨.psmLtolch, 8, 0, .rw, 0, []⟩
def psmMbxltol_VALID : Fd := ⟨.psmMbxltol, 31, 31, .ro, 0, []⟩
def psmMbxltol_US : Fd := ⟨.psmMbxltol, 23, 0, .ro, 0, []⟩
def psmAlarmLo_T : Fd := ⟨.psmAlarmLo, 31, 0, .rw, 0, []⟩
def psmAlarmHi_T : Fd := ⟨.psmAlarmHi, 31, 0, .rw, 0, []⟩
def psmAlarmCtrl_FIRED : Fd := ⟨.psmAlarmCtrl, 1, 1, .w1c, 0, []⟩
def psmAlarmCtrl_EN : Fd := ⟨.psmAlarmCtrl, 0, 0, .rw, 0, []⟩
def psmS4lat_US : Fd := ⟨.psmS4lat, 23, 0, .ro, 27500, []⟩
def psmOffcnt_SAT : Fd := ⟨.psmOffcnt, 31, 31, .rc, 0, []⟩
def psmOffcnt_COUNT : Fd := ⟨.psmOffcnt, 15, 0, .rc, 0, []⟩
def psmAvs_AVS_EN : Fd := ⟨.psmAvs, 31, 31, .rw, 1, []⟩
def psmAvs_MARGIN : Fd := ⟨.psmAvs, 15, 8, .rw, 12, [(0, 7), (41, 255)]⟩
def psmAvs_HYST : Fd := ⟨.psmAvs, 7, 0, .rw, 8, [(0, 3), (41, 255)]⟩
def psmVlim_VMAX : Fd := ⟨.psmVlim, 31, 16, .rw, 900, []⟩
def psmVlim_VMIN : Fd := ⟨.psmVlim, 15, 0, .rw, 550, []⟩
def psmVcore_REQ : Fd := ⟨.psmVcore, 15, 0, .ro, 0, []⟩
def psmTemp_VALID : Fd := ⟨.psmTemp, 31, 31, .ro, 0, []⟩
def psmTemp_TJ : Fd := ⟨.psmTemp, 15, 0, .ro, 0, []⟩
def psmPaceref_G : Fd := ⟨.psmPaceref, 15, 0, .ro, 0, []⟩
def psmPace_WEAR : Fd := ⟨.psmPace, 31, 16, .ro, 0, []⟩
def psmPace_PACE : Fd := ⟨.psmPace, 15, 0, .ro, 0, []⟩
def psmDom_ON : Fd := ⟨.psmDom, 31, 0, .ro, 0, []⟩
def psmDomoff_GO : Fd := ⟨.psmDomoff, 31, 31, .wo, 0, []⟩
def psmDomoff_DOM : Fd := ⟨.psmDomoff, 6, 0, .wo, 0, []⟩
def asyReq_GO : Fd := ⟨.asyReq, 31, 31, .wo, 0, []⟩
def asyReq_ABORT : Fd := ⟨.asyReq, 30, 30, .wo, 0, []⟩
def asyReq_CLASS : Fd := ⟨.asyReq, 23, 20, .wo, 0, []⟩
def asyReq_INDEX : Fd := ⟨.asyReq, 11, 0, .wo, 0, []⟩
def asyStat_BUSY : Fd := ⟨.asyStat, 31, 31, .ro, 0, []⟩
def asyStat_ASSAY_WAIT : Fd := ⟨.asyStat, 30, 30, .ro, 0, []⟩
def asyStat_MAINT : Fd := ⟨.asyStat, 29, 29, .ro, 0, []⟩
def asyStat_DEGRADED : Fd := ⟨.asyStat, 28, 28, .ro, 0, []⟩
def asyStat_QLEVEL : Fd := ⟨.asyStat, 27, 24, .ro, 0, []⟩
def asyStat_CLASS : Fd := ⟨.asyStat, 23, 20, .ro, 0, []⟩
def asyStat_QFULL : Fd := ⟨.asyStat, 19, 19, .w1c, 0, []⟩
def asyStat_FAIL : Fd := ⟨.asyStat, 18, 18, .w1c, 0, []⟩
def asyStat_RESULT : Fd := ⟨.asyStat, 17, 17, .w1c, 0, []⟩
def asyStat_LGR : Fd := ⟨.asyStat, 16, 16, .w1c, 0, []⟩
def asyStat_DENY : Fd := ⟨.asyStat, 15, 15, .w1c, 0, []⟩
def asyStat_INDEX : Fd := ⟨.asyStat, 11, 0, .ro, 0, []⟩
def asyResW0_CODE : Fd := ⟨.asyResW0, 31, 28, .ro, 0, []⟩
def asyResW0_CLASS : Fd := ⟨.asyResW0, 27, 24, .ro, 0, []⟩
def asyResW0_INDEX : Fd := ⟨.asyResW0, 23, 12, .ro, 0, []⟩
def asyResW0_PHYS : Fd := ⟨.asyResW0, 9, 0, .ro, 0, []⟩
def asyResW1_TIME : Fd := ⟨.asyResW1, 31, 0, .ro, 0, []⟩
def asyResW2_DETAIL : Fd := ⟨.asyResW2, 31, 0, .ro, 0, []⟩
def asyResPop_POP : Fd := ⟨.asyResPop, 0, 0, .wo, 0, []⟩
def asyLgrW_ENTRY : Fd := ⟨.asyLgrW, 31, 0, .ro, 0, []⟩
def asyLgrPop_POP : Fd := ⟨.asyLgrPop, 0, 0, .wo, 0, []⟩
def asyLgrLevel_SAT : Fd := ⟨.asyLgrLevel, 31, 31, .rc, 0, []⟩
def asyLgrLevel_OVF : Fd := ⟨.asyLgrLevel, 23, 8, .rc, 0, []⟩
def asyLgrLevel_LEVEL : Fd := ⟨.asyLgrLevel, 5, 0, .ro, 0, []⟩
def asyMaint_KEY : Fd := ⟨.asyMaint, 31, 16, .wo, 0, []⟩
def asyMaint_ENTER : Fd := ⟨.asyMaint, 0, 0, .wo, 0, []⟩
def asyDieidLo_ID : Fd := ⟨.asyDieidLo, 31, 0, .ro, 0, []⟩
def asyDieidHi_ID : Fd := ⟨.asyDieidHi, 31, 0, .ro, 0, []⟩
def asySpares_LINKS : Fd := ⟨.asySpares, 27, 24, .ro, 0, []⟩
def asySpares_PSQ : Fd := ⟨.asySpares, 23, 20, .ro, 0, []⟩
def asySpares_VOICE : Fd := ⟨.asySpares, 19, 12, .ro, 0, []⟩
def asySpares_BANK : Fd := ⟨.asySpares, 11, 8, .ro, 0, []⟩
def asySpares_LANE : Fd := ⟨.asySpares, 7, 4, .ro, 0, []⟩
def asySpares_CORE : Fd := ⟨.asySpares, 3, 0, .ro, 0, []⟩

end F

end Sys2Proof.Machine
end

