-- ==== Sys2Proof/Machine/RegTable.lean ====
section
/-! DEFINITION. The register map: for every family its base address, strides and counts, and its fields, as the
register tables of spec/02 to spec/16 give them (R5, R25). -/

namespace Sys2Proof.Machine

/-- One register family: base, first stride and count, second stride and count, fields. -/
structure RegRow where
  base : Nat
  s1 : Nat
  n1 : Nat
  s2 : Nat
  n2 : Nat
  flds : List Fd
deriving DecidableEq, Repr

/-- The row of a register family. -/
def RegId.row : RegId → RegRow
  | .layCtrl => ⟨0x3D100000, 0x2000, 256, 0x0, 1, [F.layCtrl_STATIC, F.layCtrl_WIN_INV, F.layCtrl_WIN_EN, F.layCtrl_WRAP_Y, F.layCtrl_WRAP_X, F.layCtrl_IDX0_OPQ, F.layCtrl_PREMUL, F.layCtrl_EN]⟩
  | .layAssign => ⟨0x3D100004, 0x2000, 256, 0x0, 1, [F.layAssign_BOUND, F.layAssign_SLOT, F.layAssign_HEAD]⟩
  | .layFormat => ⟨0x3D100008, 0x2000, 256, 0x0, 1, [F.layFormat_MAPH_LOG2, F.layFormat_MAPW_LOG2, F.layFormat_TSIZE, F.layFormat_PFMT, F.layFormat_KIND]⟩
  | .layMapBase => ⟨0x3D10000C, 0x2000, 256, 0x0, 1, [F.layMapBase_ADDR]⟩
  | .layPatBase => ⟨0x3D100010, 0x2000, 256, 0x0, 1, [F.layPatBase_ADDR]⟩
  | .layBmpSize => ⟨0x3D100014, 0x2000, 256, 0x0, 1, [F.layBmpSize_HM1, F.layBmpSize_WM1]⟩
  | .layBmpStride => ⟨0x3D100018, 0x2000, 256, 0x0, 1, [F.layBmpStride_STRIDE]⟩
  | .laySprRange => ⟨0x3D10001C, 0x2000, 256, 0x0, 1, [F.laySprRange_COUNTM1, F.laySprRange_FIRST]⟩
  | .layScrollX => ⟨0x3D100020, 0x2000, 256, 0x0, 1, [F.layScrollX_SX]⟩
  | .layScrollY => ⟨0x3D100024, 0x2000, 256, 0x0, 1, [F.layScrollY_SY]⟩
  | .layWinH => ⟨0x3D100028, 0x2000, 256, 0x0, 1, [F.layWinH_X1, F.layWinH_X0]⟩
  | .layWinV => ⟨0x3D10002C, 0x2000, 256, 0x0, 1, [F.layWinV_Y1, F.layWinV_Y0]⟩
  | .layAlpha => ⟨0x3D100030, 0x2000, 256, 0x0, 1, [F.layAlpha_ALPHA]⟩
  | .layPal => ⟨0x3D100034, 0x2000, 256, 0x0, 1, [F.layPal_BANK]⟩
  | .layAffMtx => ⟨0x3D100038, 0x2000, 256, 0x0, 1, [F.layAffMtx_MTX]⟩
  | .layAffC => ⟨0x3D10003C, 0x2000, 256, 0x0, 1, [F.layAffC_CY, F.layAffC_CX]⟩
  | .layAffU0 => ⟨0x3D100040, 0x2000, 256, 0x0, 1, [F.layAffU0_U0]⟩
  | .layAffV0 => ⟨0x3D100044, 0x2000, 256, 0x0, 1, [F.layAffV0_V0]⟩
  | .layStat => ⟨0x3D100080, 0x2000, 256, 0x0, 1, [F.layStat_FENCE_MISS, F.layStat_POISON, F.layStat_SLOT_CLASH, F.layStat_ADDR_ERR, F.layStat_DESC_ERR, F.layStat_SPAN_DROP]⟩
  | .layDropcnt => ⟨0x3D100084, 0x2000, 256, 0x0, 1, [F.layDropcnt_SAT, F.layDropcnt_COUNT]⟩
  | .layAssignAct => ⟨0x3D100104, 0x2000, 256, 0x0, 1, [F.layAssignAct_BOUND, F.layAssignAct_SLOT, F.layAssignAct_HEAD]⟩
  | .layFormatAct => ⟨0x3D100108, 0x2000, 256, 0x0, 1, [F.layFormatAct_MAPH_LOG2, F.layFormatAct_MAPW_LOG2, F.layFormatAct_TSIZE, F.layFormatAct_PFMT, F.layFormatAct_KIND]⟩
  | .layMapBaseAct => ⟨0x3D10010C, 0x2000, 256, 0x0, 1, [F.layMapBaseAct_ADDR]⟩
  | .layPatBaseAct => ⟨0x3D100110, 0x2000, 256, 0x0, 1, [F.layPatBaseAct_ADDR]⟩
  | .layBmpSizeAct => ⟨0x3D100114, 0x2000, 256, 0x0, 1, [F.layBmpSizeAct_HM1, F.layBmpSizeAct_WM1]⟩
  | .layBmpStrideAct => ⟨0x3D100118, 0x2000, 256, 0x0, 1, [F.layBmpStrideAct_STRIDE]⟩
  | .laySprRangeAct => ⟨0x3D10011C, 0x2000, 256, 0x0, 1, [F.laySprRangeAct_COUNTM1, F.laySprRangeAct_FIRST]⟩
  | .lpeCtrl => ⟨0x3D500000, 0x20000, 8, 0x0, 1, [F.lpeCtrl_EN]⟩
  | .lpeBase => ⟨0x3D500004, 0x20000, 8, 0x0, 1, [F.lpeBase_ADDR]⟩
  | .lpeStepmax => ⟨0x3D500008, 0x20000, 8, 0x0, 1, [F.lpeStepmax_STEPS]⟩
  | .lpeStat => ⟨0x3D500080, 0x20000, 8, 0x0, 1, [F.lpeStat_STALL, F.lpeStat_POISON, F.lpeStat_PADDR, F.lpeStat_STACK, F.lpeStat_RUNAWAY, F.lpeStat_WAIT_PAST, F.lpeStat_BAD_CMD, F.lpeStat_BAD_REG, F.lpeStat_XHEAD, F.lpeStat_LINE_OVER]⟩
  | .lpeOvercnt => ⟨0x3D500084, 0x20000, 8, 0x0, 1, [F.lpeOvercnt_SAT, F.lpeOvercnt_COUNT]⟩
  | .lpeStallcnt => ⟨0x3D500088, 0x20000, 8, 0x0, 1, [F.lpeStallcnt_SAT, F.lpeStallcnt_COUNT]⟩
  | .lpeLine => ⟨0x3D50008C, 0x20000, 8, 0x0, 1, [F.lpeLine_RUN, F.lpeLine_HOLD, F.lpeLine_C]⟩
  | .lpeBaseAct => ⟨0x3D500104, 0x20000, 8, 0x0, 1, [F.lpeBaseAct_ADDR]⟩
  | .cpsLane => ⟨0x3D000100, 0x4, 16, 0x0, 1, [F.cpsLane_EN, F.cpsLane_HEAD]⟩
  | .cpsLaneAct => ⟨0x3D000140, 0x4, 16, 0x0, 1, [F.cpsLaneAct_EN, F.cpsLaneAct_HEAD]⟩
  | .cpsFsig => ⟨0x3D000200, 0x4, 1, 0x0, 1, [F.cpsFsig_FENCE]⟩
  | .cpsFence => ⟨0x3D001000, 0x4, 256, 0x0, 1, [F.cpsFence_SIG, F.cpsFence_OVR, F.cpsFence_HEAD]⟩
  | .cpsFlip => ⟨0x3D002000, 0x4, 256, 0x0, 1, [F.cpsFlip_ARM, F.cpsFlip_NOFENCE, F.cpsFlip_FENCE]⟩
  | .cpsCtrl => ⟨0x3D008000, 0x100, 8, 0x0, 1, [F.cpsCtrl_TEE_EN, F.cpsCtrl_INGOT_EN, F.cpsCtrl_OCC_EN, F.cpsCtrl_CH_LOG2, F.cpsCtrl_MODE]⟩
  | .cpsBackdrop => ⟨0x3D008004, 0x100, 8, 0x0, 1, [F.cpsBackdrop_RGB]⟩
  | .cpsPageA => ⟨0x3D008008, 0x100, 8, 0x0, 1, [F.cpsPageA_OFFSET]⟩
  | .cpsPageB => ⟨0x3D00800C, 0x100, 8, 0x0, 1, [F.cpsPageB_OFFSET]⟩
  | .cpsIngot => ⟨0x3D008010, 0x100, 8, 0x0, 1, [F.cpsIngot_SIZE, F.cpsIngot_BASE]⟩
  | .cpsTeeAddr => ⟨0x3D008014, 0x100, 8, 0x0, 1, [F.cpsTeeAddr_ADDR]⟩
  | .cpsTeeAddr2 => ⟨0x3D008018, 0x100, 8, 0x0, 1, [F.cpsTeeAddr2_ADDR]⟩
  | .cpsTeeStride => ⟨0x3D00801C, 0x100, 8, 0x0, 1, [F.cpsTeeStride_STRIDE]⟩
  | .cpsTeeX => ⟨0x3D008020, 0x100, 8, 0x0, 1, [F.cpsTeeX_X1, F.cpsTeeX_X0]⟩
  | .cpsTeeCfg => ⟨0x3D008024, 0x100, 8, 0x0, 1, [F.cpsTeeCfg_FSIG_EN, F.cpsTeeCfg_PAIR, F.cpsTeeCfg_FENCE, F.cpsTeeCfg_CHIP]⟩
  | .cpsStat => ⟨0x3D008080, 0x100, 8, 0x0, 1, [F.cpsStat_LANE_CLASH, F.cpsStat_INGOT_POISON, F.cpsStat_NOLANE, F.cpsStat_INGOT_FULL, F.cpsStat_TEE_ERR, F.cpsStat_TEE_DROP, F.cpsStat_FENCE_MISS, F.cpsStat_UNDERRUN]⟩
  | .cpsUndercnt => ⟨0x3D008084, 0x100, 8, 0x0, 1, [F.cpsUndercnt_SAT, F.cpsUndercnt_COUNT]⟩
  | .cpsFmisscnt => ⟨0x3D008088, 0x100, 8, 0x0, 1, [F.cpsFmisscnt_SAT, F.cpsFmisscnt_COUNT]⟩
  | .cpsTeedropcnt => ⟨0x3D00808C, 0x100, 8, 0x0, 1, [F.cpsTeedropcnt_SAT, F.cpsTeedropcnt_COUNT]⟩
  | .cpsProgress => ⟨0x3D008090, 0x100, 8, 0x0, 1, [F.cpsProgress_RUN, F.cpsProgress_FRAME, F.cpsProgress_COURSE]⟩
  | .cpsMinslack => ⟨0x3D008094, 0x100, 8, 0x0, 1, [F.cpsMinslack_SLACK]⟩
  | .cpsCtrlAct => ⟨0x3D0080C0, 0x100, 8, 0x0, 1, [F.cpsCtrlAct_TEE_EN, F.cpsCtrlAct_INGOT_EN, F.cpsCtrlAct_OCC_EN, F.cpsCtrlAct_CH_LOG2, F.cpsCtrlAct_MODE]⟩
  | .hmkFrame => ⟨0x3D300000, 0x40000, 8, 0x0, 1, [F.hmkFrame_FRAME]⟩
  | .hmkHstat => ⟨0x3D300004, 0x40000, 8, 0x0, 1, [F.hmkHstat_FWRAP, F.hmkHstat_FRZ_SUPV, F.hmkHstat_FROZEN]⟩
  | .hmkBlankcol => ⟨0x3D300008, 0x40000, 8, 0x0, 1, [F.hmkBlankcol_RGB]⟩
  | .hmkMislo => ⟨0x3D30000C, 0x40000, 8, 0x0, 1, [F.hmkMislo_MIS]⟩
  | .hmkMishi => ⟨0x3D300010, 0x40000, 8, 0x0, 1, [F.hmkMishi_MIS]⟩
  | .hmkCfg => ⟨0x3D301000, 0x40000, 8, 0x40, 64, [F.hmkCfg_LOCK, F.hmkCfg_SUPV, F.hmkCfg_FREEZE, F.hmkCfg_BLANK, F.hmkCfg_MODE, F.hmkCfg_TAPS, F.hmkCfg_EN]⟩
  | .hmkRectH => ⟨0x3D301004, 0x40000, 8, 0x40, 64, [F.hmkRectH_X1, F.hmkRectH_X0]⟩
  | .hmkRectV => ⟨0x3D301008, 0x40000, 8, 0x40, 64, [F.hmkRectV_Y1, F.hmkRectV_Y0]⟩
  | .hmkExp => ⟨0x3D30100C, 0x40000, 8, 0x40, 64, [F.hmkExp_EXP]⟩
  | .hmkHval0 => ⟨0x3D301010, 0x40000, 8, 0x40, 64, [F.hmkHval0_VAL]⟩
  | .hmkHtag0 => ⟨0x3D301014, 0x40000, 8, 0x40, 64, [F.hmkHtag0_TAG]⟩
  | .hmkHval1 => ⟨0x3D301018, 0x40000, 8, 0x40, 64, [F.hmkHval1_VAL]⟩
  | .hmkHtag1 => ⟨0x3D30101C, 0x40000, 8, 0x40, 64, [F.hmkHtag1_TAG]⟩
  | .hmkLastc => ⟨0x3D301020, 0x40000, 8, 0x40, 64, [F.hmkLastc_SIG]⟩
  | .hmkLastcFrm => ⟨0x3D301024, 0x40000, 8, 0x40, 64, [F.hmkLastcFrm_FRAME]⟩
  | .hmkLasts => ⟨0x3D301028, 0x40000, 8, 0x40, 64, [F.hmkLasts_SIG]⟩
  | .hmkLastsFrm => ⟨0x3D30102C, 0x40000, 8, 0x40, 64, [F.hmkLastsFrm_FRAME]⟩
  | .hmkStat => ⟨0x3D301030, 0x40000, 8, 0x40, 64, [F.hmkStat_ARMED1, F.hmkStat_ARMED0, F.hmkStat_LOCK_REJ, F.hmkStat_WR_REJ, F.hmkStat_BLANKED, F.hmkStat_LEARNED, F.hmkStat_NOEXP, F.hmkStat_SKIP, F.hmkStat_MISS, F.hmkStat_MISC]⟩
  | .hmkMiscnt => ⟨0x3D301034, 0x40000, 8, 0x40, 64, [F.hmkMiscnt_SAT, F.hmkMiscnt_COUNT]⟩
  | .shCtrl => ⟨0x3D800000, 0x100000, 8, 0x0, 1, [F.shCtrl_PLL_EN, F.shCtrl_RUN]⟩
  | .shFormat => ⟨0x3D800004, 0x100000, 8, 0x0, 1, [F.shFormat_REPM1, F.shFormat_FSFMT]⟩
  | .shHtime => ⟨0x3D800008, 0x100000, 8, 0x0, 1, [F.shHtime_HT, F.shHtime_HA]⟩
  | .shHsync => ⟨0x3D80000C, 0x100000, 8, 0x0, 1, [F.shHsync_HPOL, F.shHsync_HSW, F.shHsync_HFP]⟩
  | .shVtime => ⟨0x3D800010, 0x100000, 8, 0x0, 1, [F.shVtime_VT, F.shVtime_VA]⟩
  | .shVsync => ⟨0x3D800014, 0x100000, 8, 0x0, 1, [F.shVsync_VPOL, F.shVsync_VSW, F.shVsync_VFP]⟩
  | .shPclk => ⟨0x3D800018, 0x100000, 8, 0x0, 1, [F.shPclk_FREQ]⟩
  | .shLock => ⟨0x3D80001C, 0x100000, 8, 0x0, 1, [F.shLock_MAXADJ, F.shLock_SYNCSRC]⟩
  | .shFaddr => ⟨0x3D800020, 0x100000, 8, 0x0, 1, [F.shFaddr_OFFSET]⟩
  | .shFaddrAct => ⟨0x3D800024, 0x100000, 8, 0x0, 1, [F.shFaddrAct_OFFSET]⟩
  | .shLmatch => ⟨0x3D800028, 0x100000, 8, 0x4, 2, [F.shLmatch_EN, F.shLmatch_DOT, F.shLmatch_LINE]⟩
  | .shTbepochLo => ⟨0x3D800030, 0x100000, 8, 0x0, 1, [F.shTbepochLo_EPOCH]⟩
  | .shTbepochHi => ⟨0x3D800034, 0x100000, 8, 0x0, 1, [F.shTbepochHi_EPOCH]⟩
  | .shTbper => ⟨0x3D800038, 0x100000, 8, 0x0, 1, [F.shTbper_PER]⟩
  | .shGloffs => ⟨0x3D80003C, 0x100000, 8, 0x0, 1, [F.shGloffs_OFFS]⟩
  | .shLutctrl => ⟨0x3D800040, 0x100000, 8, 0x0, 1, [F.shLutctrl_DITHER, F.shLutctrl_LUT_EN]⟩
  | .shTbperHi => ⟨0x3D800044, 0x100000, 8, 0x0, 1, [F.shTbperHi_PERHI]⟩
  | .shStat => ⟨0x3D800080, 0x100000, 8, 0x0, 1, [F.shStat_POISON, F.shStat_LOCK_LOST, F.shStat_PLL_LOST, F.shStat_STARVE, F.shStat_CFG_ERR, F.shStat_CFG_REJ, F.shStat_LOCKED, F.shStat_PLL_LOCK, F.shStat_FADDR_PEND, F.shStat_RUNNING]⟩
  | .shStarvecnt => ⟨0x3D800084, 0x100000, 8, 0x0, 1, [F.shStarvecnt_SAT, F.shStarvecnt_COUNT]⟩
  | .shBeam => ⟨0x3D800088, 0x100000, 8, 0x0, 1, [F.shBeam_X, F.shBeam_Y]⟩
  | .shFrame => ⟨0x3D80008C, 0x100000, 8, 0x0, 1, [F.shFrame_FRAME]⟩
  | .shPherr => ⟨0x3D800090, 0x100000, 8, 0x0, 1, [F.shPherr_ERR]⟩
  | .shDotper => ⟨0x3D800094, 0x100000, 8, 0x0, 1, [F.shDotper_PER]⟩
  | .shFstampLo => ⟨0x3D800098, 0x100000, 8, 0x0, 1, [F.shFstampLo_T]⟩
  | .shFstampHi => ⟨0x3D80009C, 0x100000, 8, 0x0, 1, [F.shFstampHi_T]⟩
  | .shFstampFr => ⟨0x3D8000A0, 0x100000, 8, 0x0, 1, [F.shFstampFr_FR]⟩
  | .shOut => ⟨0x3D800100, 0x100000, 8, 0x0, 1, [F.shOut_SYNCPINS, F.shOut_OUTSEL]⟩
  | .shDpcfg => ⟨0x3D800104, 0x100000, 8, 0x0, 1, [F.shDpcfg_AUD_EN, F.shDpcfg_PSR_EN, F.shDpcfg_AUTO_LT, F.shDpcfg_SSC, F.shDpcfg_BPC, F.shDpcfg_LANES, F.shDpcfg_MAXRATE]⟩
  | .shDpstat => ⟨0x3D800108, 0x100000, 8, 0x0, 1, [F.shDpstat_AUD_NOROOM, F.shDpstat_PSR_ERR, F.shDpstat_LINK_LOSS, F.shDpstat_LT_FAIL, F.shDpstat_HPD_IRQ, F.shDpstat_HPD_CHG, F.shDpstat_PSR_ACT, F.shDpstat_LANES, F.shDpstat_RATE, F.shDpstat_TRAINED, F.shDpstat_HPD]⟩
  | .shDpcmd => ⟨0x3D80010C, 0x100000, 8, 0x0, 1, [F.shDpcmd_PSR_EXIT, F.shDpcmd_PSR_ENTER, F.shDpcmd_TRAIN]⟩
  | .shAuxctrl => ⟨0x3D800110, 0x100000, 8, 0x0, 1, [F.shAuxctrl_CMD, F.shAuxctrl_ADDR, F.shAuxctrl_LENM1]⟩
  | .shAuxdata => ⟨0x3D800114, 0x100000, 8, 0x4, 4, [F.shAuxdata_DATA]⟩
  | .shAuxstat => ⟨0x3D800124, 0x100000, 8, 0x0, 1, [F.shAuxstat_COUNT, F.shAuxstat_TIMEOUT, F.shAuxstat_DEFER, F.shAuxstat_NACK, F.shAuxstat_DONE, F.shAuxstat_BUSY]⟩
  | .shAna => ⟨0x3D800140, 0x100000, 8, 0x0, 1, [F.shAna_SERR, F.shAna_CSYNC, F.shAna_LEVEL]⟩
  | .shPar => ⟨0x3D800150, 0x100000, 8, 0x0, 1, [F.shPar_CLKINV, F.shPar_WIDTH]⟩
  | .glCtrl => ⟨0x3D800400, 0x4, 1, 0x0, 1, [F.glCtrl_TRI, F.glCtrl_EN]⟩
  | .glStat => ⟨0x3D800404, 0x4, 1, 0x0, 1, [F.glStat_LOST, F.glStat_STABLE, F.glStat_PRESENT]⟩
  | .glFper => ⟨0x3D800408, 0x4, 1, 0x0, 1, [F.glFper_PER]⟩
  | .glLines => ⟨0x3D80040C, 0x4, 1, 0x0, 1, [F.glLines_LINES]⟩
  | .glFstampLo => ⟨0x3D800410, 0x4, 1, 0x0, 1, [F.glFstampLo_T]⟩
  | .glFstampHi => ⟨0x3D800414, 0x4, 1, 0x0, 1, [F.glFstampHi_T]⟩
  | .glFperHi => ⟨0x3D800418, 0x4, 1, 0x0, 1, [F.glFperHi_PERHI]⟩
  | .shLut => ⟨0x3D810000, 0x100000, 8, 0x4, 12288, [F.shLut_VAL]⟩
  | .audCtrl => ⟨0x3E000000, 0x4, 1, 0x0, 1, [F.audCtrl_TICKDIV, F.audCtrl_HOLD, F.audCtrl_RUN]⟩
  | .audClk => ⟨0x3E000004, 0x4, 1, 0x0, 1, [F.audClk_TBLOCK, F.audClk_PLL_EN]⟩
  | .audEpochLo => ⟨0x3E000008, 0x4, 1, 0x0, 1, [F.audEpochLo_EPOCH]⟩
  | .audEpochHi => ⟨0x3E00000C, 0x4, 1, 0x0, 1, [F.audEpochHi_EPOCH]⟩
  | .audScountLo => ⟨0x3E000010, 0x4, 1, 0x0, 1, [F.audScountLo_N]⟩
  | .audScountHi => ⟨0x3E000014, 0x4, 1, 0x0, 1, [F.audScountHi_N]⟩
  | .audBstampLo => ⟨0x3E000018, 0x4, 1, 0x0, 1, [F.audBstampLo_T]⟩
  | .audBstampHi => ⟨0x3E00001C, 0x4, 1, 0x0, 1, [F.audBstampHi_T]⟩
  | .audStat => ⟨0x3E000020, 0x4, 1, 0x0, 1, [F.audStat_POISON, F.audStat_EFF, F.audStat_PORT, F.audStat_VOICE, F.audStat_SAT, F.audStat_LATE, F.audStat_CFG_ERR, F.audStat_TB_LOCKED, F.audStat_PLL_LOCK, F.audStat_RUNNING]⟩
  | .audLatecnt => ⟨0x3E000024, 0x4, 1, 0x0, 1, [F.audLatecnt_SAT, F.audLatecnt_COUNT]⟩
  | .audVend => ⟨0x3E000100, 0x4, 16, 0x0, 1, [F.audVend_VEND]⟩
  | .audVbus => ⟨0x3E010000, 0x4, 64, 0x0, 1, [F.audVbus_RAMPING, F.audVbus_RAMP, F.audVbus_GAIN]⟩
  | .audVbusSatcnt => ⟨0x3E010100, 0x4, 64, 0x0, 1, [F.audVbusSatcnt_SAT, F.audVbusSatcnt_COUNT]⟩
  | .audVbusSat => ⟨0x3E010200, 0x4, 64, 0x0, 1, [F.audVbusSat_SAT]⟩
  | .effCtrl => ⟨0x3E020000, 0x100, 16, 0x0, 1, [F.effCtrl_RAMP, F.effCtrl_TYPE]⟩
  | .effMem => ⟨0x3E020004, 0x100, 16, 0x0, 1, [F.effMem_SIZE, F.effMem_BASE]⟩
  | .effMix => ⟨0x3E020008, 0x100, 16, 0x0, 1, [F.effMix_WET, F.effMix_DRY]⟩
  | .effStat => ⟨0x3E02000C, 0x100, 16, 0x0, 1, [F.effStat_MEM_ERR]⟩
  | .effP => ⟨0x3E020020, 0x100, 16, 0x4, 8, [F.effP_P]⟩
  | .effIn => ⟨0x3E020040, 0x100, 16, 0x4, 8, [F.effIn_RAMPING, F.effIn_PEND, F.effIn_SRC, F.effIn_GAIN]⟩
  | .mbCtrl => ⟨0x3E030000, 0x40, 32, 0x0, 1, [F.mbCtrl_RAMPING, F.mbCtrl_RAMP, F.mbCtrl_GAIN]⟩
  | .mbLim => ⟨0x3E030004, 0x40, 32, 0x0, 1, [F.mbLim_LAH, F.mbLim_THR]⟩
  | .mbRel => ⟨0x3E030008, 0x40, 32, 0x0, 1, [F.mbRel_REL]⟩
  | .mbStat => ⟨0x3E03000C, 0x40, 32, 0x0, 1, [F.mbStat_SAT]⟩
  | .mbLimcnt => ⟨0x3E030010, 0x40, 32, 0x0, 1, [F.mbLimcnt_SAT, F.mbLimcnt_COUNT]⟩
  | .mbSatcnt => ⟨0x3E030014, 0x40, 32, 0x0, 1, [F.mbSatcnt_SAT, F.mbSatcnt_COUNT]⟩
  | .mbIn => ⟨0x3E030020, 0x40, 32, 0x4, 8, [F.mbIn_RAMPING, F.mbIn_PEND, F.mbIn_SRC, F.mbIn_GAIN]⟩
  | .outCfg => ⟨0x3E040000, 0x100, 16, 0x0, 1, [F.outCfg_EN, F.outCfg_MODE, F.outCfg_CLKSRC, F.outCfg_MCLK_EN, F.outCfg_SWIDTH, F.outCfg_D24, F.outCfg_RATE, F.outCfg_SLOTSM1]⟩
  | .outStat => ⟨0x3E040004, 0x100, 16, 0x0, 1, [F.outStat_CLKLOSS, F.outStat_SLIP, F.outStat_CFG_REJ, F.outStat_CFG_ERR, F.outStat_RUNNING]⟩
  | .outSlipcnt => ⟨0x3E040008, 0x100, 16, 0x0, 1, [F.outSlipcnt_SAT, F.outSlipcnt_COUNT]⟩
  | .outSlot => ⟨0x3E040040, 0x100, 16, 0x4, 16, [F.outSlot_RAMPING, F.outSlot_PEND, F.outSlot_RAMP, F.outSlot_SRC]⟩
  | .spdCfg => ⟨0x3E050000, 0x40, 4, 0x0, 1, [F.spdCfg_EN, F.spdCfg_D24, F.spdCfg_RATE]⟩
  | .spdStat => ⟨0x3E050004, 0x40, 4, 0x0, 1, [F.spdStat_CLKLOSS, F.spdStat_SLIP, F.spdStat_CFG_REJ, F.spdStat_CFG_ERR, F.spdStat_RUNNING]⟩
  | .spdSlipcnt => ⟨0x3E050008, 0x40, 4, 0x0, 1, [F.spdSlipcnt_SAT, F.spdSlipcnt_COUNT]⟩
  | .spdCs => ⟨0x3E05000C, 0x40, 4, 0x0, 1, [F.spdCs_CATEGORY, F.spdCs_CPR]⟩
  | .spdSlot => ⟨0x3E050010, 0x40, 4, 0x4, 2, [F.spdSlot_RAMPING, F.spdSlot_PEND, F.spdSlot_RAMP, F.spdSlot_SRC]⟩
  | .dpaCfg => ⟨0x3E058000, 0x40, 8, 0x0, 1, [F.dpaCfg_EN, F.dpaCfg_D24, F.dpaCfg_RATE, F.dpaCfg_CH8]⟩
  | .dpaStat => ⟨0x3E058004, 0x40, 8, 0x0, 1, [F.dpaStat_CLKLOSS, F.dpaStat_SLIP, F.dpaStat_CFG_REJ, F.dpaStat_CFG_ERR, F.dpaStat_RUNNING]⟩
  | .dpaSlipcnt => ⟨0x3E058008, 0x40, 8, 0x0, 1, [F.dpaSlipcnt_SAT, F.dpaSlipcnt_COUNT]⟩
  | .dpaSlot => ⟨0x3E058010, 0x40, 8, 0x4, 8, [F.dpaSlot_RAMPING, F.dpaSlot_PEND, F.dpaSlot_RAMP, F.dpaSlot_SRC]⟩
  | .inCfg => ⟨0x3E060000, 0x100, 8, 0x0, 1, [F.inCfg_EN, F.inCfg_MODE, F.inCfg_CLKSRC, F.inCfg_MCLK_EN, F.inCfg_SWIDTH, F.inCfg_D24, F.inCfg_RATE, F.inCfg_SLOTSM1]⟩
  | .inStat => ⟨0x3E060004, 0x100, 8, 0x0, 1, [F.inStat_CLKLOSS, F.inStat_SLIP, F.inStat_CFG_REJ, F.inStat_CFG_ERR, F.inStat_RUNNING]⟩
  | .inSlipcnt => ⟨0x3E060008, 0x100, 8, 0x0, 1, [F.inSlipcnt_SAT, F.inSlipcnt_COUNT]⟩
  | .inRate => ⟨0x3E06000C, 0x100, 8, 0x0, 1, [F.inRate_RATE]⟩
  | .cqCtrl => ⟨0x3E070000, 0x20, 16, 0x0, 1, [F.cqCtrl_EN, F.cqCtrl_SIZE, F.cqCtrl_KIND, F.cqCtrl_SRC]⟩
  | .cqBase => ⟨0x3E070004, 0x20, 16, 0x0, 1, [F.cqBase_BASE]⟩
  | .cqWptr => ⟨0x3E070008, 0x20, 16, 0x0, 1, [F.cqWptr_WPTR]⟩
  | .cqRptr => ⟨0x3E07000C, 0x20, 16, 0x0, 1, [F.cqRptr_RPTR]⟩
  | .cqStat => ⟨0x3E070010, 0x20, 16, 0x0, 1, [F.cqStat_SLIP]⟩
  | .cqSlipcnt => ⟨0x3E070014, 0x20, 16, 0x0, 1, [F.cqSlipcnt_SAT, F.cqSlipcnt_COUNT]⟩
  | .vCtrl => ⟨0x3E100000, 0x80, 512, 0x0, 1, [F.vCtrl_RAMP, F.vCtrl_ENDEV, F.vCtrl_FB, F.vCtrl_FBOP, F.vCtrl_STREAM, F.vCtrl_LOOP, F.vCtrl_SRC]⟩
  | .vAddr => ⟨0x3E100004, 0x80, 512, 0x0, 1, [F.vAddr_ADDR]⟩
  | .vStart => ⟨0x3E100008, 0x80, 512, 0x0, 1, [F.vStart_START]⟩
  | .vLoop => ⟨0x3E10000C, 0x80, 512, 0x0, 1, [F.vLoop_LOOP]⟩
  | .vEnd => ⟨0x3E100010, 0x80, 512, 0x0, 1, [F.vEnd_END]⟩
  | .vStep => ⟨0x3E100014, 0x80, 512, 0x0, 1, [F.vStep_STEP]⟩
  | .vEnv0 => ⟨0x3E100018, 0x80, 512, 0x0, 1, [F.vEnv0_DECAY, F.vEnv0_ATTACK]⟩
  | .vEnv1 => ⟨0x3E10001C, 0x80, 512, 0x0, 1, [F.vEnv1_RELEASE, F.vEnv1_SUSTAIN]⟩
  | .vLfo => ⟨0x3E100020, 0x80, 512, 0x0, 1, [F.vLfo_DEPTH, F.vLfo_RATE]⟩
  | .vOut => ⟨0x3E100024, 0x80, 512, 0x4, 2, [F.vOut_RAMPING, F.vOut_PEND, F.vOut_EN, F.vOut_BUS, F.vOut_GAIN]⟩
  | .vCmd => ⟨0x3E100030, 0x80, 512, 0x0, 1, [F.vCmd_AT, F.vCmd_OP]⟩
  | .vAtLo => ⟨0x3E100034, 0x80, 512, 0x0, 1, [F.vAtLo_T]⟩
  | .vAtHi => ⟨0x3E100038, 0x80, 512, 0x0, 1, [F.vAtHi_T]⟩
  | .vWptr => ⟨0x3E10003C, 0x80, 512, 0x0, 1, [F.vWptr_WPTR]⟩
  | .vStat => ⟨0x3E100040, 0x80, 512, 0x0, 1, [F.vStat_PEND, F.vStat_BAD_SRC, F.vStat_POISON, F.vStat_ADDR_ERR, F.vStat_STARVE, F.vStat_LATE, F.vStat_STATE]⟩
  | .vPos => ⟨0x3E100044, 0x80, 512, 0x0, 1, [F.vPos_POS]⟩
  | .vLevel => ⟨0x3E100048, 0x80, 512, 0x0, 1, [F.vLevel_LEVEL]⟩
  | .vFmnet => ⟨0x3E10004C, 0x80, 512, 0x0, 1, [F.vFmnet_L23, F.vFmnet_L13, F.vFmnet_L03, F.vFmnet_L12, F.vFmnet_L02, F.vFmnet_L01, F.vFmnet_CAR]⟩
  | .vFm => ⟨0x3E100060, 0x80, 512, 0x4, 4, [F.vFm_RATIO, F.vFm_LEVEL, F.vFm_ENVF]⟩
  | .bltOp => ⟨0x3C900000, 0x4, 1, 0x0, 1, [F.bltOp_FSIG, F.bltOp_FENCE, F.bltOp_DPM, F.bltOp_SPM, F.bltOp_DFMT, F.bltOp_SFMT, F.bltOp_WM_EN, F.bltOp_OP]⟩
  | .bltSbase => ⟨0x3C900004, 0x4, 1, 0x0, 1, [F.bltSbase_ADDR]⟩
  | .bltSstride => ⟨0x3C900008, 0x4, 1, 0x0, 1, [F.bltSstride_STRIDE]⟩
  | .bltSxy => ⟨0x3C90000C, 0x4, 1, 0x0, 1, [F.bltSxy_Y, F.bltSxy_X]⟩
  | .bltDbase => ⟨0x3C900010, 0x4, 1, 0x0, 1, [F.bltDbase_ADDR]⟩
  | .bltDstride => ⟨0x3C900014, 0x4, 1, 0x0, 1, [F.bltDstride_STRIDE]⟩
  | .bltDxy => ⟨0x3C900018, 0x4, 1, 0x0, 1, [F.bltDxy_Y, F.bltDxy_X]⟩
  | .bltSize => ⟨0x3C90001C, 0x4, 1, 0x0, 1, [F.bltSize_HM1, F.bltSize_WM1]⟩
  | .bltFill => ⟨0x3C900020, 0x4, 1, 0x0, 1, [F.bltFill_VALUE]⟩
  | .bltPal => ⟨0x3C900024, 0x4, 1, 0x0, 1, [F.bltPal_BANK]⟩
  | .bltWmark => ⟨0x3C900028, 0x4, 1, 0x0, 1, [F.bltWmark_LINE]⟩
  | .bltPace => ⟨0x3C90002C, 0x4, 1, 0x0, 1, [F.bltPace_BURSTLOG, F.bltPace_DEAD]⟩
  | .bltGo => ⟨0x3C900030, 0x4, 1, 0x0, 1, [F.bltGo_ABORT, F.bltGo_GO]⟩
  | .bltStat => ⟨0x3C900040, 0x4, 1, 0x0, 1, [F.bltStat_BUSY, F.bltStat_QLEVEL, F.bltStat_OVERLAP, F.bltStat_BAD_FMT, F.bltStat_QFULL, F.bltStat_ERR, F.bltStat_POISON, F.bltStat_ABORTED, F.bltStat_WMARK, F.bltStat_DONE]⟩
  | .bltRow => ⟨0x3C900044, 0x4, 1, 0x0, 1, [F.bltRow_VALID, F.bltRow_LINE]⟩
  | .bltDonecnt => ⟨0x3C900048, 0x4, 1, 0x0, 1, [F.bltDonecnt_SAT, F.bltDonecnt_COUNT]⟩
  | .dmaBell => ⟨0x3C800004, 0x4, 1, 0x0, 1, [F.dmaBell_CHAN]⟩
  | .dmaStat => ⟨0x3C800008, 0x4, 1, 0x0, 1, [F.dmaStat_BUFUSE, F.dmaStat_INFLIGHT]⟩
  | .dmaDone => ⟨0x3C800100, 0x4, 32, 0x0, 1, [F.dmaDone_DONE]⟩
  | .dmaErr => ⟨0x3C800180, 0x4, 32, 0x0, 1, [F.dmaErr_ERR]⟩
  | .dmaTask => ⟨0x3C800200, 0x4, 64, 0x0, 1, [F.dmaTask_EN, F.dmaTask_CHAN]⟩
  | .dmacCfg => ⟨0x3C810000, 0x40, 1024, 0x0, 1, [F.dmacCfg_BURSTM1, F.dmacCfg_MAXOUTM1, F.dmacCfg_PRIO, F.dmacCfg_REQSRC]⟩
  | .dmacHi => ⟨0x3C810004, 0x40, 1024, 0x0, 1, [F.dmacHi_MARK]⟩
  | .dmacLo => ⟨0x3C810008, 0x40, 1024, 0x0, 1, [F.dmacLo_MARK]⟩
  | .dmacDesc => ⟨0x3C81000C, 0x40, 1024, 0x0, 1, [F.dmacDesc_ADDR]⟩
  | .dmacCmd => ⟨0x3C810010, 0x40, 1024, 0x0, 1, [F.dmacCmd_ABORT, F.dmacCmd_RESUME, F.dmacCmd_HALT, F.dmacCmd_START]⟩
  | .dmacStat => ⟨0x3C810014, 0x40, 1024, 0x0, 1, [F.dmacStat_STATE, F.dmacStat_CFG_REJ, F.dmacStat_CFG_ERR, F.dmacStat_DESC_POISON, F.dmacStat_DESC_ADDR, F.dmacStat_ERR, F.dmacStat_POISON, F.dmacStat_REQ, F.dmacStat_DONE]⟩
  | .dmacPos => ⟨0x3C810018, 0x40, 1024, 0x0, 1, [F.dmacPos_POS]⟩
  | .dmacDonecnt => ⟨0x3C81001C, 0x40, 1024, 0x0, 1, [F.dmacDonecnt_SAT, F.dmacDonecnt_COUNT]⟩
  | .coreCtrl => ⟨0x3C001000, 0x40, 8, 0x0, 1, [F.coreCtrl_RESET, F.coreCtrl_STEP, F.coreCtrl_HALT, F.coreCtrl_RUN]⟩
  | .coreStat => ⟨0x3C001004, 0x40, 8, 0x0, 1, [F.coreStat_PC, F.coreStat_HALT_BRK, F.coreStat_STEP_DONE, F.coreStat_STATE]⟩
  | .coreBrk => ⟨0x3C001008, 0x40, 8, 0x0, 1, [F.coreBrk_EN, F.coreBrk_ADDR]⟩
  | .intcSrc => ⟨0x3C300004, 0x4, 511, 0x0, 1, [F.intcSrc_TARGETS, F.intcSrc_PRIO]⟩
  | .intcPend => ⟨0x3C301000, 0x4, 16, 0x0, 1, [F.intcPend_PEND]⟩
  | .intcSwset => ⟨0x3C301040, 0x4, 1, 0x0, 1, [F.intcSwset_SRC]⟩
  | .intcPri => ⟨0x3C302000, 0x20, 8, 0x0, 1, [F.intcPri_PRI]⟩
  | .intcClaim => ⟨0x3C302004, 0x20, 8, 0x0, 1, [F.intcClaim_PREV, F.intcClaim_SRC]⟩
  | .intcStat => ⟨0x3C302008, 0x20, 8, 0x0, 1, [F.intcStat_REQ, F.intcStat_ASLEEP, F.intcStat_ELIG, F.intcStat_NEXT]⟩
  | .mbxTx => ⟨0x3C400000, 0x4, 16, 0x0, 1, [F.mbxTx_DATA]⟩
  | .mbxRx => ⟨0x3C400040, 0x4, 16, 0x0, 1, [F.mbxRx_DATA]⟩
  | .mbxMstat => ⟨0x3C400080, 0x4, 1, 0x0, 1, [F.mbxMstat_OP, F.mbxMstat_CHAN, F.mbxMstat_LEVEL, F.mbxMstat_CODE]⟩
  | .mbxSend => ⟨0x3C400084, 0x4, 1, 0x0, 1, [F.mbxSend_CHAN]⟩
  | .mbxRecv => ⟨0x3C400088, 0x4, 1, 0x0, 1, [F.mbxRecv_CHAN]⟩
  | .mbxChCfg => ⟨0x3C401000, 0x10, 288, 0x0, 1, [F.mbxChCfg_EN, F.mbxChCfg_RXID, F.mbxChCfg_TIMEOUT]⟩
  | .mbxChStat => ⟨0x3C401004, 0x10, 288, 0x0, 1, [F.mbxChStat_CFG_REJ, F.mbxChStat_FULL, F.mbxChStat_DENY, F.mbxChStat_TMO, F.mbxChStat_LEVEL]⟩
  | .mbxReady => ⟨0x3C403000, 0x40, 10, 0x4, 9, [F.mbxReady_READY]⟩
  | .mbxCptId => ⟨0x3C404000, 0x8, 32, 0x0, 1, [F.mbxCptId_VALID, F.mbxCptId_TXID, F.mbxCptId_RXID]⟩
  | .mbxCptTmo => ⟨0x3C404004, 0x8, 32, 0x0, 1, [F.mbxCptTmo_TIMEOUT]⟩
  | .mbxCptlock => ⟨0x3C404100, 0x4, 1, 0x0, 1, [F.mbxCptlock_LOCK_REJ, F.mbxCptlock_LOCKED]⟩
  | .fabCtrl => ⟨0x3C200000, 0x4, 1, 0x0, 1, [F.fabCtrl_SCRUB_EN, F.fabCtrl_SCRUBH]⟩
  | .fabCethr => ⟨0x3C200004, 0x4, 1, 0x0, 1, [F.fabCethr_THR]⟩
  | .fabStat => ⟨0x3C200008, 0x4, 1, 0x0, 1, [F.fabStat_ELOG_OVF, F.fabStat_SPARE_FAIL, F.fabStat_SPARE_DONE, F.fabStat_CE_HIGH, F.fabStat_UE]⟩
  | .fabElogW => ⟨0x3C200010, 0x4, 4, 0x0, 1, [F.fabElogW_W]⟩
  | .fabElogLevel => ⟨0x3C200020, 0x4, 1, 0x0, 1, [F.fabElogLevel_SAT, F.fabElogLevel_OVF, F.fabElogLevel_LEVEL]⟩
  | .fabElogPop => ⟨0x3C200024, 0x4, 1, 0x0, 1, [F.fabElogPop_POP]⟩
  | .fabSpareCmd => ⟨0x3C200040, 0x4, 1, 0x0, 1, [F.fabSpareCmd_GO, F.fabSpareCmd_ROW, F.fabSpareCmd_STORE]⟩
  | .fabSpareStat => ⟨0x3C200044, 0x4, 1, 0x0, 1, [F.fabSpareStat_BUSY, F.fabSpareStat_PHASE, F.fabSpareStat_REASON, F.fabSpareStat_PROGRESS]⟩
  | .fabMap => ⟨0x3C200100, 0x4, 28, 0x0, 1, [F.fabMap_PHYS]⟩
  | .fabFsrow => ⟨0x3C200180, 0x4, 16, 0x0, 1, [F.fabFsrow_USED]⟩
  | .fabCe => ⟨0x3C200200, 0x8, 64, 0x0, 1, [F.fabCe_SAT, F.fabCe_COUNT]⟩
  | .fabUe => ⟨0x3C200204, 0x8, 64, 0x0, 1, [F.fabUe_SAT, F.fabUe_COUNT]⟩
  | .fabInjLo => ⟨0x3C200400, 0x4, 1, 0x0, 1, [F.fabInjLo_ADDR]⟩
  | .fabInjHi => ⟨0x3C200404, 0x4, 1, 0x0, 1, [F.fabInjHi_KIND]⟩
  | .tbLo => ⟨0x3C500000, 0x4, 1, 0x0, 1, [F.tbLo_T]⟩
  | .tbHi => ⟨0x3C500004, 0x4, 1, 0x0, 1, [F.tbHi_T]⟩
  | .tbStat => ⟨0x3C500008, 0x4, 1, 0x0, 1, [F.tbStat_WRAP, F.tbStat_REF_LOST, F.tbStat_PLL_LOCK, F.tbStat_REFSRC]⟩
  | .cmpCtrl => ⟨0x3C510000, 0x20, 256, 0x0, 1, [F.cmpCtrl_DISARM, F.cmpCtrl_ACT, F.cmpCtrl_PAIR]⟩
  | .cmpValLo => ⟨0x3C510004, 0x20, 256, 0x0, 1, [F.cmpValLo_V]⟩
  | .cmpValHi => ⟨0x3C510008, 0x20, 256, 0x0, 1, [F.cmpValHi_V]⟩
  | .cmpPeriod => ⟨0x3C51000C, 0x20, 256, 0x0, 1, [F.cmpPeriod_PERIOD]⟩
  | .cmpStat => ⟨0x3C510010, 0x20, 256, 0x0, 1, [F.cmpStat_ARMED, F.cmpStat_OUT, F.cmpStat_LATE, F.cmpStat_FIRED]⟩
  | .timLatewin => ⟨0x3C518000, 0x4, 1, 0x0, 1, [F.timLatewin_WIN]⟩
  | .timFired => ⟨0x3C518100, 0x4, 8, 0x0, 1, [F.timFired_FIRED]⟩
  | .intCtrl => ⟨0x3C520000, 0x20, 64, 0x0, 1, [F.intCtrl_PRE, F.intCtrl_TASKACT, F.intCtrl_MODE]⟩
  | .intReload => ⟨0x3C520004, 0x20, 64, 0x0, 1, [F.intReload_RELOAD]⟩
  | .intCount => ⟨0x3C520008, 0x20, 64, 0x0, 1, [F.intCount_COUNT]⟩
  | .intCmd => ⟨0x3C52000C, 0x20, 64, 0x0, 1, [F.intCmd_LOAD, F.intCmd_STOP, F.intCmd_CONT, F.intCmd_START]⟩
  | .intStat => ⟨0x3C520010, 0x20, 64, 0x0, 1, [F.intStat_RUNNING, F.intStat_CFG_ERR, F.intStat_ZERO]⟩
  | .capCtrl => ⟨0x3C580000, 0x40, 64, 0x0, 1, [F.capCtrl_EN, F.capCtrl_KIND, F.capCtrl_EDGE, F.capCtrl_BIND, F.capCtrl_HEAD, F.capCtrl_FILT, F.capCtrl_PORT]⟩
  | .capOffs => ⟨0x3C580004, 0x40, 64, 0x0, 1, [F.capOffs_OFFS]⟩
  | .capLo => ⟨0x3C580008, 0x40, 64, 0x0, 1, [F.capLo_T]⟩
  | .capHi => ⟨0x3C58000C, 0x40, 64, 0x0, 1, [F.capHi_T]⟩
  | .capStatus => ⟨0x3C580010, 0x40, 64, 0x0, 1, [F.capStatus_SEQ, F.capStatus_OOR, F.capStatus_OVR, F.capStatus_NEW]⟩
  | .capPos => ⟨0x3C580014, 0x40, 64, 0x0, 1, [F.capPos_BLANK, F.capPos_X, F.capPos_Y]⟩
  | .capPfrm => ⟨0x3C580018, 0x40, 64, 0x0, 1, [F.capPfrm_FRAME]⟩
  | .capNew => ⟨0x3C5F0000, 0x4, 2, 0x0, 1, [F.capNew_NEW]⟩
  | .adcCtrl => ⟨0x3F800000, 0x4, 1, 0x0, 1, [F.adcCtrl_EN, F.adcCtrl_TRIG, F.adcCtrl_LENM1]⟩
  | .adcSeq => ⟨0x3F800004, 0x4, 2, 0x0, 1, [F.adcSeq_CH]⟩
  | .adcCmd => ⟨0x3F80000C, 0x4, 1, 0x0, 1, [F.adcCmd_STOP, F.adcCmd_START]⟩
  | .adcFifo => ⟨0x3F800010, 0x4, 1, 0x0, 1, [F.adcFifo_WORD]⟩
  | .adcLevel => ⟨0x3F800014, 0x4, 1, 0x0, 1, [F.adcLevel_LEVEL]⟩
  | .adcWin => ⟨0x3F800018, 0x4, 1, 0x0, 1, [F.adcWin_HI, F.adcWin_LO]⟩
  | .adcWinen => ⟨0x3F80001C, 0x4, 1, 0x0, 1, [F.adcWinen_EN]⟩
  | .adcStat => ⟨0x3F800020, 0x4, 1, 0x0, 1, [F.adcStat_NOTANA, F.adcStat_TRIG_LOST, F.adcStat_LIMIT, F.adcStat_OVR, F.adcStat_READY, F.adcStat_BUSY]⟩
  | .adcOvrcnt => ⟨0x3F800024, 0x4, 1, 0x0, 1, [F.adcOvrcnt_SAT, F.adcOvrcnt_COUNT]⟩
  | .adcSstampLo => ⟨0x3F800028, 0x4, 1, 0x0, 1, [F.adcSstampLo_T]⟩
  | .adcSstampHi => ⟨0x3F80002C, 0x4, 1, 0x0, 1, [F.adcSstampHi_T]⟩
  | .adcFifomark => ⟨0x3F800030, 0x4, 1, 0x0, 1, [F.adcFifomark_MARK]⟩
  | .evfTask => ⟨0x3C600000, 0x4, 512, 0x0, 1, [F.evfTask_EN, F.evfTask_COUNT, F.evfTask_GATE, F.evfTask_GINV, F.evfTask_GFLAG, F.evfTask_SRC]⟩
  | .evfTstat => ⟨0x3C601000, 0x4, 512, 0x0, 1, [F.evfTstat_SAT, F.evfTstat_PEND, F.evfTstat_MERGE]⟩
  | .evfFlag => ⟨0x3C602000, 0x4, 32, 0x0, 1, [F.evfFlag_VAL, F.evfFlag_CLRSRC, F.evfFlag_SETSRC]⟩
  | .evfSwtrig => ⟨0x3C603000, 0x4, 1, 0x0, 1, [F.evfSwtrig_TASK]⟩
  | .evfSwprod => ⟨0x3C603004, 0x4, 1, 0x0, 1, [F.evfSwprod_ANY]⟩
  | .evfCfg => ⟨0x3C603008, 0x4, 1, 0x0, 1, [F.evfCfg_HOPMAX]⟩
  | .evfStat => ⟨0x3C60300C, 0x4, 1, 0x0, 1, [F.evfStat_LASTSRC, F.evfStat_LOOP]⟩
  | .evfLoopcnt => ⟨0x3C603010, 0x4, 1, 0x0, 1, [F.evfLoopcnt_SAT, F.evfLoopcnt_COUNT]⟩
  | .pinCfg => ⟨0x3C700000, 0x4, 1024, 0x0, 1, [F.pinCfg_WAKEPOL, F.pinCfg_WAKE, F.pinCfg_PARK, F.pinCfg_DRIVE, F.pinCfg_SLOW, F.pinCfg_TTL, F.pinCfg_OD, F.pinCfg_PULL, F.pinCfg_FUNC]⟩
  | .pinData => ⟨0x3C704000, 0x20, 32, 0x0, 1, [F.pinData_DATA]⟩
  | .pinOe => ⟨0x3C704004, 0x20, 32, 0x0, 1, [F.pinOe_OE]⟩
  | .pinIn => ⟨0x3C704008, 0x20, 32, 0x0, 1, [F.pinIn_IN]⟩
  | .pinSet => ⟨0x3C70400C, 0x20, 32, 0x0, 1, [F.pinSet_SET]⟩
  | .pinClr => ⟨0x3C704010, 0x20, 32, 0x0, 1, [F.pinClr_CLR]⟩
  | .pinTgl => ⟨0x3C704014, 0x20, 32, 0x0, 1, [F.pinTgl_TGL]⟩
  | .pinLocked => ⟨0x3C704018, 0x20, 32, 0x0, 1, [F.pinLocked_LOCKED]⟩
  | .pinLockrej => ⟨0x3C70401C, 0x20, 32, 0x0, 1, [F.pinLockrej_REJ]⟩
  | .pinBank => ⟨0x3C705000, 0x4, 32, 0x0, 1, [F.pinBank_VIO_ERR, F.pinBank_VIO_OK, F.pinBank_VSEL]⟩
  | .pinLockkey => ⟨0x3C706000, 0x4, 1, 0x0, 1, [F.pinLockkey_KEY, F.pinLockkey_PORT]⟩
  | .pinStat => ⟨0x3C706004, 0x4, 1, 0x0, 1, [F.pinStat_VIO, F.pinStat_LOCK_SEQERR, F.pinStat_PARKED]⟩
  | .pinUnpark => ⟨0x3C706008, 0x4, 1, 0x0, 1, [F.pinUnpark_GO]⟩
  | .pinEv => ⟨0x3C706100, 0x4, 16, 0x0, 1, [F.pinEv_EN, F.pinEv_EDGE, F.pinEv_FILT, F.pinEv_PORT]⟩
  | .uartCfg => ⟨0x3C740000, 0x40, 16, 0x0, 1, [F.uartCfg_EN, F.uartCfg_RTSCTS, F.uartCfg_PARITY, F.uartCfg_STOP2, F.uartCfg_D7]⟩
  | .uartDiv => ⟨0x3C740004, 0x40, 16, 0x0, 1, [F.uartDiv_DIV]⟩
  | .uartData => ⟨0x3C740008, 0x40, 16, 0x0, 1, [F.uartData_DATA]⟩
  | .uartStat => ⟨0x3C74000C, 0x40, 16, 0x0, 1, [F.uartStat_TXLVL, F.uartStat_RXLVL, F.uartStat_BUSY, F.uartStat_TXOVR, F.uartStat_RXOVR, F.uartStat_UNDER, F.uartStat_NACK, F.uartStat_ARB, F.uartStat_FRAME]⟩
  | .spiCfg => ⟨0x3C740400, 0x40, 8, 0x0, 1, [F.spiCfg_EN, F.spiCfg_TARGET, F.spiCfg_WIDTH, F.spiCfg_LSBF, F.spiCfg_CPOL, F.spiCfg_CPHA, F.spiCfg_CS]⟩
  | .spiDiv => ⟨0x3C740404, 0x40, 8, 0x0, 1, [F.spiDiv_HALF]⟩
  | .spiData => ⟨0x3C740408, 0x40, 8, 0x0, 1, [F.spiData_DATA]⟩
  | .spiStat => ⟨0x3C74040C, 0x40, 8, 0x0, 1, [F.spiStat_TXLVL, F.spiStat_RXLVL, F.spiStat_BUSY, F.spiStat_TXOVR, F.spiStat_RXOVR, F.spiStat_UNDER, F.spiStat_NACK, F.spiStat_ARB, F.spiStat_FRAME]⟩
  | .i2cCfg => ⟨0x3C740600, 0x40, 8, 0x0, 1, [F.i2cCfg_EN, F.i2cCfg_TARGET, F.i2cCfg_FAST, F.i2cCfg_ADDR]⟩
  | .i2cData => ⟨0x3C740608, 0x40, 8, 0x0, 1, [F.i2cData_DATA]⟩
  | .i2cStat => ⟨0x3C74060C, 0x40, 8, 0x0, 1, [F.i2cStat_TXLVL, F.i2cStat_RXLVL, F.i2cStat_BUSY, F.i2cStat_TXOVR, F.i2cStat_RXOVR, F.i2cStat_UNDER, F.i2cStat_NACK, F.i2cStat_ARB, F.i2cStat_FRAME]⟩
  | .psqCtrl => ⟨0x3C780000, 0x800, 64, 0x0, 1, [F.psqCtrl_EN, F.psqCtrl_SHDIR, F.psqCtrl_ENTRY]⟩
  | .psqGroup => ⟨0x3C780004, 0x800, 64, 0x0, 1, [F.psqGroup_COUNTM1, F.psqGroup_BASE]⟩
  | .psqCmd => ⟨0x3C780008, 0x800, 64, 0x0, 1, [F.psqCmd_FLUSH, F.psqCmd_RESUME, F.psqCmd_HALT, F.psqCmd_RESTART]⟩
  | .psqStat => ⟨0x3C78000C, 0x800, 64, 0x0, 1, [F.psqStat_TASKPEND, F.psqStat_BAD_INST, F.psqStat_CFG_ERR, F.psqStat_PROG_REJ, F.psqStat_LATE, F.psqStat_OVERRUN, F.psqStat_UNDERRUN, F.psqStat_PC, F.psqStat_STATE]⟩
  | .psqSr => ⟨0x3C780010, 0x800, 64, 0x0, 1, [F.psqSr_SR]⟩
  | .psqSc => ⟨0x3C780014, 0x800, 64, 0x0, 1, [F.psqSc_SC]⟩
  | .psqDr => ⟨0x3C780018, 0x800, 64, 0x0, 1, [F.psqDr_DR]⟩
  | .psqLc => ⟨0x3C78001C, 0x800, 64, 0x0, 1, [F.psqLc_LC]⟩
  | .psqTrLo => ⟨0x3C780020, 0x800, 64, 0x0, 1, [F.psqTrLo_TR]⟩
  | .psqTrHi => ⟨0x3C780024, 0x800, 64, 0x0, 1, [F.psqTrHi_TR]⟩
  | .psqCapLo => ⟨0x3C780028, 0x800, 64, 0x0, 1, [F.psqCapLo_CAP]⟩
  | .psqCapHi => ⟨0x3C78002C, 0x800, 64, 0x0, 1, [F.psqCapHi_CAP]⟩
  | .psqOutv => ⟨0x3C780030, 0x800, 64, 0x0, 1, [F.psqOutv_OUTV]⟩
  | .psqOev => ⟨0x3C780034, 0x800, 64, 0x0, 1, [F.psqOev_OEV]⟩
  | .psqLevel => ⟨0x3C780038, 0x800, 64, 0x0, 1, [F.psqLevel_TXFREE, F.psqLevel_RXHELD]⟩
  | .psqIdle => ⟨0x3C78003C, 0x800, 64, 0x0, 1, [F.psqIdle_IDLE]⟩
  | .psqTxf => ⟨0x3C780040, 0x800, 64, 0x0, 1, [F.psqTxf_DATA]⟩
  | .psqRxf => ⟨0x3C780044, 0x800, 64, 0x0, 1, [F.psqRxf_DATA]⟩
  | .psqProg => ⟨0x3C780200, 0x800, 64, 0x4, 128, [F.psqProg_INST]⟩
  | .lnkCfg => ⟨0x3E800000, 0x4, 1, 0x0, 1, [F.lnkCfg_ROLE, F.lnkCfg_TOPO, F.lnkCfg_WM1, F.lnkCfg_HM1, F.lnkCfg_ROOT]⟩
  | .lnkBcast => ⟨0x3E800004, 0x4, 1, 0x0, 1, [F.lnkBcast_BCEN, F.lnkBcast_BCSELF, F.lnkBcast_BCCHIP]⟩
  | .lnkStat => ⟨0x3E800008, 0x4, 1, 0x0, 1, [F.lnkStat_REROUTE, F.lnkStat_AHEAD, F.lnkStat_ALIGN_LOST, F.lnkStat_FORM_TMO, F.lnkStat_ALIGNED, F.lnkStat_FORMED]⟩
  | .lnkTerr => ⟨0x3E80000C, 0x4, 1, 0x0, 1, [F.lnkTerr_THETA]⟩
  | .lnkParent => ⟨0x3E800010, 0x4, 1, 0x0, 1, [F.lnkParent_VALID, F.lnkParent_LINK, F.lnkParent_HOPS, F.lnkParent_CHIP]⟩
  | .lnkFormtmo => ⟨0x3E800014, 0x4, 1, 0x0, 1, [F.lnkFormtmo_MS]⟩
  | .lnkRoute => ⟨0x3E804000, 0x4, 1024, 0x0, 1, [F.lnkRoute_VALID, F.lnkRoute_LINK]⟩
  | .lnklCtrl => ⟨0x3E801000, 0x100, 4, 0x0, 1, [F.lnklCtrl_EN, F.lnklCtrl_RETRAIN, F.lnklCtrl_SPARE_EN, F.lnklCtrl_RETRYMAX, F.lnklCtrl_LANETHR]⟩
  | .lnklStat => ⟨0x3E801004, 0x100, 4, 0x0, 1, [F.lnklStat_STATE, F.lnklStat_WIDTH, F.lnklStat_LANES, F.lnklStat_PEER_ERR, F.lnklStat_WIDTH_DN, F.lnklStat_SPARED, F.lnklStat_DOWN, F.lnklStat_RETRAINED, F.lnklStat_RETRY, F.lnklStat_CRC]⟩
  | .lnklPeer => ⟨0x3E801008, 0x100, 4, 0x0, 1, [F.lnklPeer_VALID, F.lnklPeer_CHIP]⟩
  | .lnklDelay => ⟨0x3E80100C, 0x100, 4, 0x0, 1, [F.lnklDelay_DELAY]⟩
  | .lnklAsym => ⟨0x3E801010, 0x100, 4, 0x0, 1, [F.lnklAsym_ASYM]⟩
  | .lnklRetrycnt => ⟨0x3E801014, 0x100, 4, 0x0, 1, [F.lnklRetrycnt_SAT, F.lnklRetrycnt_COUNT]⟩
  | .lnklCrccnt => ⟨0x3E801018, 0x100, 4, 0x0, 1, [F.lnklCrccnt_SAT, F.lnklCrccnt_COUNT]⟩
  | .sysRstcause => ⟨0x3C000000, 0x4, 1, 0x0, 1, [F.sysRstcause_PERST, F.sysRstcause_FOOT, F.sysRstcause_WDOG, F.sysRstcause_KEYSTONE, F.sysRstcause_COLD, F.sysRstcause_BALL, F.sysRstcause_POR]⟩
  | .sysReset => ⟨0x3C000004, 0x4, 1, 0x0, 1, [F.sysReset_KEY, F.sysReset_KIND]⟩
  | .sysPark => ⟨0x3C000008, 0x4, 1, 0x0, 1, [F.sysPark_GO]⟩
  | .sysBoot => ⟨0x3C000010, 0x4, 1, 0x0, 1, [F.sysBoot_STATE, F.sysBoot_FALLBACK, F.sysBoot_LEDGER_BAD, F.sysBoot_COPY]⟩
  | .sysBooterr => ⟨0x3C000014, 0x4, 1, 0x0, 1, [F.sysBooterr_REASON1, F.sysBooterr_REASON0]⟩
  | .sysWdogCtrl => ⟨0x3C000020, 0x4, 1, 0x0, 1, [F.sysWdogCtrl_EN, F.sysWdogCtrl_TIMEOUT]⟩
  | .sysWdogKick => ⟨0x3C000024, 0x4, 1, 0x0, 1, [F.sysWdogKick_KEY]⟩
  | .sysWdogStat => ⟨0x3C000028, 0x4, 1, 0x0, 1, [F.sysWdogStat_KICK_ERR, F.sysWdogStat_LEFT]⟩
  | .sysSupply => ⟨0x3C00002C, 0x4, 1, 0x0, 1, [F.sysSupply_STORE_ZERO, F.sysSupply_LOST_VDAC, F.sysSupply_LOST_VSER12, F.sysSupply_LOST_VSER09, F.sysSupply_LOST_VMEM, F.sysSupply_LOST_VCORE, F.sysSupply_VDAC_OK, F.sysSupply_VSER12_OK, F.sysSupply_VSER09_OK, F.sysSupply_VMEM_OK, F.sysSupply_VCORE_OK]⟩
  | .hstBfAddr => ⟨0x3F000800, 0x4, 1, 0x0, 1, [F.hstBfAddr_ADDR]⟩
  | .hstBfCmd => ⟨0x3F000804, 0x4, 1, 0x0, 1, [F.hstBfCmd_CMD]⟩
  | .hstBfStat => ⟨0x3F000808, 0x4, 1, 0x0, 1, [F.hstBfStat_BUSY, F.hstBfStat_FAIL, F.hstBfStat_BUSY_REJ, F.hstBfStat_DENY, F.hstBfStat_DONE]⟩
  | .hstBfBuf => ⟨0x3F000900, 0x4, 64, 0x0, 1, [F.hstBfBuf_DATA]⟩
  | .hstId => ⟨0x3F000000, 0x4, 1, 0x0, 1, [F.hstId_PART, F.hstId_STEP]⟩
  | .hstChip => ⟨0x3F000004, 0x4, 1, 0x0, 1, [F.hstChip_OVR, F.hstChip_CHIP]⟩
  | .hstDigest => ⟨0x3F000040, 0x4, 8, 0x0, 1, [F.hstDigest_D]⟩
  | .hstObcfg => ⟨0x3F000100, 0x4, 1, 0x0, 1, [F.hstObcfg_OBEN, F.hstObcfg_OBCHIP]⟩
  | .hstWinchip => ⟨0x3F000104, 0x4, 1, 0x0, 1, [F.hstWinchip_CHIP]⟩
  | .hstObwinLo => ⟨0x3F000200, 0x8, 64, 0x0, 1, [F.hstObwinLo_ADDR, F.hstObwinLo_EN]⟩
  | .hstObwinHi => ⟨0x3F000204, 0x8, 64, 0x0, 1, [F.hstObwinHi_ADDR]⟩
  | .hstF0vec => ⟨0x3F000400, 0x4, 64, 0x0, 1, [F.hstF0vec_EN, F.hstF0vec_SRC]⟩
  | .hstF1vec => ⟨0x3F000500, 0x4, 64, 0x0, 1, [F.hstF1vec_EN, F.hstF1vec_SRC]⟩
  | .hstLtol => ⟨0x3F000700, 0x4, 1, 0x0, 1, [F.hstLtol_EN, F.hstLtol_US]⟩
  | .psmCtrl => ⟨0x3C100000, 0x4, 1, 0x0, 1, [F.psmCtrl_AUTO, F.psmCtrl_REARM, F.psmCtrl_MAXSTATE, F.psmCtrl_ENTRY_DLY, F.psmCtrl_GATE_DLY]⟩
  | .psmStat => ⟨0x3C100004, 0x4, 1, 0x0, 1, [F.psmStat_SUSP, F.psmStat_THERM_TRIP, F.psmStat_THERM_HI, F.psmStat_PACE_LOW, F.psmStat_PMB_ERR, F.psmStat_ENTRY_ABORT, F.psmStat_TARGET, F.psmStat_STATE]⟩
  | .psmBlock => ⟨0x3C100008, 0x4, 1, 0x0, 1, [F.psmBlock_BLOCK]⟩
  | .psmWake => ⟨0x3C10000C, 0x4, 1, 0x0, 1, [F.psmWake_GO]⟩
  | .psmWakecause => ⟨0x3C100010, 0x4, 1, 0x0, 1, [F.psmWakecause_PORT, F.psmWakecause_CAUSE]⟩
  | .psmWaketLo => ⟨0x3C100014, 0x4, 1, 0x0, 1, [F.psmWaketLo_T]⟩
  | .psmWaketHi => ⟨0x3C100018, 0x4, 1, 0x0, 1, [F.psmWaketHi_T]⟩
  | .psmLtolEff => ⟨0x3C10001C, 0x4, 1, 0x0, 1, [F.psmLtolEff_NONE, F.psmLtolEff_US]⟩
  | .psmCoreLtol => ⟨0x3C100020, 0x4, 8, 0x0, 1, [F.psmCoreLtol_EN, F.psmCoreLtol_US]⟩
  | .psmLtolch => ⟨0x3C100040, 0x4, 1, 0x0, 1, [F.psmLtolch_EN, F.psmLtolch_CHAN]⟩
  | .psmMbxltol => ⟨0x3C100044, 0x4, 1, 0x0, 1, [F.psmMbxltol_VALID, F.psmMbxltol_US]⟩
  | .psmAlarmLo => ⟨0x3C100048, 0x4, 1, 0x0, 1, [F.psmAlarmLo_T]⟩
  | .psmAlarmHi => ⟨0x3C10004C, 0x4, 1, 0x0, 1, [F.psmAlarmHi_T]⟩
  | .psmAlarmCtrl => ⟨0x3C100050, 0x4, 1, 0x0, 1, [F.psmAlarmCtrl_FIRED, F.psmAlarmCtrl_EN]⟩
  | .psmS4lat => ⟨0x3C100054, 0x4, 1, 0x0, 1, [F.psmS4lat_US]⟩
  | .psmOffcnt => ⟨0x3C100058, 0x4, 1, 0x0, 1, [F.psmOffcnt_SAT, F.psmOffcnt_COUNT]⟩
  | .psmAvs => ⟨0x3C100060, 0x4, 1, 0x0, 1, [F.psmAvs_AVS_EN, F.psmAvs_MARGIN, F.psmAvs_HYST]⟩
  | .psmVlim => ⟨0x3C100064, 0x4, 1, 0x0, 1, [F.psmVlim_VMAX, F.psmVlim_VMIN]⟩
  | .psmVcore => ⟨0x3C100068, 0x4, 1, 0x0, 1, [F.psmVcore_REQ]⟩
  | .psmTemp => ⟨0x3C10006C, 0x4, 1, 0x0, 1, [F.psmTemp_VALID, F.psmTemp_TJ]⟩
  | .psmPaceref => ⟨0x3C100070, 0x4, 1, 0x0, 1, [F.psmPaceref_G]⟩
  | .psmPace => ⟨0x3C100080, 0x4, 16, 0x0, 1, [F.psmPace_WEAR, F.psmPace_PACE]⟩
  | .psmDom => ⟨0x3C100100, 0x4, 3, 0x0, 1, [F.psmDom_ON]⟩
  | .psmDomoff => ⟨0x3C100120, 0x4, 1, 0x0, 1, [F.psmDomoff_GO, F.psmDomoff_DOM]⟩
  | .asyReq => ⟨0x3C180000, 0x4, 1, 0x0, 1, [F.asyReq_GO, F.asyReq_ABORT, F.asyReq_CLASS, F.asyReq_INDEX]⟩
  | .asyStat => ⟨0x3C180004, 0x4, 1, 0x0, 1, [F.asyStat_BUSY, F.asyStat_ASSAY_WAIT, F.asyStat_MAINT, F.asyStat_DEGRADED, F.asyStat_QLEVEL, F.asyStat_CLASS, F.asyStat_QFULL, F.asyStat_FAIL, F.asyStat_RESULT, F.asyStat_LGR, F.asyStat_DENY, F.asyStat_INDEX]⟩
  | .asyResW0 => ⟨0x3C180010, 0x4, 1, 0x0, 1, [F.asyResW0_CODE, F.asyResW0_CLASS, F.asyResW0_INDEX, F.asyResW0_PHYS]⟩
  | .asyResW1 => ⟨0x3C180014, 0x4, 1, 0x0, 1, [F.asyResW1_TIME]⟩
  | .asyResW2 => ⟨0x3C180018, 0x4, 1, 0x0, 1, [F.asyResW2_DETAIL]⟩
  | .asyResPop => ⟨0x3C18001C, 0x4, 1, 0x0, 1, [F.asyResPop_POP]⟩
  | .asyLgrW => ⟨0x3C180020, 0x4, 8, 0x0, 1, [F.asyLgrW_ENTRY]⟩
  | .asyLgrPop => ⟨0x3C180040, 0x4, 1, 0x0, 1, [F.asyLgrPop_POP]⟩
  | .asyLgrLevel => ⟨0x3C180044, 0x4, 1, 0x0, 1, [F.asyLgrLevel_SAT, F.asyLgrLevel_OVF, F.asyLgrLevel_LEVEL]⟩
  | .asyMaint => ⟨0x3C180050, 0x4, 1, 0x0, 1, [F.asyMaint_KEY, F.asyMaint_ENTER]⟩
  | .asyDieidLo => ⟨0x3C180060, 0x4, 1, 0x0, 1, [F.asyDieidLo_ID]⟩
  | .asyDieidHi => ⟨0x3C180064, 0x4, 1, 0x0, 1, [F.asyDieidHi_ID]⟩
  | .asySpares => ⟨0x3C180070, 0x4, 1, 0x0, 1, [F.asySpares_LINKS, F.asySpares_PSQ, F.asySpares_VOICE, F.asySpares_BANK, F.asySpares_LANE, F.asySpares_CORE]⟩

/-- The register blocks of Table 1.4. -/
inductive Block where
  | sys | psm | asy | fab | intc | mbx | tb | tim | cap | evf | pin | psq | dma | blt | cps | lay | hmk | lpe | sh | aud | lnk | hst | adc
deriving DecidableEq, Repr, Inhabited

/-- The block a local register address lies in, none for a reserved range (R25, Table 1.4). -/
def Block.of (a : Nat) : Option Block :=
  if 0x3C000000 ≤ a ∧ a < 0x3C100000 then some .sys
  else if 0x3C100000 ≤ a ∧ a < 0x3C180000 then some .psm
  else if 0x3C180000 ≤ a ∧ a < 0x3C200000 then some .asy
  else if 0x3C200000 ≤ a ∧ a < 0x3C300000 then some .fab
  else if 0x3C300000 ≤ a ∧ a < 0x3C400000 then some .intc
  else if 0x3C400000 ≤ a ∧ a < 0x3C500000 then some .mbx
  else if 0x3C500000 ≤ a ∧ a < 0x3C510000 then some .tb
  else if 0x3C510000 ≤ a ∧ a < 0x3C580000 then some .tim
  else if 0x3C580000 ≤ a ∧ a < 0x3C600000 then some .cap
  else if 0x3C600000 ≤ a ∧ a < 0x3C700000 then some .evf
  else if 0x3C700000 ≤ a ∧ a < 0x3C780000 then some .pin
  else if 0x3C780000 ≤ a ∧ a < 0x3C800000 then some .psq
  else if 0x3C800000 ≤ a ∧ a < 0x3C900000 then some .dma
  else if 0x3C900000 ≤ a ∧ a < 0x3CA00000 then some .blt
  else if 0x3D000000 ≤ a ∧ a < 0x3D100000 then some .cps
  else if 0x3D100000 ≤ a ∧ a < 0x3D300000 then some .lay
  else if 0x3D300000 ≤ a ∧ a < 0x3D500000 then some .hmk
  else if 0x3D500000 ≤ a ∧ a < 0x3D600000 then some .lpe
  else if 0x3D800000 ≤ a ∧ a < 0x3E000000 then some .sh
  else if 0x3E000000 ≤ a ∧ a < 0x3E800000 then some .aud
  else if 0x3E800000 ≤ a ∧ a < 0x3F000000 then some .lnk
  else if 0x3F000000 ≤ a ∧ a < 0x3F800000 then some .hst
  else if 0x3F800000 ≤ a ∧ a < 0x40000000 then some .adc
  else none

/-- The register families of a block. -/
def Block.ids : Block → List RegId
  | .sys => [.coreCtrl, .coreStat, .coreBrk, .sysRstcause, .sysReset, .sysPark, .sysBoot, .sysBooterr, .sysWdogCtrl, .sysWdogKick, .sysWdogStat, .sysSupply]
  | .psm => [.psmCtrl, .psmStat, .psmBlock, .psmWake, .psmWakecause, .psmWaketLo, .psmWaketHi, .psmLtolEff, .psmCoreLtol, .psmLtolch, .psmMbxltol, .psmAlarmLo, .psmAlarmHi, .psmAlarmCtrl, .psmS4lat, .psmOffcnt, .psmAvs, .psmVlim, .psmVcore, .psmTemp, .psmPaceref, .psmPace, .psmDom, .psmDomoff]
  | .asy => [.asyReq, .asyStat, .asyResW0, .asyResW1, .asyResW2, .asyResPop, .asyLgrW, .asyLgrPop, .asyLgrLevel, .asyMaint, .asyDieidLo, .asyDieidHi, .asySpares]
  | .fab => [.fabCtrl, .fabCethr, .fabStat, .fabElogW, .fabElogLevel, .fabElogPop, .fabSpareCmd, .fabSpareStat, .fabMap, .fabFsrow, .fabCe, .fabUe, .fabInjLo, .fabInjHi]
  | .intc => [.intcSrc, .intcPend, .intcSwset, .intcPri, .intcClaim, .intcStat]
  | .mbx => [.mbxTx, .mbxRx, .mbxMstat, .mbxSend, .mbxRecv, .mbxChCfg, .mbxChStat, .mbxReady, .mbxCptId, .mbxCptTmo, .mbxCptlock]
  | .tb => [.tbLo, .tbHi, .tbStat]
  | .tim => [.cmpCtrl, .cmpValLo, .cmpValHi, .cmpPeriod, .cmpStat, .timLatewin, .timFired, .intCtrl, .intReload, .intCount, .intCmd, .intStat]
  | .cap => [.capCtrl, .capOffs, .capLo, .capHi, .capStatus, .capPos, .capPfrm, .capNew]
  | .evf => [.evfTask, .evfTstat, .evfFlag, .evfSwtrig, .evfSwprod, .evfCfg, .evfStat, .evfLoopcnt]
  | .pin => [.pinCfg, .pinData, .pinOe, .pinIn, .pinSet, .pinClr, .pinTgl, .pinLocked, .pinLockrej, .pinBank, .pinLockkey, .pinStat, .pinUnpark, .pinEv, .uartCfg, .uartDiv, .uartData, .uartStat, .spiCfg, .spiDiv, .spiData, .spiStat, .i2cCfg, .i2cData, .i2cStat]
  | .psq => [.psqCtrl, .psqGroup, .psqCmd, .psqStat, .psqSr, .psqSc, .psqDr, .psqLc, .psqTrLo, .psqTrHi, .psqCapLo, .psqCapHi, .psqOutv, .psqOev, .psqLevel, .psqIdle, .psqTxf, .psqRxf, .psqProg]
  | .dma => [.dmaBell, .dmaStat, .dmaDone, .dmaErr, .dmaTask, .dmacCfg, .dmacHi, .dmacLo, .dmacDesc, .dmacCmd, .dmacStat, .dmacPos, .dmacDonecnt]
  | .blt => [.bltOp, .bltSbase, .bltSstride, .bltSxy, .bltDbase, .bltDstride, .bltDxy, .bltSize, .bltFill, .bltPal, .bltWmark, .bltPace, .bltGo, .bltStat, .bltRow, .bltDonecnt]
  | .cps => [.cpsLane, .cpsLaneAct, .cpsFsig, .cpsFence, .cpsFlip, .cpsCtrl, .cpsBackdrop, .cpsPageA, .cpsPageB, .cpsIngot, .cpsTeeAddr, .cpsTeeAddr2, .cpsTeeStride, .cpsTeeX, .cpsTeeCfg, .cpsStat, .cpsUndercnt, .cpsFmisscnt, .cpsTeedropcnt, .cpsProgress, .cpsMinslack, .cpsCtrlAct]
  | .lay => [.layCtrl, .layAssign, .layFormat, .layMapBase, .layPatBase, .layBmpSize, .layBmpStride, .laySprRange, .layScrollX, .layScrollY, .layWinH, .layWinV, .layAlpha, .layPal, .layAffMtx, .layAffC, .layAffU0, .layAffV0, .layStat, .layDropcnt, .layAssignAct, .layFormatAct, .layMapBaseAct, .layPatBaseAct, .layBmpSizeAct, .layBmpStrideAct, .laySprRangeAct]
  | .hmk => [.hmkFrame, .hmkHstat, .hmkBlankcol, .hmkMislo, .hmkMishi, .hmkCfg, .hmkRectH, .hmkRectV, .hmkExp, .hmkHval0, .hmkHtag0, .hmkHval1, .hmkHtag1, .hmkLastc, .hmkLastcFrm, .hmkLasts, .hmkLastsFrm, .hmkStat, .hmkMiscnt]
  | .lpe => [.lpeCtrl, .lpeBase, .lpeStepmax, .lpeStat, .lpeOvercnt, .lpeStallcnt, .lpeLine, .lpeBaseAct]
  | .sh => [.shCtrl, .shFormat, .shHtime, .shHsync, .shVtime, .shVsync, .shPclk, .shLock, .shFaddr, .shFaddrAct, .shLmatch, .shTbepochLo, .shTbepochHi, .shTbper, .shGloffs, .shLutctrl, .shTbperHi, .shStat, .shStarvecnt, .shBeam, .shFrame, .shPherr, .shDotper, .shFstampLo, .shFstampHi, .shFstampFr, .shOut, .shDpcfg, .shDpstat, .shDpcmd, .shAuxctrl, .shAuxdata, .shAuxstat, .shAna, .shPar, .glCtrl, .glStat, .glFper, .glLines, .glFstampLo, .glFstampHi, .glFperHi, .shLut]
  | .aud => [.audCtrl, .audClk, .audEpochLo, .audEpochHi, .audScountLo, .audScountHi, .audBstampLo, .audBstampHi, .audStat, .audLatecnt, .audVend, .audVbus, .audVbusSatcnt, .audVbusSat, .effCtrl, .effMem, .effMix, .effStat, .effP, .effIn, .mbCtrl, .mbLim, .mbRel, .mbStat, .mbLimcnt, .mbSatcnt, .mbIn, .outCfg, .outStat, .outSlipcnt, .outSlot, .spdCfg, .spdStat, .spdSlipcnt, .spdCs, .spdSlot, .dpaCfg, .dpaStat, .dpaSlipcnt, .dpaSlot, .inCfg, .inStat, .inSlipcnt, .inRate, .cqCtrl, .cqBase, .cqWptr, .cqRptr, .cqStat, .cqSlipcnt, .vCtrl, .vAddr, .vStart, .vLoop, .vEnd, .vStep, .vEnv0, .vEnv1, .vLfo, .vOut, .vCmd, .vAtLo, .vAtHi, .vWptr, .vStat, .vPos, .vLevel, .vFmnet, .vFm]
  | .lnk => [.lnkCfg, .lnkBcast, .lnkStat, .lnkTerr, .lnkParent, .lnkFormtmo, .lnkRoute, .lnklCtrl, .lnklStat, .lnklPeer, .lnklDelay, .lnklAsym, .lnklRetrycnt, .lnklCrccnt]
  | .hst => [.hstBfAddr, .hstBfCmd, .hstBfStat, .hstBfBuf, .hstId, .hstChip, .hstDigest, .hstObcfg, .hstWinchip, .hstObwinLo, .hstObwinHi, .hstF0vec, .hstF1vec, .hstLtol]
  | .adc => [.adcCtrl, .adcSeq, .adcCmd, .adcFifo, .adcLevel, .adcWin, .adcWinen, .adcStat, .adcOvrcnt, .adcSstampLo, .adcSstampHi, .adcFifomark]

/-- The block of a family: where its base lies. -/
def RegId.block (r : RegId) : Block := (Block.of r.row.base).getD .sys

end Sys2Proof.Machine
end

