-- ==== Sys2Proof/Machine/Types.lean ====
section
/-! DEFINITION. The plain data types of the units' inner state: what the spec gives a unit beside its registers. -/

namespace Sys2Proof.Machine

/-! ### Fabric -/

/-- A master identity (R28): one of this package, or the pair of source chip and identity of a remote one, with the
lintel link it came over. -/
inductive Master where
  | own (id : Nat)
  | remote (link chip id : Nat)
deriving DecidableEq, Repr, Inhabited

/-- How an access ends (R348, Table 11.5). -/
inductive RespKind where
  | okay
  | poison
  | decode
  | domainOff
  | target
  | link
deriving DecidableEq, Repr, Inhabited

/-- Which engine waits for a response (none: the sender of the command). -/
inductive Owner where
  | none
  | dmaRead (chan seq : Nat)
  | dmaWrite (chan seq : Nat)
  | core (k n : Nat)
  | blit (row : Nat)
  /-- a tee write of a head's composed frame (R133) -/
  | tee (head frame : Nat)
  /-- the fence write that follows a whole teed frame (R133) -/
  | teeFence
  /-- access n of request `job` that came over a link -/
  | link (job n : Nat)
  /-- the sender's own part of broadcast `tag` -/
  | bcast (tag : Nat)
  /-- a request of host function f through a BAR -/
  | host (f : Nat)
  /-- the SMBus target -/
  | smb
deriving DecidableEq, Repr, Inhabited

/-- The response to one access, on its way to its master. -/
structure Resp where
  mst : Master
  owner : Owner
  kind : RespKind
  write : Bool
  addr : Nat
  size : Nat
  data : Nat
deriving DecidableEq, Repr, Inhabited

/-- An access not yet performed: held by a repair, or carried to another package. -/
structure Access where
  mst : Master
  owner : Owner
  write : Bool
  addr : Nat
  size : Nat
  data : Nat
  poison : Bool
deriving DecidableEq, Repr, Inhabited

/-- One record of the error log (Table 11.4). -/
structure ErrRec where
  kind : Nat
  master : Nat
  chip : Nat
  store : Nat
  addr : Nat
  time : Nat
deriving DecidableEq, Repr, Inhabited

/-- What a code unit of a store holds beside its data (R358, R550). -/
inductive Mark where
  | correctable
  | uncorrectable
  | poison
deriving DecidableEq, Repr, Inhabited

/-- A repair in progress (R367, R371). -/
structure Repair where
  store : Nat
  row : Nat
  spare : Nat
  /-- it is a rotation for assay: the released bank is tested, not given up (R505, R506) -/
  rot : Bool := false
deriving DecidableEq, Repr, Inhabited

/-! ### Events -/

/-- A produced event on its way: its producer, production instant and hop count, and the task inputs and flags that
selected it when it was produced (R402, R404). -/
structure Arrival where
  prod : Nat
  at_ : Nat
  hop : Nat
  tasks : List Nat
  setF : List Nat
  clrF : List Nat
deriving DecidableEq, Repr, Inhabited

/-! ### Scan heads -/

/-- A kept stamp: the pad time of pixel (0, 0) of a frame in 1/65,536 tk, and the frame (R198). -/
structure Stamp where
  time : Nat
  frame : Nat
deriving DecidableEq, Repr, Inhabited

/-- What a scan head holds beside its registers. -/
structure Head where
  /-- a start waits for its instant (R170) -/
  waiting : Bool := false
  /-- the earliest instant of a waiting start -/
  startAfter : Nat := 0
  /-- the waiting start leaves self-refresh, so the frame count goes on (R193) -/
  resume : Bool := false
  /-- self-refresh begins at the next latch instant (R192) -/
  psrArm : Bool := false
  /-- the lock source is lost and the head holds (R167) -/
  hold : Bool := false
  /-- the lock source's frame period in 1/64 tk when it was lost: the PLL keeps that frequency (R167) -/
  heldPer : Nat := 0
  /-- the dot period in 1/2^24 tk that the PLL holds since it lost lock, or 0 (R164) -/
  heldDot : Nat := 0
  /-- the instant of the last latch-line start, in 1/65,536 tk -/
  latchAt : Nat := 0
  /-- the stamp of the present frame -/
  cur : Option Stamp := none
  /-- the stamp of the previous frame -/
  prev : Option Stamp := none
  /-- the link waits to be trained (R187) -/
  trainReq : Bool := false
  /-- the sink's rate, encoded as DPCFG -/
  sinkRate : Nat := 0
  /-- the sink's lanes, encoded as DPCFG -/
  sinkLanes : Nat := 0
  /-- the sink reports PSR version 1 (R192) -/
  sinkPsr : Bool := false
  /-- DEFER replies taken by the AUX transaction that runs (R189) -/
  auxTries : Nat := 0
  /-- the instant from which its next reply is awaited (R189) -/
  auxAt : Nat := 0
  /-- the line that is read next (R14, R15) -/
  nextLine : Nat := 0
  /-- the line read last, and its pixels as they pass the scan tap -/
  lineNo : Nat := 0
  lineOut : List Nat := []
  /-- the two lines read before it -/
  back : List (Nat × List Nat) := []
  /-- the tick, plus 1, at which the event of each number was last raised (R176) -/
  fired : NStore Nat := []
deriving DecidableEq, Repr, Inhabited

/-- The genlock receiver (R168, R169): the last frame reference in 1/64 tk; the measured periods in 1/64 tk and lines of up
to three successive frames, newest first; the tick since which the reference is not stable. -/
structure Genlock where
  seen : Bool := false
  ref64 : Nat := 0
  frames : List (Nat × Nat) := []
  badSince : Nat := 0
deriving DecidableEq, Repr, Inhabited

/-! ### Compositor, line program engines, hallmarks -/

/-- The sources of one bound layer as a composed frame uses them: its number, slot, and the words of its source-class
registers. -/
structure LaySrc where
  k : Nat
  slot : Nat
  fmt : Nat
  map : Nat
  pat : Nat
  bsz : Nat
  bst : Nat
  spr : Nat
deriving DecidableEq, Repr, Inhabited

/-- One entry of a line write queue (R45). -/
inductive LWrite where
  /-- a value for layer k's line copy at offset o -/
  | set (k o v : Nat)
  /-- an addend for layer k's line copy at offset o -/
  | add (k o v : Nat)
  /-- a 4-byte write to the palette or matrix store -/
  | store (a v : Nat)
deriving DecidableEq, Repr, Inhabited

/-- A queued write with the composed frame and line it applies from. -/
structure LEntry where
  frame : Nat
  line : Nat
  w : LWrite
deriving DecidableEq, Repr, Inhabited

/-- The state of a line program engine (R81), and how far its frame's lines are released (R90, R97). -/
structure Lpe where
  running : Bool := false
  /-- the engine has begun composed frame `frame` of this run of the head -/
  begun : Bool := false
  frame : Nat := 0
  pc : Nat := 0
  line : Nat := 0
  counters : List Nat := [0, 0, 0, 0]
  tp : Nat := 0
  stack : List Nat := []
  wcount : Nat := 0
  overRun : Bool := false
  steps : Nat := 0
  /-- lines of `frame` released: those below this number -/
  released : Nat := 0
  /-- the line a held WAIT goes on to -/
  hold : Option Nat := none
  /-- a composed frame to begin when the engine ends the present one -/
  nextFrame : Option Nat := none
  /-- the write queue, oldest first -/
  queue : List LEntry := []
deriving DecidableEq, Repr, Inhabited

/-- A composed course that waits for its write-back or is being written back: the frame and course, its first line, and its
composed lines in the frame-store format; or a course of so many lines that was abandoned while an earlier one is being
written back, and ends after that one (R17, R115). -/
structure CourseBuf where
  frame : Nat
  course : Nat
  y0 : Nat
  lines : List (List Nat)
  gone : Option Nat := none
deriving DecidableEq, Repr, Inhabited

/-- The configuration of a hallmark region as a tap uses it. -/
structure RCfg where
  supv : Bool := false
  freeze : Bool := false
  blank : Bool := false
  mode : Nat := 0
  taps : Nat := 3
  en : Bool := false
  x0 : Nat := 0
  x1 : Nat := 0
  y0 : Nat := 0
  y1 : Nat := 0
deriving DecidableEq, Repr, Inhabited

/-- A tap's signature in the making: the CRC register, the next row, whether a course was abandoned. -/
structure TapRun where
  crc : Nat := 0xFFFFFFFF
  row : Nat := 0
  frame : Nat := 0
  skip : Bool := false
deriving DecidableEq, Repr, Inhabited

/-- What a hallmark region holds beside its registers. -/
structure Region where
  /-- the active copies of CFG and the rectangle (R148) -/
  act : RCfg := {}
  /-- the armed value and tag of each slot (R152) -/
  slot0 : Option (Nat × Nat) := none
  slot1 : Option (Nat × Nat) := none
  /-- the frame from which a compose or scan signature may be learnt -/
  learnC : Nat := 0
  learnS : Nat := 0
  /-- the frame numbers that reads of LASTC and LASTS latch (R145) -/
  frmC : Nat := 0
  frmS : Nat := 0
  /-- the frame from which the region is blanked, and whether that ends at the next latch line (R154) -/
  blankFrom : Option Nat := none
  blankEnd : Bool := false
  /-- the scan tap's signature in the making -/
  scan : TapRun := {}
deriving DecidableEq, Repr, Inhabited

/-- The active copies of a head's latch-class compositor registers that have no mirror (R107). -/
structure CpsAct where
  pageA : Nat := 0
  pageB : Nat := 0x800
  ingotSize : Nat := 0
  ingotBase : Nat := 0
  teeAddr : Nat := 0
  teeAddr2 : Nat := 0
  teeStride : Nat := 0
  teeX0 : Nat := 0
  teeX1 : Nat := 0
  teeFsig : Bool := false
  teePair : Bool := false
  teeFence : Nat := 0
  teeChip : Nat := 0
deriving DecidableEq, Repr, Inhabited

/-- A composed frame, as the latch instant that precedes it by one took it (R21): its number and mode, course height, first
byte in the frame store, what is enabled, the latch-class registers, the layers that hold a slot, the layers bound to the
head, the lanes that serve it, and the hallmark regions; and how far it
is: begun, its taps' signatures, whether a course was abandoned, the least slack in tk, and whether its tee copy is whole. -/
structure Frm where
  frame : Nat := 0
  mode : Nat := 0
  chLog2 : Nat := 2
  base : Nat := 0
  occ : Bool := false
  ingot : Bool := false
  tee : Bool := false
  act : CpsAct := {}
  set : List LaySrc := []
  bound : List Nat := []
  lanes : List Nat := []
  hmk : NStore RCfg := []
  begun : Bool := false
  taps : NStore TapRun := []
  bad : Bool := false
  slack : Option Nat := none
  teeWhole : Bool := false
deriving DecidableEq, Repr, Inhabited

/-- A whole teed frame whose fence waits for the responses of its writes (R133). -/
structure TeeFin where
  frame : Nat
  fence : Nat
  chip : Nat
deriving DecidableEq, Repr, Inhabited

/-- What the compositor holds for one head. -/
structure Comp where
  act : CpsAct := {}
  /-- the composed frames taken at latch instants and not finished, oldest first (R21) -/
  frms : List Frm := []
  /-- the composed frame and course that come next, or are being composed -/
  frame : Nat := 0
  course : Nat := 0
  /-- a course is being composed, and the next line of it -/
  composing : Bool := false
  line : Nat := 0
  /-- the lanes have been found waiting for the present line (R98) -/
  stalled : Bool := false
  /-- snapshots of the present course: CTRL words, backdrop, LUT, and the on-die stores (R46, R70, R73, R181) -/
  ctrls : NStore Nat := []
  backdrop : Nat := 0
  lutEn : Bool := false
  dither : Nat := 0
  lut : List (FKey × Nat) := []
  onDie : List Host.Cell := []
  onDieMarks : NStore Mark := []
  /-- what the present course has met: layer and poisoned code unit (R76) -/
  met : List (Nat × Nat) := []
  /-- course buffers: composed and waiting to be sealed, oldest first -/
  bufs : List CourseBuf := []
  /-- the lines composed of the present course, in order -/
  cur : List (List Nat) := []
  /-- composed frames finished -/
  finished : Nat := 0
  /-- the compositor stands still until the next latch line after a freeze (R156) -/
  frozenHold : Bool := false
  /-- ingot: its run, the course height of its frames, whether it is valid, and whether this frame writes it (R124, R125) -/
  ingotRun : List Nat := []
  ingotCh : Nat := 2
  ingotValid : Bool := false
  ingotWrite : Bool := false
  /-- tee: the writes without response of each frame, and the frames whose fence is due (R131 to R133) -/
  teeOut : NStore Nat := []
  teeFin : List TeeFin := []
deriving DecidableEq, Repr, Inhabited

/-! ### Time base units -/

/-- What a compare channel holds beside its registers: the staging copy of VAL_LO (R380), the instant from which it waits,
whether it is to be evaluated again at the tick after that instant, and the tick of its last firing (R382). -/
structure CmpSt where
  stage : Nat := 0
  since : Nat := 0
  again : Bool := false
  firedAt : Option Nat := none
deriving DecidableEq, Repr, Inhabited

/-- What an interval counter holds beside its registers: a START waiting for its load, and the count at its last
prescaled tick (R386). -/
structure IntSt where
  load : Bool := false
  last : Nat := 0
deriving DecidableEq, Repr, Inhabited

/-- What a capture channel holds beside its registers: captures accepted and not committed (value, instant, hop), the tick
at which a pin's edge was last accepted, and the readable buffer (R390, R391). -/
structure CapSt where
  waiting : List (Nat × Nat × Nat) := []
  acceptAt : Option Nat := none
  value : Nat := 0
  seq : Nat := 0
  isNew : Bool := false
  ovr : Bool := false
  oor : Bool := false
  blank : Bool := false
  x : Nat := 0
  y : Nat := 0
  frame : Nat := 0
deriving DecidableEq, Repr, Inhabited

/-- The converter's sequence and FIFO (R395 to R397). -/
structure AdcSt where
  fifo : List Nat := []
  start : Nat := 0
  step : Nat := 0
  seq : Nat := 0
  hop : Option Nat := none
  stop : Bool := false
  /-- whether the port of the present step selected its analogue alternate while it was sampled, where FUNC has been written
  since the sampling began (R394) -/
  ana : Option Bool := none
deriving DecidableEq, Repr, Inhabited

/-! ### Anvil cores and mailboxes -/

/-- A FAB access that a core has outstanding: its number, and the instruction and move that triggered it (R286, R297). -/
structure FabOp where
  n : Nat
  write : Bool
  wide : Bool
  pc : Nat
  slot : Nat
  port : Nat
deriving DecidableEq, Repr, Inhabited

/-- A SEND or RECV that a core has triggered and the mailbox has not yet performed (R299). -/
structure MsgOp where
  recv : Bool
  chan : Nat
  tx : List Nat
deriving DecidableEq, Repr, Inhabited

/-- What an Anvil core holds beside its control registers. -/
structure Core where
  /-- the ports that hold a value, by port number; FAB.CHIP is held as its value plus 1 -/
  ports : NStore Nat := []
  /-- data memory, 36-bit words; unlisted words are 0 -/
  dmem : NStore Nat := []
  /-- instruction memory, 144-bit instructions; unlisted ones are 0 -/
  imem : NStore Nat := []
  /-- the debug window's staging register, by word of the element (R319) -/
  stage : NStore Nat := []
  /-- the element the window's read latch holds: its offset in the window, its value, and whether it is poisoned -/
  latch : Option (Nat × Nat × Bool) := none
  /-- FAB accesses outstanding, oldest first, and the number of the next one -/
  fab : List FabOp := []
  nextFab : Nat := 0
  /-- the least number of a RD32 that may still fill Q, and of a RD128 that may still fill Q0 to Q3 -/
  fabDone : Nat := 0
  fabDoneW : Nat := 0
  /-- SYNC holds issue (R298) -/
  sync : Bool := false
  /-- the present instruction waits (R274), on an accelerator FIFO since the tick given (R309) -/
  blocked : Option Nat := none
  /-- HALT is to take effect when the waiting instruction has issued (R314) -/
  haltPend : Bool := false
  /-- a STEP is to issue one instruction (R316) -/
  stepping : Bool := false
  /-- the core halted on its breakpoint and has not issued since (R315) -/
  brkHeld : Bool := false
  /-- a sleeper is being woken (R329) -/
  waking : Bool := false
  /-- the sources that stay assigned to it while it is being woken (R329) -/
  wakeFor : List Nat := []
  /-- the tick of its last issue (R323) -/
  issuedAt : Nat := 0
  /-- the tick at which the core entered WAITING (R491) -/
  waitSince : Nat := 0
  /-- SEND and RECV triggers not yet performed, oldest first -/
  msgs : List MsgOp := []
deriving DecidableEq, Repr, Inhabited

/-- A mailbox channel's messages, oldest first: 16 words and the tick of the SEND (R333, R342). -/
structure Msg where
  words : List Nat
  at_ : Nat
deriving DecidableEq, Repr, Inhabited

/-- The staging set of an identity that is not a core (R335). -/
structure MbxStage where
  tx : NStore Nat := []
  rx : NStore Nat := []
  mstat : Nat := 0
deriving DecidableEq, Repr, Inhabited

/-! ### Blit engine and DMA -/

/-- A queued command: the staging set as GO copied it (R234). -/
structure BltCmd where
  op : Nat := 0
  sfmt : Nat := 0
  dfmt : Nat := 0
  spm : Bool := false
  dpm : Bool := false
  wmEn : Bool := false
  fsig : Bool := false
  fence : Nat := 0
  sbase : Nat := 0
  sstride : Nat := 0
  sx : Nat := 0
  sy : Nat := 0
  dbase : Nat := 0
  dstride : Nat := 0
  dx : Nat := 0
  dy : Nat := 0
  w : Nat := 1
  h : Nat := 1
  fill : Nat := 0
  pal : Nat := 0
  wmark : Nat := 0
  burstLog : Nat := 4
  dead : Nat := 0
deriving DecidableEq, Repr, Inhabited

/-- A command that runs. -/
structure BltRun where
  cmd : BltCmd
  /-- bottom to top and right to left (R241) -/
  rev : Bool := false
  /-- rows of a staged strip, 0 without staging; and strips from the bottom up -/
  strip : Nat := 0
  up : Bool := false
  /-- rows issued whole, in the order of work, and pixels issued of the next one -/
  row : Nat := 0
  col : Nat := 0
  /-- source pixels of the strip that is being written, with their poison -/
  buf : List (Nat × Bool) := []
  /-- writes outstanding by destination row, and accesses outstanding in all -/
  out : NStore Nat := []
  outAll : Nat := 0
  /-- rows completed, in the order of work -/
  rowsDone : Nat := 0
  wmFired : Bool := false
  failed : Bool := false
  aborted : Bool := false
deriving DecidableEq, Repr, Inhabited

/-- The blit engine: queued commands, oldest first, and the running one. -/
structure Blt where
  queue : List BltCmd := []
  run : Option BltRun := none
  /-- when the last burst was issued, and for how many tk nothing follows it (R243) -/
  at_ : Nat := 0
  dead : Nat := 0
deriving DecidableEq, Repr, Inhabited

/-! ### DMA -/

/-- A DMA descriptor as read (Table 8.7), with its local address. -/
structure Desc where
  addr : Nat
  ctrl : Nat
  len : Nat
  src : Nat
  ext : Nat
  dst : Nat
  next : Nat
deriving DecidableEq, Repr, Inhabited

/-- A burst of a DMA channel: its number, its first byte in the transfer and its length; the reads without response; the
bytes read, and the byte ranges (first, length) among them with poison and with a read error; whether its writes have been
issued, and how many bytes and accesses of them have not completed. -/
structure DmaBurst where
  seq : Nat
  off : Nat
  n : Nat
  rd : Nat := 0
  data : Nat := 0
  bad : List (Nat × Nat) := []
  err : List (Nat × Nat) := []
  written : Bool := false
  wr : Nat := 0
  left : Nat := 0
  /-- its pointer update has been entered (R262) -/
  upd : Bool := false
deriving DecidableEq, Repr, Inhabited

/-- What a DMA channel holds beside its registers (R254 to R268). -/
structure DmaChan where
  /-- the descriptor in hand -/
  desc : Option Desc := none
  /-- a descriptor read is outstanding (R551) -/
  reading : Bool := false
  /-- a HALT taken while it is -/
  haltHeld : Bool := false
  /-- bursts outstanding, oldest first, and the number of the next one -/
  bursts : List DmaBurst := []
  next : Nat := 0
  /-- pointer updates not yet issued, oldest first: the transfer byte where their burst ends, and its bytes (R262) -/
  ptrs : List (Nat × Nat) := []
  /-- bursts granted by its task input and not yet used (R264) -/
  grants : Nat := 0
  /-- the hop count of the events it raises (Table 12.11) -/
  hop : Nat := 0
  /-- the earliest failure: the transfer byte it lies at, and its code (R266) -/
  fail : Option (Nat × Nat) := none
  poison : Bool := false
  /-- the descriptor in hand has a reserved value (R268) -/
  bad : Bool := false
  /-- HALTED after an error: 1, and 2 where that descriptor had LAST = 1; HALTED under R268: 3 -/
  stop : Nat := 0
deriving DecidableEq, Repr, Inhabited

/-! ### Lintel links -/

/-- A link packet, whose fields Table 14.2 names; `data` is the payload, its first byte least significant. The model's own:
`cuts`, the sizes of the accesses that its run is made of (R440, notes/assumptions/78.md), and `inl`, the link whose receive
buffer still holds a forwarded packet (4: none). -/
structure Packet where
  typ : Nat
  vl : Nat
  cls : Nat
  len : Nat
  seq : Nat
  dst : Nat
  src : Nat
  master : Nat
  resp : Nat
  tag : Nat
  addr : Nat
  data : Nat
  pmask : Nat
  crc : Nat := 0
  cuts : List Nat := []
  inl : Nat := 4
deriving DecidableEq, Repr, Inhabited

/-- A control block that a receiver sends (Table 14.1). -/
inductive CtlBlock where
  | ack (seq : Nat)
  | nak (seq : Nat)
  | credit (vl n : Nat)
deriving DecidableEq, Repr, Inhabited

/-- One link (R439 to R445): the sequence number expected and whether the present gap has had its NAK; the receive buffer in
use, in credits by virtual lane; the control blocks sent to the peer, oldest first; the next number to
send; the replay buffer, oldest first; how often its oldest packet has been resent and the tick of the last ACK or resend;
failed trainings in a row; credits in use by virtual lane; packets that wait for credits or room; lanes found bad. -/
structure Link where
  expect : Nat := 0
  nakSent : Bool := false
  held : NStore Nat := []
  sent : List CtlBlock := []
  next : Nat := 0
  replay : List Packet := []
  resends : Nat := 0
  since : Nat := 0
  fails : Nat := 0
  spent : NStore Nat := []
  wait : List Packet := []
  bad : List Nat := []
deriving DecidableEq, Repr, Inhabited

/-- A request sent to another package (R450, R452): its tag, the access it carries, its destination, the tick of its
sending, the responses it still needs, and the first error among those it has had. -/
structure Req where
  tag : Nat
  acc : Access
  dst : Nat
  at_ : Nat
  need : Nat
  kind : RespKind
deriving DecidableEq, Repr, Inhabited

/-- A request that came over a link, while its accesses are performed here (R440). -/
structure LinkJob where
  typ : Nat
  src : Nat
  master : Nat
  tag : Nat
  addr : Nat
  len : Nat
  left : Nat
  data : Nat
  pmask : Nat
  resp : Nat
deriving DecidableEq, Repr, Inhabited

/-- What the package holds for the canvas (R446 to R458). -/
structure Net where
  /-- the route table is filled (R447) -/
  filled : Bool := false
  /-- failed edges: chip * 2 + dimension, for the link in its + direction -/
  downs : List Nat := []
  reqs : List Req := []
  nextTag : Nat := 0
  jobs : NStore LinkJob := []
  nextJob : Nat := 0
  /-- destinations whose route has changed and that have requests under way, and the requests held for them (R449) -/
  moved : List Nat := []
  wait : List Access := []
  /-- the last measurements of twice the offset, newest first, in 1/16 tk (R453) -/
  thetas : List Int := []
  /-- the tick of the last adjustment (R376) -/
  adjAt : Option Nat := none
  /-- the count lies ahead of the parent's, and falls back to it (R456) -/
  ahead : Bool := false
deriving DecidableEq, Repr, Inhabited

/-! ### Power, assay, start and host -/

/-- The power controller beside its registers (R486 to R501): a wake that is being served, with its cause, port and
instant, and whether it is a wake at all or a tolerance's doing; the domains that were on when the present state was
entered; the heads put into self-refresh for it; the slow count of R500; domains forced off; whether AVS sends requests;
whether the last request was not acknowledged; the request of the last run (R501); whether a thermal trip holds the device;
the instant of the last wake; the regulator's PMBus address, minus the exponent of its linear mode once VOUT_MODE has reported it,
and the VOUT_COMMAND words sent, oldest first (R500, R529); by state, the tick since which its conditions hold (R489). -/
structure Psm where
  leaving : Bool := false
  quiet : Bool := false
  cause : Nat := 0
  port : Nat := 0
  at_ : Nat := 0
  saved : List Nat := []
  heads : List Nat := []
  slow : Nat := 0
  forced : List Nat := []
  noAvs : Bool := false
  unacked : Bool := false
  runV : Nat := 0
  tripped : Bool := false
  waket : Nat := 0
  pmbAddr : Nat := 0
  vexp : Option Nat := none
  vout : List (Nat × Nat) := []
  calm : NStore Nat := []
deriving DecidableEq, Repr, Inhabited

/-- A PCI Express request waiting for the host (R483), with the tick it was sent. -/
structure HostReq where
  acc : Access
  at_ : Nat
deriving DecidableEq, Repr, Inhabited

/-- What the package sends to the host: completions of its requests, MSI-X messages, outbound writes and reads. -/
inductive HostOut where
  /-- a completion to function f: its status (0 successful, 1 Unsupported Request, 2 Completer Abort, 3 Configuration Request
  Retry), its data, and the EP bit -/
  | cpl (f status data : Nat) (ep : Bool)
  /-- vector v of function f -/
  | msix (f v : Nat)
  /-- a memory write to host address a -/
  | write (a size data : Nat)
  /-- a memory read of host address a -/
  | read (a size : Nat)
deriving DecidableEq, Repr, Inhabited

/-- The PCI Express endpoint (R479 to R483). -/
structure Pcie where
  up : Bool := false
  /-- power state of each function: 0 D0, 3 D3hot -/
  dstate : NStore Nat := []
  /-- base address registers, by function * 8 + BAR dword -/
  bars : NStore Nat := []
  /-- command register bits, by function -/
  cmd : NStore Nat := []
  /-- MSI-X enable of each function -/
  msixEn : NStore Nat := []
  /-- MSI-X table: function * 256 + vector * 4 + word; the mask bit, word 3 bit 0, resets to 1 -/
  table : NStore Nat := []
  /-- pending bits, by function * 64 + vector -/
  pend : List Nat := []
  /-- outbound accesses not yet sent, oldest first, and reads the host has not yet answered -/
  outQ : List Access := []
  reads : List HostReq := []
  /-- what has gone to the host, oldest first -/
  sent : List HostOut := []
deriving DecidableEq, Repr, Inhabited

/-- The SMBus target (R484): the access address, the status and value of the last read and the status of the last write
(0 OKAY, 1 DECODE, 2 TARGET, 3 PENDING, 4 POISON), the bytes of the last block read, and the target's own bus address. -/
structure Smb where
  target : Nat := 0x5C
  addr : Nat := 0
  rdStat : Nat := 0
  rdVal : Nat := 0
  wrStat : Nat := 0
  out : List Nat := []
deriving DecidableEq, Repr, Inhabited

/-- A result of assay (Table 16.8). -/
structure AsyRes where
  code : Nat
  cls : Nat
  index : Nat
  phys : Nat
  time : Nat
  detail : Nat
deriving DecidableEq, Repr, Inhabited

/-- A repair-ledger entry (Table 16.11), but for its CRC. -/
structure LgrEnt where
  kind : Nat
  cls : Nat
  index : Nat
  phys : Nat
  arg : Nat
  time : Nat
  value : Nat
deriving DecidableEq, Repr, Inhabited

/-- The assay controller (R504 to R515): queued requests, the physical unit of the running one, results, ledger changes. -/
structure Asy where
  queue : List (Nat × Nat) := []
  phys : Option Nat := none
  /-- the logical unit it was taken from by a rotation -/
  logical : Option Nat := none
  /-- the tested unit was released by a rotation, and is marked until it passes -/
  marked : Bool := false
  results : List AsyRes := []
  changes : List LgrEnt := []
deriving DecidableEq, Repr, Inhabited

/-- The always-on block's part of a start (R463 to R476): the boot memory (unlisted bytes are 0xFF, erased); the reset whose
start-up has not yet run (0 power-on or cold, 1 keystone, 2 on exit from S4); whether the stores are to be zeroed, whether rails were lost, and VMEM among them; the straps
as sampled; FLAGS, SUBSYS and the ledger region of the header in effect; whether a header has been checked (R481); the
watchdog's last restart; the command of the boot engine. -/
structure Boot where
  mem : NStore Nat := []
  due : Option Nat := none
  zero : Bool := false
  railsLost : Bool := false
  vmem : Bool := false
  straps : Nat := 0
  flags : Nat := 0
  subsys : Nat := 0
  ledgerOff : Nat := 0
  ledgerLen : Nat := 0
  checked : Bool := false
  kicked : Nat := 0
  cmd : Option Nat := none
deriving DecidableEq, Repr, Inhabited

/-! ### Operands of commands -/


/-- How an AUX reply answers a transaction. -/
inductive AuxReply where
  | ack (data : List Byte)
  | nack
  | defer
deriving DecidableEq, Repr, Inhabited

/-- What happens on the bus in one I2C byte step. -/
inductive I2cEvent where
  /-- as master: the target's answer to a byte sent, whether arbitration was lost or the bus failed, and the byte received -/
  | master (ack arb : Bool) (byte : BitVec 8)
  /-- as target: a START and the address byte that follows it -/
  | address (byte : BitVec 8)
  /-- as target: a byte written -/
  | written (byte : BitVec 8)
  /-- as target: a byte read -/
  | readOut
  /-- as target: a STOP -/
  | stop
deriving DecidableEq, Repr, Inhabited

/-- A register of a host function's configuration space. -/
inductive CfgReg where
  /-- vendor and device ID -/
  | id
  /-- command: bit 1 Memory Space Enable, bit 2 Bus Master Enable -/
  | command
  /-- revision ID and class code -/
  | classRev
  /-- base address register dword n -/
  | bar (n : BitVec 3)
  /-- subsystem vendor and device ID -/
  | subsys
  /-- power management control: the D-state in bits 1 and 0 -/
  | power
  /-- the word of MSI-X message control: enable in bit 15 -/
  | msix
  /-- any other -/
  | other
deriving DecidableEq, Repr, Inhabited

/-- A fabric access: the nth that engines have issued, or one that a sender makes, with its poison mark. -/
inductive FabricOp where
  | issued (n : Nat)
  | given (m : Master) (write poison : Bool) (addr : BitVec 40) (size : Nat) (data : BitVec 128)
deriving DecidableEq, Repr, Inhabited

/-- What happens to outbound accesses in one step. -/
inductive OutboundEvent where
  /-- the oldest access goes out -/
  | send
  /-- the host answers the nth read that waits -/
  | answer (n : Nat) (ok : Bool) (data : BitVec 128)
deriving DecidableEq, Repr, Inhabited

/-- What PMBus answers at start-up (R529). -/
inductive Pmb where
  /-- VOUT_MODE is not acknowledged after three attempts -/
  | noAck
  /-- VOUT_MODE as read, and whether VOUT_COMMAND is acknowledged within three attempts -/
  | mode (b : BitVec 8) (ack : Bool)
deriving DecidableEq, Repr, Inhabited

/-- What start-up meets outside the package: whether the header's second reading agrees (R464); whether the reference that
REFSRC names shows edges (R533); the PMBus outcome; the units (class and physical number) that fail the start-up assay
(R512); the trainings of the links in order (link, success, peer's chip number); the counts reported to the root, and
whether every chip reported; the count of a member's FORMED parent (Table 14.5); the duration in µs. -/
structure StartEnv where
  same : Bool := true
  refGood : Bool := true
  pmb : Pmb := .mode 0x14 true
  fails : List (Nat × Nat) := []
  links : List (Nat × Bool × Nat) := []
  counts : List Nat := []
  allIn : Bool := true
  parent : Option Nat := none
  us : Nat := 0
deriving DecidableEq, Repr, Inhabited

/-! ### Pins, serial peripherals, pin sequencers -/

/-- What the chip does at a pad. -/
inductive Pad where
  /-- high impedance -/
  | z
  /-- driven to a level -/
  | lvl (v : Bool)
  /-- driven by a serial, audio or display waveform -/
  | wave
deriving DecidableEq, Repr, Inhabited

/-- A lock sequence in progress: the port and master of its first write, and the keys taken (R416). -/
structure LockSeq where
  port : Nat
  mst : Master
  step : Nat
deriving DecidableEq, Repr, Inhabited

/-- What a serial peripheral puts on its data line: bits, and on I2C a START or STOP condition (R423). -/
inductive WireSym where
  | bit (b : Bool)
  | start
  | stop
deriving DecidableEq, Repr, Inhabited

/-- A serial peripheral: its FIFOs, oldest word first, and what it put on its data line in its last frame or byte step. -/
structure Serial where
  tx : List Nat := []
  rx : List Nat := []
  wire : List WireSym := []
  /-- the tick at which that frame began, and for how many 1/256 tk it lasts (UART, SPI master) -/
  at_ : Nat := 0
  len : Nat := 0
  /-- SPI master: a frame has begun since the transmit FIFO was last empty with no frame in progress -/
  cs : Bool := false
  /-- I2C target: addressed since the last START, for a read or not; and the next byte is the first after it -/
  sel : Option Bool := none
  first : Bool := false
deriving DecidableEq, Repr, Inhabited

/-- What the present instruction of a pin sequencer waits for. -/
inductive PsqWait where
  /-- an AWAIT that began at the tick given (R430) -/
  | await (b : Nat)
  /-- an AT action that began at the tick given (R429) -/
  | timed (b : Nat)
  /-- a blocking FETCH or DEPOSIT (R431) -/
  | fifo
deriving DecidableEq, Repr, Inhabited

/-- What a pin sequencer holds beside its registers (R424). -/
structure Psq where
  tx : List Nat := []
  rx : List Nat := []
  tr : Nat := 0
  cap : Nat := 0
  /-- the ticks at which the fill of the TX and of the RX FIFO last changed (R309) -/
  txAt : Nat := 0
  rxAt : Nat := 0
  wait : Option PsqWait := none
  /-- the hop count its SIGNAL events carry (R435) -/
  hop : Nat := 0
  /-- the hop count of the arrival that set TASKPEND -/
  pendHop : Nat := 0
deriving DecidableEq, Repr, Inhabited

/-! ### Sound -/

/-- A gain that ramps: its start, its target, the samples since the target was taken, and the ramp's length. -/
structure Ramp where
  g0 : Nat := 0
  g1 : Nat := 0
  i : Nat := 0
  n : Nat := 0
deriving DecidableEq, Repr, Inhabited

/-- A slot, or a voice output: its source, its gain, and while it crossfades the source it leaves with that one's gain
(R208, R209). -/
structure Slot where
  src : Nat := 0
  cur : Ramp := {}
  old : Option (Nat × Ramp) := none
deriving DecidableEq, Repr, Inhabited

/-- A voice command that waits: KEYON 1, KEYOFF 2, STOP 3, none 0; its instant where AT was 1 (R220); the first block that
takes it (R202); and whether HOLD keeps it (R203). -/
structure VCmd where
  op : Nat
  at_ : Option Nat
  from_ : Nat := 0
  held : Bool := false
deriving DecidableEq, Repr, Inhabited

/-- What a voice holds beside its registers (R213 to R221). -/
structure Voice where
  /-- position with 24 fraction bits -/
  phi : Nat := 0
  /-- phase of the LFO, in 1/9,600,000 of a cycle -/
  lam : Nat := 0
  /-- envelope level with 24 fraction bits, and the level release began from -/
  env : Nat := 0
  relFrom : Nat := 0
  /-- SRC, ADDR and START as the key-on took them -/
  src : Nat := 0
  addr : Nat := 0
  start : Nat := 0
  /-- operator phases, in 1/2^40 of a cycle, and the operators' outputs one sample earlier -/
  theta : List Nat := [0, 0, 0, 0]
  ops : List Int := [0, 0, 0, 0]
  /-- the commands that wait, oldest first: a later one replaces those that no block has taken before its own (R220) -/
  cmds : List VCmd := []
  /-- the poisoned beats that the sample before drew on -/
  bad : List Nat := []
  /-- the outputs stand at 0 after a STOP -/
  stopped : Bool := false
deriving DecidableEq, Repr, Inhabited

/-- A mix bus's limiter: values that wait for their look-ahead, oldest first, and its gain (R224). -/
structure MixSt where
  xs : List Int := []
  g : Nat := 2 ^ 32
  lim : Bool := false
  sat : Bool := false
deriving DecidableEq, Repr, Inhabited

/-- An effect unit: what it was last set to, its two delay lines (newest first), its inputs of the previous and the
present block (oldest first), and the read taps of the two lines, each a delay length that is its source (R222, R223). -/
structure EffSt where
  typ : Nat := 0
  base : Nat := 0
  size : Nat := 0
  tap0 : Slot := { cur := ⟨0x1000, 0x1000, 0, 0⟩ }
  tap1 : Slot := { cur := ⟨0x1000, 0x1000, 0, 0⟩ }
  line0 : List Int := []
  line1 : List Int := []
  in0 : List Int := [0, 0, 0, 0, 0, 0, 0, 0]
  in1 : List Int := [0, 0, 0, 0, 0, 0, 0, 0]
  new0 : List Int := []
  new1 : List Int := []
deriving DecidableEq, Repr, Inhabited

/-- The audio engine beside its registers. -/
structure Sound where
  /-- a start waits: its instant in 1/3 tk, and its first sample (R205) -/
  arm : Option (Nat × Nat) := none
  /-- the next block to compute, and the next to send -/
  block : Nat := 0
  sent : Nat := 0
  /-- the instant of the first sample of the last block sent (Table 7.5) -/
  bstamp : Nat := 0
  /-- blocks sent since AUD_TICK was last raised -/
  ticks : Nat := 0
  /-- RUN was cleared: the engine stops after the block in progress (R205) -/
  stopping : Bool := false
  /-- the registers as they stood when HOLD was set, while it is 1 (R203) -/
  held : Option (List (FKey × Nat)) := none
  /-- the registers as they stood at the instant of blocks not yet computed, each for the blocks up to a number, where a
  write has changed them since (R202) -/
  taken : List (Nat × List (FKey × Nat)) := []
  gains : NStore Ramp := []
  slots : NStore Slot := []
  voices : NStore Voice := []
  mixes : NStore MixSt := []
  effs : NStore EffSt := []
  /-- the samples of the block being computed for each output slot, of each block computed and not yet sent, and of the
  block that the output converters have taken (R226, R229) -/
  outs : NStore (List Int) := []
  ready : List (Nat × NStore (List Int)) := []
  sending : NStore (List Int) := []
  /-- voice buses that saturated in the present block -/
  vbSat : List Nat := []
deriving DecidableEq, Repr, Inhabited

end Sys2Proof.Machine
end

