-- ==== Sys2Proof/Syntax.lean ====
section
/-! DEFINITION. The commands of the block: one constructor for each row of the operation table. -/

namespace Sys2Proof

open Sys2Proof.Machine

inductive Instr where
  /-- REGISTER_WRITE, R7 -/
  | registerWrite (m : Master) (a : BitVec 40) (v : BitVec 32)
  /-- RC_READ, R7 -/
  | rcRead (m : Master) (a : BitVec 40)
  /-- FABRIC_ACCESS, R349 -/
  | fabricAccess (a : FabricOp)
  /-- ACCESS_RESPONSE, R348 -/
  | accessResponse (m : Master)
  /-- LATCH, R21 -/
  | latch (h : Fin 8) (frac : BitVec 16)
  /-- LINE_READ, R14 -/
  | lineRead (h : Fin 8) (y : BitVec 16) (given : BitVec 16)
  /-- VBLANK, R176 -/
  | vblank (h : Fin 8)
  /-- FRAME_DONE, R176 -/
  | frameDone (h : Fin 8)
  /-- LMATCH, R179 -/
  | lmatch (h : Fin 8) (k : Fin 2)
  /-- COURSE_BEGIN, R114 -/
  | courseBegin (h : Fin 8)
  /-- LINE_COMPOSE, R92 -/
  | lineCompose (h : Fin 8)
  /-- COURSE_SEAL, R16 -/
  | courseSeal (h : Fin 8)
  /-- TEE_FRAME_COMPLETE, R133 -/
  | teeFrameComplete (h : Fin 8)
  /-- SCAN_TAP, R143 -/
  | scanTap (h : Fin 8) (r : Fin 64)
  /-- FLIP_ARM, R127 -/
  | flipArm (m : Master) (k : Fin 256) (v : BitVec 32)
  /-- FENCE_SIGNAL, R128 -/
  | fenceSignal (m : Master) (f : BitVec 8)
  /-- HTAG_ARM, R152 -/
  | htagArm (m : Master) (h : Fin 8) (r : Fin 64) (slot : Fin 2) (v : BitVec 32)
  /-- REGION_LOCK, R150 -/
  | regionLock (m : Master) (h : Fin 8) (r : Fin 64) (v : BitVec 32)
  /-- FREEZE_CLEAR, R156 -/
  | freezeClear (m : Master) (h : Fin 8)
  /-- SIGNATURE_READ, R145 -/
  | signatureRead (m : Master) (h : Fin 8) (r : Fin 64) (scan : Bool)
  /-- END, R87 -/
  | lpEnd (n : Fin 8)
  /-- WAIT, R90 -/
  | lpWait (n : Fin 8)
  /-- WAITR, R87 -/
  | lpWaitr (n : Fin 8)
  /-- WR, R87 -/
  | lpWr (n : Fin 8)
  /-- WRT, R87 -/
  | lpWrt (n : Fin 8)
  /-- ADD, R87 -/
  | lpAdd (n : Fin 8)
  /-- WRP, R87 -/
  | lpWrp (n : Fin 8)
  /-- WRM, R87 -/
  | lpWrm (n : Fin 8)
  /-- SETC, R87 -/
  | lpSetc (n : Fin 8)
  /-- DJNZ, R87 -/
  | lpDjnz (n : Fin 8)
  /-- JUMP, R87 -/
  | lpJump (n : Fin 8)
  /-- CALL, R87 -/
  | lpCall (n : Fin 8)
  /-- RET, R87 -/
  | lpRet (n : Fin 8)
  /-- SETP, R87 -/
  | lpSetp (n : Fin 8)
  /-- BAD_CMD, R87 -/
  | lpBadCmd (n : Fin 8)
  /-- LINE_RELEASE, R97 -/
  | lineRelease (n : Fin 8)
  /-- RUNAWAY, R99 -/
  | runaway (n : Fin 8)
  /-- HEAD_RUN, R170 -/
  | headRun (m : Master) (h : Fin 8) (v : BitVec 32)
  /-- HEAD_START_INSTANT, R170 -/
  | headStartInstant (h : Fin 8) (frac : BitVec 16)
  /-- HEAD_STOP, R172 -/
  | headStop (m : Master) (h : Fin 8) (v : BitVec 32)
  /-- PLL_LOCKED, R163 -/
  | pllLocked (h : Fin 8)
  /-- PLL_LOST, R164 -/
  | pllLost (h : Fin 8)
  /-- GENLOCK_FRAME_REF, R168 -/
  | genlockFrameRef (f64 : Fin 64) (lines : BitVec 16)
  /-- LOCK_LOST, R167 -/
  | lockLost (h : Fin 8)
  /-- FADDR_WRITE, R174 -/
  | faddrWrite (m : Master) (h : Fin 8) (v : BitVec 32)
  /-- FSTAMP_READ, R198 -/
  | fstampRead (m : Master) (h : Fin 8)
  /-- GL_FPER_READ, R169 -/
  | glFperRead (m : Master)
  /-- TRAIN, R187 -/
  | train (m : Master) (h : Fin 8) (rate : Fin 4) (lanes : Fin 3) (psr : Bool) (good : BitVec 16)
  /-- HPD_PLUG, R187 -/
  | hpdPlug (h : Fin 8) (rate : Fin 4) (lanes : Fin 3) (psr : Bool) (good : BitVec 16)
  /-- HPD_UNPLUG, R188 -/
  | hpdUnplug (h : Fin 8)
  /-- HPD_IRQ, R188 -/
  | hpdIrq (h : Fin 8) (failed : Bool) (good : BitVec 16)
  /-- AUX_TRANSACTION, R189 -/
  | auxTransaction (m : Master) (h : Fin 8) (v : BitVec 32)
  /-- AUX_REPLY, R189 -/
  | auxReply (h : Fin 8) (r : AuxReply)
  /-- AUX_TIMEOUT, R189 -/
  | auxTimeout (h : Fin 8)
  /-- PSR_ENTER, R192 -/
  | psrEnter (m : Master) (h : Fin 8)
  /-- PSR_EXIT, R193 -/
  | psrExit (m : Master) (h : Fin 8)
  /-- AUDIO_RUN, R205 -/
  | audioRun (m : Master) (v : BitVec 32)
  /-- AUDIO_START, R205 -/
  | audioStart
  /-- BLOCK_COMPUTE, R202 -/
  | blockCompute
  /-- BLOCK_SEND, R229 -/
  | blockSend
  /-- HOLD_RELEASE, R203 -/
  | holdRelease (m : Master) (v : BitVec 32)
  /-- KEYON, R220 -/
  | keyOn (m : Master) (i : Fin 512)
  /-- KEYOFF, R220 -/
  | keyOff (m : Master) (i : Fin 512)
  /-- STOP, R220 -/
  | voiceStop (m : Master) (i : Fin 512)
  /-- TIMED_COMMAND, R220 -/
  | timedCommand (m : Master) (i : Fin 512) (op : BitVec 2)
  /-- HELD_WRITE_TAKEN, R209 -/
  | heldWriteTaken (k : BitVec 16)
  /-- PORT_ENABLE, R227 -/
  | portEnable (m : Master) (x : Fin 36) (v : BitVec 32)
  /-- CLKLOSS, R227 -/
  | clkLoss (x : Fin 36)
  /-- RATE_SLIP, R230 -/
  | rateSlip (x : Fin 36)
  /-- VOICE_ROTATION, R212 -/
  | voiceRotation (i : Fin 512) (p : Fin 544)
  /-- GO, R234 -/
  | blitGo (m : Master)
  /-- ABORT, R248 -/
  | blitAbort (m : Master)
  /-- BLIT_BEGIN, R235 -/
  | blitBegin
  /-- BLIT_BURST, R243 -/
  | blitBurst
  /-- WMARK, R245 -/
  | blitWmark
  /-- BLT_DONE, R246 -/
  | blitDone
  /-- BLIT_ERROR, R247 -/
  | blitError
  /-- START, R255 -/
  | dmaStart (m : Master) (i : Fin 1024)
  /-- HALT, R255 -/
  | dmaHalt (m : Master) (i : Fin 1024)
  /-- RESUME, R255 -/
  | dmaResume (m : Master) (i : Fin 1024)
  /-- DMA_ABORT, R255 -/
  | dmaAbort (m : Master) (i : Fin 1024)
  /-- DMA_BELL, R251 -/
  | dmaBell (m : Master) (i : BitVec 32)
  /-- DESCRIPTOR_RETURN, R551 -/
  | descriptorReturn (i : Fin 1024)
  /-- DMA_BURST_START, R261 -/
  | dmaBurstStart
  /-- POINTER_UPDATE, R262 -/
  | pointerUpdate (i : Fin 1024)
  /-- DESCRIPTOR_FINISH, R265 -/
  | descriptorFinish (i : Fin 1024)
  /-- INSTRUCTION_ISSUE, R274 -/
  | instructionIssue (k : Fin 8)
  /-- SYNC_COMPLETE, R298 -/
  | syncComplete (k : Fin 8)
  /-- FAB_RESULT, R297 -/
  | fabResult (k : Fin 8)
  /-- WFI_END, R303 -/
  | wfiEnd (k : Fin 8)
  /-- INTERRUPT_ENTRY, R301 -/
  | interruptEntry (k : Fin 8)
  /-- ACC_TIMEOUT, R309 -/
  | accTimeout (k : Fin 8)
  /-- RUN, R317 -/
  | coreRun (m : Master) (k : Fin 8)
  /-- CORE_HALT, R314 -/
  | coreHalt (m : Master) (k : Fin 8)
  /-- STEP, R316 -/
  | coreStep (m : Master) (k : Fin 8)
  /-- RESET, R312 -/
  | coreReset (m : Master) (k : Fin 8)
  /-- WINDOW_READ, R319 -/
  | windowRead (m : Master) (k : Fin 8) (o : BitVec 22)
  /-- WINDOW_WRITE, R319 -/
  | windowWrite (m : Master) (k : Fin 8) (o : BitVec 22) (v : BitVec 32)
  /-- CORE_ROTATION, R323 -/
  | coreRotation (k : Fin 8) (p : Fin 9)
  /-- SOURCE_EDGE, R325 -/
  | sourceEdge (n : Fin 512)
  /-- SWSET, R324 -/
  | swset (m : Master) (n : BitVec 9)
  /-- CORE_WAKE_DONE, R329 -/
  | coreWakeDone (k : Fin 8)
  /-- CLAIM, R330 -/
  | claim (m : Master) (k : Fin 8)
  /-- MAILBOX_SEND, R336 -/
  | mailboxSend (id : BitVec 7) (ch : BitVec 9)
  /-- MAILBOX_RECV, R337 -/
  | mailboxRecv (id : BitVec 7) (ch : BitVec 9)
  /-- CHANNEL_CFG_WRITE, R340 -/
  | channelCfgWrite (m : Master) (ch : Fin 256) (v : BitVec 32)
  /-- TMO, R342 -/
  | channelTimeout (ch : Fin 288)
  /-- SCRUB, R362 -/
  | scrub (a : BitVec 30)
  /-- ELOG_POP, R364 -/
  | elogPop (m : Master)
  /-- CE_HOUR_END, R366 -/
  | ceHourEnd (st : Fin 64)
  /-- SPARE_GO, R367 -/
  | spareGo (m : Master) (v : BitVec 32)
  /-- COPY_DONE, R367 -/
  | copyDone
  /-- DRAIN_DONE, R367 -/
  | drainDone
  /-- ROW_SWITCH, R371 -/
  | rowSwitch
  /-- LANE_ROTATION, R111 -/
  | laneRotation (j : Fin 16) (p : Fin 20)
  /-- TICK, R374 -/
  | tick
  /-- REF_LOST, R375 -/
  | refLost
  /-- REF_RETURN, R375 -/
  | refReturn
  /-- TB_READ, R377 -/
  | tbRead (m : Master)
  /-- COMPARE_ARM, R380 -/
  | compareArm (m : Master) (i : Fin 256) (v : BitVec 32)
  /-- COMPARE_FIRE, R382 -/
  | compareFire (i : Fin 256)
  /-- DISARM, R384 -/
  | disarm (m : Master) (i : Fin 256) (v : BitVec 32)
  /-- INTERVAL_START, R386 -/
  | intervalStart (m : Master) (i : Fin 64)
  /-- CONT, R386 -/
  | intervalCont (m : Master) (i : Fin 64)
  /-- INTERVAL_STOP, R386 -/
  | intervalStop (m : Master) (i : Fin 64)
  /-- LOAD, R386 -/
  | intervalLoad (m : Master) (i : Fin 64)
  /-- PRESCALED_TICK, R387 -/
  | prescaledTick (i : Fin 64)
  /-- CAPTURE_ACCEPT, R390 -/
  | captureAccept (i : Fin 64) (rising : Bool) (off : Fin 3)
  /-- CAPTURE_COMMIT, R391 -/
  | captureCommit (i : Fin 64)
  /-- CAPTURE_READ, R392 -/
  | captureRead (m : Master) (i : Fin 64)
  /-- ADC_READY, R395 -/
  | adcReady
  /-- ADC_START, R395 -/
  | adcStart (m : Master)
  /-- ADC_STOP, R396 -/
  | adcStop (m : Master)
  /-- ADC_RESULT, R395 -/
  | adcResult (uv : BitVec 32)
  /-- ADC_FIFO_POP, R397 -/
  | adcFifoPop (m : Master)
  /-- EVENT_DELIVERY, R401 -/
  | eventDelivery
  /-- SWTRIG, R401 -/
  | swtrig (m : Master) (t : BitVec 9)
  /-- SWPROD, R401 -/
  | swprod (m : Master) (v : BitVec 32)
  /-- FUNC_CHANGE, R411 -/
  | funcChange (m : Master) (p : Fin 1024) (v : BitVec 32)
  /-- PIN_SET, R414 -/
  | pinSet (m : Master) (b : Fin 32) (v : BitVec 32)
  /-- PIN_CLR, R414 -/
  | pinClr (m : Master) (b : Fin 32) (v : BitVec 32)
  /-- PIN_TGL, R414 -/
  | pinTgl (m : Master) (b : Fin 32) (v : BitVec 32)
  /-- LOCK_KEY, R416 -/
  | lockKey (m : Master) (v : BitVec 32)
  /-- PIN_PARK, R418 -/
  | pinPark (m : Master)
  /-- UNPARK, R419 -/
  | unpark (m : Master)
  /-- VIO_CHANGE, R408 -/
  | vioChange (b : Fin 32) (v : Fin 3)
  /-- WAKE_EDGE, R420 -/
  | wakeEdge (p : Fin 1024) (rising : Bool)
  /-- PIN_EDGE, R421: port p taken by the outside to a level or let go, or detector k answering the edge of port p to that
  level -/
  | pinEdge (p : Fin 1024) (level : Option Bool) (k : Option (Fin 16))
  /-- SERIAL_PUSH, R422 -/
  | serialPush (m : Master) (x : Fin 32) (v : BitVec 32)
  /-- SERIAL_POP, R422 -/
  | serialPop (m : Master) (x : Fin 32)
  /-- UART_FRAME, R423 -/
  | uartFrame (u : Fin 16) (rx : Option (BitVec 8 × Bool))
  /-- SPI_FRAME, R423 -/
  | spiFrame (q : Fin 8) (w : BitVec 32)
  /-- I2C_BYTE, R423 -/
  | i2cByte (i : Fin 8) (e : I2cEvent)
  /-- PSQ_STOP, R427 -/
  | psqStop (q : Fin 64)
  /-- BRANCH, R427 -/
  | psqBranch (q : Fin 64)
  /-- AWAIT, R427 -/
  | psqAwait (q : Fin 64)
  /-- AWAIT_END, R430 -/
  | psqAwaitEnd (q : Fin 64) (rising : Bool) (off : Fin 3)
  /-- STAMP, R427 -/
  | psqStamp (q : Fin 64)
  /-- DRIVE, R428 -/
  | psqDrive (q : Fin 64)
  /-- SAMPLE, R428 -/
  | psqSample (q : Fin 64)
  /-- PUT, R427 -/
  | psqPut (q : Fin 64)
  /-- FETCH, R431 -/
  | psqFetch (q : Fin 64)
  /-- DEPOSIT, R431 -/
  | psqDeposit (q : Fin 64)
  /-- COPY, R427 -/
  | psqCopy (q : Fin 64)
  /-- SIGNAL, R436 -/
  | psqSignal (q : Fin 64)
  /-- BAD_INST, R427 -/
  | psqBadInst (q : Fin 64)
  /-- TIMED_ACTION, R429 -/
  | psqTimedAction (q : Fin 64)
  /-- FIFO_WAIT_END, R431 -/
  | psqFifoWaitEnd (q : Fin 64)
  /-- PSQ_HALT, R432 -/
  | psqHalt (m : Master) (q : Fin 64)
  /-- PSQ_RESUME, R432 -/
  | psqResume (m : Master) (q : Fin 64)
  /-- RESTART, R432 -/
  | psqRestart (m : Master) (q : Fin 64)
  /-- FLUSH, R432 -/
  | psqFlush (m : Master) (q : Fin 64)
  /-- SEQUENCER_ROTATION, R425 -/
  | psqRotation (q : Fin 64) (p : Fin 68)
  /-- PACKET_RECEIVE, R443 -/
  | packetReceive (l : Fin 4) (p : Packet) (good : Bool)
  /-- ACK, R443 -/
  | linkAck (l : Fin 4) (n : BitVec 12)
  /-- NAK, R443 -/
  | linkNak (l : Fin 4)
  /-- CREDIT, R442 -/
  | linkCredit (l : Fin 4) (vl : Fin 4) (n : BitVec 16)
  /-- ACK_TIMEOUT, R443 -/
  | ackTimeout (l : Fin 4)
  /-- RETRAIN, R444 -/
  | retrain (l : Fin 4) (good : Bool) (peer : BitVec 10)
  /-- LANE_SPARE, R445 -/
  | laneSpare (l : Fin 4) (p : Fin 5)
  /-- ROUTE_NOTICE, R449 -/
  | routeNotice (chip : BitVec 10) (l : Fin 4)
  /-- RESPONSE_TIMEOUT, R450 -/
  | responseTimeout (tag : BitVec 16)
  /-- BROADCAST, R452 -/
  | broadcast (m : Master) (a : BitVec 30) (size : Fin 5) (v : BitVec 128)
  /-- TALIGN, R453 -/
  | talign (l : Fin 4) (t1 : BitVec 64) (t2 : BitVec 64) (t3 : BitVec 64) (t4 : BitVec 64) (adj : Bool) (up : Bool)
  /-- TICK_ADJUST, R454 -/
  | tickAdjust
  /-- LATE_JOIN, R456 -/
  | lateJoin (n : BitVec 64)
  /-- START_UP, R468 -/
  | startUp (e : StartEnv)
  /-- POWER_ON_RESET, R526 -/
  | powerOnReset (vaonLost : Bool)
  /-- POWER_ON_RESET_RELEASE, R526 -/
  | powerOnResetRelease (straps : BitVec 10)
  /-- RESET_N, R536 -/
  | resetN (straps : BitVec 10)
  /-- COLD, R474 -/
  | coldReset (m : Master)
  /-- KEYSTONE, R474 -/
  | keystoneReset (m : Master)
  /-- PERST, R474 -/
  | perst
  /-- FUNCTION_LEVEL_RESET, R474 -/
  | functionLevelReset (f : Fin 2)
  /-- WATCHDOG_BITE, R476 -/
  | watchdogBite
  /-- WATCHDOG_KICK, R476 -/
  | watchdogKick (m : Master) (v : BitVec 32)
  /-- BOOT_READ, R478 -/
  | bootRead (m : Master)
  /-- PROGRAM, R478 -/
  | bootProgram (m : Master)
  /-- ERASE4K, R478 -/
  | bootErase4k (m : Master)
  /-- ERASE64K, R478 -/
  | bootErase64k (m : Master)
  /-- BOOT_CMD_DONE, R478 -/
  | bootCmdDone (ok : Bool)
  /-- BAR_REQUEST, R480 -/
  | barRequest (f : Fin 2) (bar : Fin 3) (write : Bool) (o : BitVec 30) (size : Nat) (v : Nat)
  /-- OUTBOUND_ACCESS, R483 -/
  | outboundAccess (e : OutboundEvent)
  /-- OUTBOUND_TIMEOUT, R483 -/
  | outboundTimeout (n : Nat)
  /-- VECTOR_UNMASK, R482 -/
  | vectorUnmask (f : Fin 2) (v : Fin 64)
  /-- SMB_BOOT_STATUS, R484 -/
  | smbBootStatus
  /-- SMB_ID, R484 -/
  | smbId
  /-- SMB_DIGEST, R484 -/
  | smbDigest
  /-- SMB_SET_ADDRESS, R484 -/
  | smbSetAddress (pecOk : Bool) (a : BitVec 32)
  /-- SMB_READ, R484 -/
  | smbRead
  /-- SMB_WRITE, R484 -/
  | smbWrite (pecOk : Bool) (v : BitVec 32)
  /-- SMB_WRITE_STATUS, R484 -/
  | smbWriteStatus
  /-- PARK, R484 -/
  | footPark (pecOk : Bool)
  /-- RELOAD, R484 -/
  | footReload (pecOk : Bool)
  /-- FOOTING_COLD, R484 -/
  | footCold (pecOk : Bool)
  /-- DOMAIN_OFF, R486 -/
  | domainOff (m : Master) (d : BitVec 7)
  /-- CORE_GATE, R491 -/
  | coreGate (k : Fin 8)
  /-- STATE_ENTRY, R492 -/
  | stateEntry
  /-- WAKE, R493 -/
  | wake
  /-- STATE_EXIT, R493 -/
  | stateExit
  /-- ALARM, R493 -/
  | alarm
  /-- PSM_WAKE, R493 -/
  | psmWake (m : Master)
  /-- REARM, R493 -/
  | rearm (m : Master) (v : BitVec 32)
  /-- TOLERANCE_CHANGE, R494 -/
  | toleranceChange
  /-- THERM_HI, R498 -/
  | thermHi (tj : Int)
  /-- THERM_TRIP, R498 -/
  | thermTrip (tj : Int)
  /-- THERM_RECOVER, R498 -/
  | thermRecover (tj : Int)
  /-- AVS_PERIOD, R500 -/
  | avsPeriod (paces : List Nat) (ack : Bool)
  /-- WEAR_REFRESH, R502 -/
  | wearRefresh (wears : List Nat)
  /-- ASSAY_REQUEST, R506 -/
  | assayRequest (m : Master) (cls : BitVec 4) (idx : BitVec 12)
  /-- ASSAY_ABORT, R506 -/
  | assayAbort (m : Master)
  /-- ASSAY_RUN, R505 -/
  | assayRun
  /-- ASSAY_RESULT, R513 -/
  | assayResult (code : BitVec 4) (detail : BitVec 32) (rows : List Nat)
  /-- RES_POP, R513 -/
  | resPop (m : Master)
  /-- LGR_POP, R513 -/
  | lgrPop (m : Master)
  /-- MAINTENANCE_ENTER, R509 -/
  | maintenanceEnter (m : Master)
  /-- RAIL_ENTER, R525 -/
  | railEnter (r : Fin 5)
  /-- RAIL_LEAVE, R531 -/
  | railLeave (r : Fin 5)
  /-- TB_PLL_LOCK, R375 -/
  | tbPllLock
  /-- AUDIO_PLL_LOCK, R205 -/
  | audioPllLock
  /-- CONFIGURATION_REQUEST, R481 -/
  | configurationRequest (f : Fin 2) (r : CfgReg) (write : Bool) (v : BitVec 32)
  /-- PCIE_LINK_STATE, R488 -/
  | pcieLinkState (up : Bool)
  /-- TESTMODE, R523 -/
  | testmode (high : Bool)
deriving DecidableEq, Repr

end Sys2Proof
end

