-- ==== Sys2Proof/Decode.lean ====
section
/-! DEFINITION. The commands that table words spell. The operation table gives no row any bits (its "fields" lists are
empty), so no word spells a command. -/

namespace Sys2Proof

/-- The command that the low nbits of a word spell: none, for no row of the table gives bits. -/
def decodeTableWord (_nbits _w : Nat) : Option Instr := none

end Sys2Proof
end

