-- ==== Sys2Proof/Machine/Chip.lean ====
section
/-! DEFINITION. The state of the block, but for its queue of commands. -/

namespace Sys2Proof.Machine

structure Chip where
  /-- the register fields that do not hold their reset value -/
  flds : List (FKey × Nat)
  /-- the local memory ranges of Table 1.3 -/
  mem : List Host.Cell
  /-- error and poison marks, by the first address of the code unit -/
  marks : NStore Mark
  /-- the time base count (R374) -/
  tb : Count
  /-- how often the count has wrapped (R378) -/
  wraps : Nat
  /-- how many free values the run has taken (the model's own) -/
  freeCtr : Nat
  /-- the error log, oldest first (R364) -/
  elog : List ErrRec
  /-- responses on their way to their masters, oldest first -/
  resps : List Resp
  /-- events produced and not yet delivered -/
  evq : List Arrival
  /-- the last fabric instant taken (R401), and the largest hop count among the arrivals a task input counts (R405) -/
  evAt : Option Nat
  evHops : NStore Nat
  /-- the error hours that run: store, first instant and errors (R366) -/
  ceHours : NStore (Nat × Nat)
  /-- the scan heads -/
  heads : NStore Head
  /-- the genlock receiver -/
  genlock : Genlock
  /-- the line program engines -/
  lpes : NStore Lpe
  /-- the compositor's state for each head -/
  comps : NStore Comp
  /-- the line copies of the layer registers, by layer * 4096 + offset (R43) -/
  lineCopies : NStore Nat
  /-- the live layer registers written since the last course of their layer began (R44) -/
  liveDirty : List Nat
  /-- the hallmark regions, by head * 64 + region -/
  regions : NStore Region
  /-- accesses an engine has issued and the fabric has not yet taken -/
  issueQ : List Access
  links : NStore Link
  net : Net
  /-- bits [63:32] of the count as latched for each reader: an identity of this package, or 1000 + link (R377) -/
  tbHi : NStore Nat
  cmps : NStore CmpSt
  intvs : NStore IntSt
  caps : NStore CapSt
  adc : AdcSt
  /-- ingot blocks retired by assay (R372) -/
  retired : List Nat
  cores : NStore Core
  /-- messages held by each mailbox channel -/
  mbx : NStore (List Msg)
  /-- the staging sets of the identities that are no cores -/
  stages : NStore MbxStage
  /-- the physical unit that serves a logical one, by class * 4096 + logical number (Table 16.6); itself where none is listed -/
  phys : NStore Nat
  /-- units marked unusable, by class * 4096 + physical number -/
  unusable : List Nat
  /-- logical units that the last start left without a good physical unit, by class * 4096 + logical number (R514) -/
  dead : List Nat
  /-- wake sources that stand while the device is in or entering S2 to S4: cause bit, port and instant (R493) -/
  wakes : List (Nat × Nat × Nat)
  psm : Psm
  asy : Asy
  boot : Boot
  pcie : Pcie
  smb : Smb
  /-- the host functions whose Bus Master Enable bit is 1 (R341, R481) -/
  busMaster : List Nat
  blt : Blt
  /-- the DMA channels, and the channel that last began a burst for each PRIO (R251) -/
  dma : NStore DmaChan
  dmaRr : NStore Nat
  /-- the level that the outside drives at a port, where it drives one -/
  pads : NStore Bool
  /-- the levels that the input synchronisers took at each tick, newest first: the count, and a word for each bank (R413) -/
  samples : List (Nat × List Nat)
  /-- the tick at which each edge detector last produced its event (R421) -/
  evkAt : NStore Nat
  /-- the last value of the count that an added tick skipped (R376) -/
  skipped : Option Nat
  /-- the supply of each pin bank: 0 absent or out of range, 1 1.8 V, 2 3.3 V (R408) -/
  vio : NStore Nat
  lockSeq : Option LockSeq
  /-- UART u at u, SPI s at 16 + s, I2C i at 24 + i -/
  serials : NStore Serial
  psqs : NStore Psq
  snd : Sound
  /-- a bank or row replacement that runs (R367, R371) -/
  repair : Option Repair
  /-- accesses held while a bank is drained, oldest first (R367) -/
  held : List Access
  /-- an access of the running command met a bank that is being drained, and waits (R367) -/
  waits : Bool
deriving DecidableEq, Repr

/-- A block in which nothing has happened: every register at its reset value, every engine at rest, every store empty. -/
def Chip.fresh : Chip :=
  { flds := [], mem := [], marks := [], tb := 0, wraps := 0, freeCtr := 0, elog := [], resps := [], evq := [], evAt := none, evHops := [],
    ceHours := [], heads := [], genlock := {}, lpes := [], comps := [], lineCopies := [], liveDirty := [], regions := [],
    issueQ := [], links := [], net := {}, tbHi := [], cmps := [], intvs := [], caps := [], adc := {}, retired := [],
    cores := [], mbx := [], stages := [], phys := [], unusable := [], dead := [], wakes := [], psm := {}, asy := {}, boot := {},
    pcie := {}, smb := {}, busMaster := [], blt := {}, dma := [], dmaRr := [], pads := [], samples := [], evkAt := [], skipped := none, vio := [], lockSeq := none,
    serials := [], psqs := [], snd := {}, repair := none, held := [], waits := false }

end Sys2Proof.Machine
end

