-- ==== Sys2Proof/Machine/State.lean ====
section
/-! DEFINITION. The state of the block: its commands that wait, its always-on supply, and everything else. -/

namespace Sys2Proof.Machine

/-- The always-on supply: power-on reset holds (R526); the TESTMODE ball reads high (R523). -/
structure Supply where
  por : Bool
  testmode : Bool
deriving DecidableEq, Repr

structure State where
  /-- the commands that wait, first in, first out -/
  pending : List Instr
  sup : Supply
  chip : Chip
deriving DecidableEq, Repr

/-- Why a command stops the block. There is no such reason: every command of this block has an effect, and an access that
fails ends with an error response, which is an effect too. -/
inductive Fault where
deriving DecidableEq, Repr

/-- Why a command has no meaning. -/
inductive Refusal where
  /-- raised by a row of the table whose meaning is not written; safe; no row of this model raises it -/
  | notModelled (mnemonic : String)
deriving DecidableEq, Repr

/-- The block right after power-on reset releases: every register at its reset value (R8), the stores and queues empty,
every switched domain off, the ports parked, the boot memory erased, and start-up due (R468, R526). -/
def State.reset : State :=
  { pending := [], sup := ⟨false, false⟩, chip := { Chip.fresh with boot := { due := some 0 } } }

end Sys2Proof.Machine
end

