-- ==== Sys2Proof/Config.lean ====
section
/-! DEFINITION. What the spec leaves open: the free values. Nothing in Lean can evaluate one or prove a value of it.
See notes/assumptions/1.md. -/

namespace Sys2Proof

/-- The n-th free value of a run, w bits wide: any value the spec does not state. DESIGN CHOICE: the machine's state
counts the free values it has taken (`freeCtr`), so that two of them need not agree. -/
opaque Config.freeValue (w n : Nat) : BitVec w

end Sys2Proof
end

