-- ==== Sys2Proof/Machine/Ops.lean ====
section
/-! DEFINITION. The named operations over registers, memory, free values, events and the error log. -/

namespace Sys2Proof.Machine

/-! ### Register fields -/

/-- A field's width in bits. -/
def Fd.width (f : Fd) : Nat := f.hi + 1 - f.lo

/-- The key under which a field of register (i, j) is held. -/
def Fd.key (f : Fd) (i j : Nat) : FKey := ⟨f.id, f.lo, i, j⟩

/-- The reset value of a field of register (i, j): the table's, or the value the spec gives by index
(R111: lane j serves head j div 2; R180 and R470: LUT entry i; R367: bank b on physical bank b; Table 13.5: banks B00 to
B07 fixed at 3.3 V; R482: vector 0 of functions 0 and 1; R326: the targets of sources 1 to 64). -/
def Fd.resetAt (f : Fd) (i j : Nat) : Nat :=
  match f.id with
  | .cpsLane => if f.lo = 0 then i / 2 else f.rst
  | .cpsLaneAct => if f.lo = 0 then i / 2 else f.rst
  | .shLut => j % 4096
  | .fabMap => i
  | .pinBank => if f.lo = 0 ∧ i < 8 then 1 else f.rst
  | .hstF0vec => if i = 0 then (if f.lo = 0 then 339 else 1) else f.rst
  | .hstF1vec => if i = 0 then (if f.lo = 0 then 340 else 1) else f.rst
  | .intcSrc => if f.lo = 16 ∧ i < 64 then 2 ^ (i / 8) else f.rst
  | _ => f.rst

/-- The order in which fields are listed. -/
def FKey.lt (a b : FKey) : Bool :=
  if a.id = b.id then
    if a.i = b.i then (if a.j = b.j then decide (a.lo < b.lo) else decide (a.j < b.j)) else decide (a.i < b.i)
  else decide (a.id.ctorIdx < b.id.ctorIdx)

/-- The value of a register field. -/
def Chip.fld (s : Chip) (f : Fd) (i : Nat := 0) (j : Nat := 0) : Nat :=
  (Store.get? (f.key i j) s.flds).getD (f.resetAt i j)

/-- A register field set, cut to its width; a field at its reset value is not listed. -/
def Chip.setFld (s : Chip) (f : Fd) (i j v : Nat) : Chip :=
  { s with flds :=
      if v % 2 ^ f.width = f.resetAt i j then Store.erase (f.key i j) s.flds
      else Store.put FKey.lt (f.key i j) (v % 2 ^ f.width) s.flds }

/-- A one-bit field as a truth value. -/
def Chip.on (s : Chip) (f : Fd) (i : Nat := 0) (j : Nat := 0) : Bool := s.fld f i j != 0

/-- A one-bit field set to a truth value. -/
def Chip.setOn (s : Chip) (f : Fd) (i j : Nat) (b : Bool) : Chip := s.setFld f i j (b2n b)

/-- A 64-bit value held in two 32-bit fields. -/
def Chip.fld64 (s : Chip) (lo hi : Fd) (i : Nat := 0) (j : Nat := 0) : Nat := s.fld lo i j + 2 ^ 32 * s.fld hi i j

/-- A 64-bit value put into two 32-bit fields. -/
def Chip.setFld64 (s : Chip) (lo hi : Fd) (i j v : Nat) : Chip := (s.setFld lo i j v).setFld hi i j (v / 2 ^ 32)

/-- A saturating counter advanced by n: COUNT stops at 0xFFFF, and SAT is set when it is reached
(DEDUCED, notes/assumptions/4.md). -/
def Chip.bump (s : Chip) (cnt sat : Fd) (i : Nat := 0) (j : Nat := 0) (n : Nat := 1) : Chip :=
  let v := s.fld cnt i j + n
  if v < 0xFFFF then s.setFld cnt i j v else (s.setFld cnt i j 0xFFFF).setFld sat i j 1

/-- The bits of a register's fields that a read returns: every field but the write-only ones. -/
def Chip.word (s : Chip) (id : RegId) (i : Nat := 0) (j : Nat := 0) : Nat :=
  id.row.flds.foldl (fun w f => if f.acc = .wo then w else w + s.fld f i j * 2 ^ f.lo) 0

/-- Every field of a register set from a word. -/
def Chip.setWord (s : Chip) (id : RegId) (i j w : Nat) : Chip :=
  id.row.flds.foldl (fun t f => t.setFld f i j (w / 2 ^ f.lo)) s

/-- The bits of a word that lie in fields of a register. -/
def RegId.mask (id : RegId) (w : Nat) : Nat :=
  id.row.flds.foldl (fun a f => a + w / 2 ^ f.lo % 2 ^ f.width * 2 ^ f.lo) 0

/-! ### The count that wraps -/

/-- The ticks counted so far: the count, and its wraps (R374, R378). The instants that a scan head keeps are measured so
(DEDUCED, notes/assumptions/81.md). -/
def Chip.ticks (s : Chip) : Nat := s.wraps * 2 ^ 64 + s.tb.toNat

/-- (a - b) modulo 2^64. -/
def sub64 (a b : Nat) : Nat := (2 ^ 64 - b % 2 ^ 64 + a) % 2 ^ 64

/-! ### CRC-32C (R139) -/

/-- k shifts of the CRC-32C register (R139). -/
def crcShift (c : Nat) : Nat → Nat
  | 0 => c
  | k + 1 => crcShift (if c % 2 = 1 then Nat.xor (c / 2) 0x82F63B78 else c / 2) k

/-- One byte entered. -/
def crcByte (c b : Nat) : Nat := crcShift (Nat.xor c b) 8

/-- n bytes of a value entered, low byte first. -/
def crcBytes (c v : Nat) : Nat → Nat
  | 0 => c
  | n + 1 => crcBytes (crcByte c (v % 256)) (v / 256) n

/-- The signature of a CRC register. -/
def crcEnd (c : Nat) : Nat := Nat.xor c 0xFFFFFFFF

/-! ### Free values -/

/-- A value the spec does not state, w bits wide, and the state that has taken it. -/
def Chip.free (s : Chip) (w : Nat) : Nat × Chip :=
  ((Config.freeValue w s.freeCtr).toNat, { s with freeCtr := s.freeCtr + 1 })

/-- Whether frame a is frame b or one before it, frame numbers counting modulo 2^32 (R171). -/
def frameLe (a b : Nat) : Bool := decide ((b + 2 ^ 32 - a % 2 ^ 32) % 2 ^ 32 < 2 ^ 31)

/-- A register field set to a free value. -/
def Chip.freeFld (s : Chip) (f : Fd) (i : Nat := 0) (j : Nat := 0) : Chip :=
  (s.free f.width).2.setFld f i j (s.free f.width).1

/-! ### Events (R399 to R406) -/

/-- The indices of the listed registers of a family whose field holds v: for the selectors whose reset selects nothing. -/
def Chip.selecting (s : Chip) (f : Fd) (v : Nat) : List Nat :=
  s.flds.filterMap fun p => if p.1.id = f.id ∧ p.1.lo = f.lo ∧ p.2 = v then some p.1.i else none

/-- An event put on its way with the routing as it now stands (R402). -/
def Chip.enqueue (s : Chip) (p hop : Nat) : Chip :=
  { s with evq := s.evq ++ [⟨p, s.tb.toNat, hop, s.selecting F.evfTask_SRC p, s.selecting F.evfFlag_SETSRC p,
      s.selecting F.evfFlag_CLRSRC p⟩] }

/-- Producer p raises an event with a hop count; one above HOPMAX is dropped and reported (R405, R406). -/
def Chip.raiseHop (s : Chip) (p hop : Nat) : Chip :=
  if hop ≤ s.fld F.evfCfg_HOPMAX then s.enqueue p hop
  else
    let t := ((s.setFld F.evfStat_LASTSRC 0 0 p).bump F.evfLoopcnt_COUNT F.evfLoopcnt_SAT)
    if s.on F.evfStat_LOOP then t else (t.setFld F.evfStat_LOOP 0 0 1).enqueue 382 0

/-- Producer p raises an event with hop count 0. -/
def Chip.raise (s : Chip) (p : Nat) : Chip := s.raiseHop p 0

/-- A sticky bit set by its cause; its change from 0 to 1 raises producer p. -/
def Chip.stick (s : Chip) (f : Fd) (i p : Nat) (j : Nat := 0) : Chip :=
  if s.on f i j then s else (s.setFld f i j 1).raise p

/-! ### Chip number, stores and the error log -/

/-- The package's own chip number (R22, R470). -/
def Chip.chipNo (s : Chip) : Nat := s.fld F.hstChip_CHIP

/-- The logical pattern bank of a local address (R350). -/
def patBank (a : Nat) : Nat := (a - 0x08000000) / 256 % 28

/-- The frame-store bank, 0 to 15, of a local address (R351). -/
def fsBank (a : Nat) : Nat := 2 * (a / 0x01000000) + a % 0x01000000 / 256 % 2

/-- The row of a frame-store address in its bank (R351). -/
def fsRow (a : Nat) : Nat := (a % 0x01000000 / 512 * 256 + a % 256) / 2048

/-- The store number that serves a local address (Table 11.2); 31 where none does. -/
def Chip.storeOf (s : Chip) (a : Nat) : Nat :=
  if a < 0x08000000 then 32 + fsBank a
  else if a < 0x16000000 then s.fld F.fabMap_PHYS (patBank a)
  else if a < 0x17000000 then 48
  else if a < 0x17100000 then 49
  else if a < 0x17200000 then 50
  else if a < 0x17210000 then 51
  else if 0x18000000 ≤ a ∧ a < 0x1A000000 then 56 + (a - 0x18000000) / 0x400000
  else 31

/-- The identity number of a master. -/
def Master.idNo : Master → Nat
  | .own id => id
  | .remote _ _ id => id

/-- The chip number of a master. -/
def Chip.masterChip (s : Chip) : Master → Nat
  | .own _ => s.chipNo
  | .remote _ c _ => c

/-- Whether two accesses come from one master: its identity is its chip and its number, whatever link it comes over (R28). -/
def Master.same : Master → Master → Bool
  | .own i, .own j => i == j
  | .remote _ c i, .remote _ d j => c == d && i == j
  | _, _ => false

/-- A record entered in the error log (R357, R364, R365). -/
def Chip.logErr (s : Chip) (kind : Nat) (m : Master) (store addr : Nat) : Chip :=
  if s.elog.length < 16 then
    let r : ErrRec := ⟨kind, m.idNo, s.masterChip m, store, addr, s.tb.toNat % 2 ^ 32⟩
    let t := { s with elog := s.elog ++ [r] }
    if s.elog.length = 0 then t.raise 343 else t
  else
    (s.bump F.fabElogLevel_OVF F.fabElogLevel_SAT).stick F.fabStat_ELOG_OVF 0 342

/-- The fabric address of a local address of this package. -/
def Chip.localAddr (s : Chip) (a : Nat) : Nat := s.chipNo * 2 ^ 30 + a

/-- The record kind an error response is entered under (Table 11.5). -/
def RespKind.errKind : RespKind → Nat
  | .okay => 0
  | .poison => 1
  | .decode => 4
  | .domainOff => 5
  | .target => 6
  | .link => 7

/-! ### The stores' codes (R358 to R363, R366, R550) -/

/-- A correctable error counted against store st, and its error hour (R359, R366). -/
def Chip.countCe (s : Chip) (st : Nat) : Chip :=
  let t := s.bump F.fabCe_COUNT F.fabCe_SAT st
  let h := match Store.get? st s.ceHours with
    | some (b, n) => if sub64 s.tb.toNat b < 3600000000000 then (b, n + 1) else (s.tb.toNat, 1)
    | none => (s.tb.toNat, 1)
  let t := { t with ceHours := NStore.set t.ceHours st h }
  if s.fld F.fabCethr_THR < h.2 then t.stick F.fabStat_CE_HIGH 0 342 else t

/-- An uncorrectable error counted against store st (R360, R365). -/
def Chip.countUe (s : Chip) (st : Nat) : Chip :=
  (s.bump F.fabUe_COUNT F.fabUe_SAT st).stick F.fabStat_UE 0 342

/-- The size of the code unit at a local memory address (R550). -/
def unitSize (a : Nat) : Nat :=
  if (0x17000000 ≤ a ∧ a < 0x17100000) ∨ (0x17200000 ≤ a ∧ a < 0x17210000) then 4 else 16

/-- The first addresses of the code units that n bytes from a touch. -/
def unitsOf (a n : Nat) : List Nat :=
  let u := unitSize a
  (List.range ((a + n + u - 1) / u - a / u)).map fun k => (a / u + k) * u

/-- One code unit checked by a read: a correctable error is counted and written back, an uncorrectable one is counted
and made poison; the answer says whether the unit is poisoned (R359, R360). -/
def Chip.checkUnit (s : Chip) (u : Nat) : Bool × Chip :=
  match Store.get? u s.marks with
  | none => (false, s)
  | some .correctable => (false, { (s.countCe (s.storeOf u)) with marks := NStore.del s.marks u })
  | some .uncorrectable => (true, { (s.countUe (s.storeOf u)) with marks := NStore.set s.marks u .poison })
  | some .poison => (true, s)

/-- The code units of a read checked one after another. -/
def Chip.checkUnits (s : Chip) : List Nat → Bool × Chip
  | [] => (false, s)
  | u :: t => ((s.checkUnit u).1 || ((s.checkUnit u).2.checkUnits t).1, ((s.checkUnit u).2.checkUnits t).2)

/-- n bytes read at a store: the data, whether it is poisoned, and the state after any correction. -/
def Chip.memRead (s : Chip) (a n : Nat) : Nat × Bool × Chip :=
  (Memory.read s.mem a n, s.checkUnits (unitsOf a n))

/-- The bytes read. -/
def Chip.memData (s : Chip) (a n : Nat) : Nat := Memory.read s.mem a n

/-- What a write leaves in the mark of one code unit it touches (R361, R363): poisoned data poisons it, a whole write
heals it, a narrow one corrects a correctable error and keeps poison; an armed injection is stored with it. -/
def Chip.markUnit (s : Chip) (m : Master) (a n : Nat) (poison : Bool) (u : Nat) : Chip :=
  let whole := decide (a ≤ u ∧ u + unitSize a ≤ a + n)
  let old := Store.get? u s.marks
  let merge := !whole && (old == some .uncorrectable || old == some .poison)
  let t := if poison || merge then { s with marks := NStore.set s.marks u .poison }
    else { s with marks := NStore.del s.marks u }
  let t := if merge && !poison then t.logErr 8 m (s.storeOf u) (s.localAddr a) else t
  let k := s.fld F.fabInjHi_KIND
  if k ≠ 0 ∧ s.fld F.fabInjLo_ADDR = u / 16 then
    { t with marks := NStore.set t.marks u (if k = 2 ∨ poison || merge then .poison else .correctable) }
  else t

/-- The injector disarmed by a write that covers a byte of the armed beat (R363). -/
def Chip.disarmInj (s : Chip) (a n : Nat) : Chip :=
  if s.fld F.fabInjHi_KIND ≠ 0 ∧ a / 16 ≤ s.fld F.fabInjLo_ADDR ∧ s.fld F.fabInjLo_ADDR ≤ (a + n - 1) / 16 then
    s.setFld F.fabInjHi_KIND 0 0 0
  else s

/-- n bytes written at a store (R361, R363). -/
def Chip.memWrite (s : Chip) (m : Master) (a n v : Nat) (poison : Bool) : Chip :=
  let t := (unitsOf a n).foldl (fun t u => t.markUnit m a n poison u) { s with mem := Memory.write s.mem a v n }
  t.disarmInj a n

/-- Whether a power domain is on (R485). -/
def Chip.domOn (s : Chip) (d : Nat) : Bool := bit (s.fld F.psmDom_ON (d / 32)) (d % 32)

/-- The physical unit that serves logical unit i of an assay class (R24). -/
def Chip.physOf (s : Chip) (cls i : Nat) : Nat := NStore.get i s.phys (cls * 4096 + i)

/-! ### Stores that are off, and banks that are drained (R13, R367) -/

/-- The power domain of the store at a local memory address (Table 16.1). -/
def memDomain (a : Nat) : Nat :=
  if a < 0x08000000 then 39 else if a < 0x16000000 then 38 else if a < 0x17000000 then 40 else 37

/-- Whether an engine's access to the store at a local memory address is served (R13). -/
def Chip.storeUp (s : Chip) (a : Nat) : Bool := s.domOn (memDomain a)

/-- The record of an engine's access to a store whose domain is off (R13, R357). -/
def Chip.logOff (s : Chip) (m : Master) (a : Nat) : Chip := s.logErr 5 m (s.storeOf a) (s.localAddr a)

/-- Whether a local memory address lies in what a repair replaces. -/
def Repair.covers (r : Repair) (a : Nat) : Bool :=
  if r.store < 28 then decide (0x08000000 ≤ a ∧ a < 0x16000000 ∧ patBank a = r.store)
  else decide (a < 0x08000000 ∧ 32 + fsBank a = r.store ∧ fsRow a = r.row)

/-- Whether an access to n bytes from local address a is held by a repair in its DRAIN phase (R367). -/
def Chip.heldByRepair (s : Chip) (a n : Nat) : Bool :=
  match s.repair with
  | none => false
  | some r => s.fld F.fabSpareStat_PHASE == 2 && (r.covers a || r.covers (a + n - 1))

/-- An access of the running command to n bytes from local address a, which waits where the bank is being drained. -/
def Chip.touch (s : Chip) (a n : Nat) : Chip := if s.heldByRepair a n then { s with waits := true } else s

/-- What a command does, unless one of its accesses meets a bank that is being drained: then nothing yet (R367). -/
def Chip.orWait (s : Chip) (f : Chip → Chip) : Chip :=
  if s.fld F.fabSpareStat_PHASE ≠ 2 then f s
  else
    let t := f { s with waits := false }
    if t.waits then s else t

/-- Whether an earlier access b holds back an access a: b is a write of the same master to the same 4 KiB page
(R353, R354). A remote master is the same over whatever link it comes (R28). -/
def Access.holdsBack (b a : Access) : Bool :=
  b.mst.same a.mst && a.addr / 4096 == b.addr / 4096 && b.write

end Sys2Proof.Machine
end

