-- ==== Sys2Proof/Machine/Heads.lean ====
section
/-! DEFINITION. The scan heads (spec/06_scan_heads.md): starting and stopping, clocks and locks, the frame address, the
DisplayPort link, AUX and self-refresh, stamps and beam positions. What a latch line takes is in Latch.lean. -/

namespace Sys2Proof.Machine

/-- The inner state of head h. -/
def Chip.head (s : Chip) (h : Nat) : Head := NStore.get {} s.heads h

/-- The inner state of head h changed. -/
def Chip.updHead (s : Chip) (h : Nat) (f : Head → Head) : Chip := { s with heads := NStore.set s.heads h (f (s.head h)) }

/-- A W1C bit of SHn_STAT or SHn_DPSTAT set; a change from 0 to 1 raises HEAD_STAT (R176, R177), but in self-refresh the
head produces no events (R192; DEDUCED, notes/assumptions/50.md). -/
def Chip.headStat (s : Chip) (f : Fd) (h : Nat) : Chip :=
  if s.on F.shDpstat_PSR_ACT h then s.setFld f h 0 1 else s.stick f h (13 * h + 7)

/-! ### Timing (R160 to R162, R186) -/

/-- Pixel clocks per dot. -/
def Chip.rep (s : Chip) (h : Nat) : Nat := s.fld F.shFormat_REPM1 h + 1

/-- Bytes per pixel of the frame store. -/
def Chip.fsBytes (s : Chip) (h : Nat) : Nat := if s.fld F.shFormat_FSFMT h = 0 then 2 else 4

/-- The line pitch P (R162). -/
def Chip.pitch (s : Chip) (h : Nat) : Nat := (s.fld F.shHtime_HA h * s.fsBytes h + 15) / 16 * 16

/-- The lane rate of an encoded DisplayPort rate, in kb/s. -/
def dpRate (r : Nat) : Nat := if r = 0 then 1620000 else if r = 1 then 2700000 else if r = 2 then 5400000 else 8100000

/-- Whether a link configuration carries the stream at a pixel clock of f / 4096 kHz (R186). -/
def Chip.dpFitsAt (s : Chip) (h rate lanes f : Nat) : Bool :=
  let w := 6 + 2 * s.fld F.shDpcfg_BPC h
  decide (f * 3 * w * 10 ≤ 2 ^ lanes * dpRate rate * 8 * 4096)

/-- Whether a link configuration carries the stream (R186). -/
def Chip.dpFits (s : Chip) (h rate lanes : Nat) : Bool := s.dpFitsAt h rate lanes (s.fld F.shPclk_FREQ h)

/-- Whether the settings lie within Table 6.2 with a pixel clock of f / 4096 kHz (R161, R165). -/
def Chip.timingAt (s : Chip) (h f : Nat) : Bool :=
  let ha := s.fld F.shHtime_HA h
  let ht := s.fld F.shHtime_HT h
  let va := s.fld F.shVtime_VA h
  let vt := s.fld F.shVtime_VT h
  let hfp := s.fld F.shHsync_HFP h
  let hsw := s.fld F.shHsync_HSW h
  let vfp := s.fld F.shVsync_VFP h
  let vsw := s.fld F.shVsync_VSW h
  let out := s.fld F.shOut_OUTSEL h
  let lineMin := 15 * 4096 * ht * s.rep h
  let lineMax := 135 * 4096 * ht * s.rep h
  let parMax := if s.fld F.pinBank_VSEL (8 + 2 * h) = 0 && s.fld F.pinBank_VSEL (9 + 2 * h) = 0 then 165000 else 100000
  decide (16 ≤ ha ∧ ha ≤ 4096 ∧ ha + 32 ≤ ht ∧ ht ≤ 8192 ∧ 1 ≤ hfp ∧ 1 ≤ hsw ∧ ha + hfp + hsw + 1 ≤ ht)
  && decide (16 ≤ va ∧ va ≤ 4096 ∧ va + 3 ≤ vt ∧ vt ≤ 8192 ∧ 1 ≤ vfp ∧ 1 ≤ vsw ∧ va + vfp + vsw + 1 ≤ vt)
  && decide (25000 * 4096 ≤ f ∧ f ≤ 600000 * 4096 ∧ lineMin ≤ f ∧ s.pitch h * va ≤ 2 ^ 24)
  && (if out ≤ 1 then s.dpFitsAt h (s.fld F.shDpcfg_MAXRATE h) (s.fld F.shDpcfg_LANES h) f
      else if out = 2 then decide (f ≤ lineMax) else decide (f ≤ parMax * 4096))

/-- Whether the settings lie within Table 6.2 (R161). -/
def Chip.timingOk (s : Chip) (h : Nat) : Bool := s.timingAt h (s.fld F.shPclk_FREQ h)

/-- The frame period TBPER of TBLOCK mode in 1/64 tk (R169). -/
def Chip.tbPer64 (s : Chip) (h : Nat) : Nat := s.fld F.shTbperHi_PERHI h * 2 ^ 32 + s.fld F.shTbper_PER h

/-- The conditions of R170. -/
def Chip.startOk (s : Chip) (h : Nat) : Bool :=
  s.timingOk h && s.on F.shStat_PLL_LOCK h && (s.fld F.shLock_SYNCSRC h != 2 || s.tbPer64 h != 0)

/-- The measured frame period of the genlock reference in 1/64 tk, and its lines; 0 before there is one (R168). -/
def Genlock.per64 (g : Genlock) : Nat := match g.frames with | p :: _ => p.1 | [] => 0
def Genlock.lines (g : Genlock) : Nat := match g.frames with | p :: _ => p.2 | [] => 0

/-- The frame period of the lock source in 1/64 tk, 0 where the head has none. -/
def Chip.lockPer64 (s : Chip) (h : Nat) : Nat :=
  if s.fld F.shLock_SYNCSRC h = 2 then s.tbPer64 h
  else if s.fld F.shLock_SYNCSRC h = 1 then (if (s.head h).hold then (s.head h).heldPer else s.genlock.per64) else 0

/-- An instant of the lock source's targets in 1/64 tk (R165). -/
def Chip.lockBase64 (s : Chip) (h : Nat) : Int :=
  if s.fld F.shLock_SYNCSRC h = 2 then (s.fld64 F.shTbepochLo_EPOCH F.shTbepochHi_EPOCH h * 64 : Nat)
  else (s.genlock.ref64 : Int) + sx 32 (s.fld F.shGloffs_OFFS h) * 64

/-- Whether the lock source's period can be followed: within 1 % of FREQ and within Table 6.2 (R165). -/
def Chip.followable (s : Chip) (h : Nat) : Bool :=
  let per := s.lockPer64 h
  let clocks := s.fld F.shVtime_VT h * s.fld F.shHtime_HT h * s.rep h
  let need := clocks * 64 * 4096 * 1000000 / max 1 per
  let f := s.fld F.shPclk_FREQ h
  decide (per ≠ 0 ∧ 99 * f ≤ 100 * need ∧ 100 * need ≤ 101 * f) && s.timingAt h need

/-- The dot period in 1/2^24 tk (SHn_DOTPER): from FREQ, or such that a frame lasts the lock source's period where the
head follows it (R165); since the PLL lost lock, the one it had then (R164). The fraction below 1/2^24 tk is dropped
(DEDUCED, notes/assumptions/6.md). -/
def Chip.dot24 (s : Chip) (h : Nat) : Nat :=
  if (s.head h).heldDot ≠ 0 then (s.head h).heldDot
  else if s.followable h then s.lockPer64 h * 2 ^ 18 / (s.fld F.shVtime_VT h * s.fld F.shHtime_HT h)
  else s.rep h * 2 ^ 24 * 4096 * 1000000 / max 1 (s.fld F.shPclk_FREQ h)

/-- The dot period in 1/65,536 tk. -/
def Chip.dot16 (s : Chip) (h : Nat) : Nat := s.dot24 h / 256

/-- n dots in 1/65,536 tk. -/
def Chip.dots16 (s : Chip) (h : Nat) (n : Int) : Int := n * (s.dot24 h : Int) / 256

/-- The delay from scan tap to pad in 1/65,536 tk (Table 6.12). -/
def Chip.padDelay16 (s : Chip) (h : Nat) : Nat :=
  let clks (n : Nat) := n * s.dot24 h / (256 * s.rep h)
  let out := s.fld F.shOut_OUTSEL h
  if out = 2 then clks 8 else if out = 3 then clks 4 else clks 40 + 12 * 65536

/-- The present instant in 1/65,536 tk. -/
def Chip.now16 (s : Chip) : Nat := s.ticks * 65536

/-- The phase error of an instant t16 (1/65,536 tk) at the scan tap: the distance of its pad time from the nearest target
(R165, R166). -/
def Chip.phase16 (s : Chip) (h t16 : Nat) : Int :=
  let per : Int := (s.lockPer64 h * 1024 : Nat)
  if per = 0 then 0 else
    let r := ((t16 + s.padDelay16 h : Nat) - s.lockBase64 h * 1024) % per
    if 2 * r ≤ per then r else r - per

/-- The starting instant of a waiting start, in 1/65,536 tk, where it lies in the present tick (R170): at once in FREE mode,
`frac` into the tick; else the instant whose pad time is a target at least 100 µs after the write, in GENLOCK mode while the
receiver reports STABLE. -/
def Chip.startAt (s : Chip) (h frac : Nat) : Option Nat :=
  if s.fld F.shLock_SYNCSRC h = 0 then some (s.now16 + frac)
  else if s.lockPer64 h = 0 ∨ (s.fld F.shLock_SYNCSRC h = 1 ∧ !s.on F.glStat_STABLE) then none
  else
    let pad := s.padDelay16 h
    let r := ((s.lockBase64 h * 1024 - pad - s.now16) % ((s.lockPer64 h * 1024 : Nat) : Int)).toNat
    let t := s.now16 + r
    if r < 65536 ∧ (s.head h).startAfter * 65536 ≤ t + pad then some t else none

/-! ### The beam (R160, R176, R184) -/

/-- The instant at which line 0 of the present frame begins at the scan tap, in 1/65,536 tk. -/
def Chip.top16 (s : Chip) (h : Nat) : Int :=
  match (s.head h).cur with
  | some x => (x.time : Int) - s.padDelay16 h
  | none => 0

/-- The instant at which dot x of beam line y of the present frame begins at the scan tap. The latch line VT - 1 of a frame
lies before its line 0, as the frame count turns at its start (R160, R173). -/
def Chip.beam16 (s : Chip) (h x y : Nat) : Int :=
  if y = s.fld F.shVtime_VT h - 1 then (s.head h).latchAt + s.dots16 h x
  else s.top16 h + s.dots16 h (y * s.fld F.shHtime_HT h + x : Nat)

/-- Whether an instant of a running head lies in the present tick. -/
def Chip.inTick (s : Chip) (h : Nat) (t : Int) : Bool := s.on F.shStat_RUNNING h && decide (t / 65536 = s.ticks)

/-- A beam event of a head, once in a tick (R176). -/
def Chip.beamEvent (s : Chip) (h k : Nat) : Chip :=
  if NStore.get 0 (s.head h).fired k = s.ticks + 1 then s
  else (s.updHead h fun x => { x with fired := NStore.put0 x.fired k (s.ticks + 1) }).raise (13 * h + k)

/-- Whether line y of the present frame starts in the present tick. -/
def Chip.lineStart (s : Chip) (h y : Nat) : Bool := s.inTick h (s.beam16 h 0 y)

/-! ### SHn_CTRL (R163, R170, R172) -/

/-- A start armed, or refused with CFG_ERR, which leaves none waiting (R161, R170). -/
def Chip.armStart (s : Chip) (h : Nat) (resume : Bool) : Chip :=
  if s.startOk h then
    s.updHead h fun x => { x with waiting := true, startAfter := s.ticks + 100000, resume := resume, hold := false }
  else (s.updHead h fun x => { x with waiting := false }).headStat F.shStat_CFG_ERR h

/-- The PLL_EN bit of a write to SHn_CTRL (R163). -/
def Chip.writePllEn (s : Chip) (h : Nat) (en : Bool) : Chip :=
  if en then s.setFld F.shCtrl_PLL_EN h 0 1
  else if s.on F.shStat_RUNNING h && s.on F.shCtrl_PLL_EN h then s.headStat F.shStat_CFG_REJ h
  else (s.setFld F.shCtrl_PLL_EN h 0 0).setFld F.shStat_PLL_LOCK h 0 0

/-- A write to SHn_CTRL. -/
def Chip.writeShCtrl (s : Chip) (h : Nat) (v : Nat) : Chip :=
  let t := s.writePllEn h (bit v 1)
  let t := t.setFld F.shCtrl_RUN h 0 (v % 2)
  if v % 2 = 0 then t.updHead h fun x => { x with waiting := false }
  else if t.on F.shStat_RUNNING h then t
  else t.armStart h false

/-- A write to SHn_FADDR (R174, R175); in page mode it is discarded (R105). -/
def Chip.writeShFaddr (s : Chip) (h : Nat) (v : Nat) : Chip :=
  if s.on F.shStat_RUNNING h && s.fld F.cpsCtrlAct_MODE h == 2 then s
  else
    let t := s.setFld F.shFaddr_OFFSET h 0 (bits v 23 12)
    if s.on F.shStat_RUNNING h then t.setFld F.shStat_FADDR_PEND h 0 1
    else (t.setFld F.shFaddrAct_OFFSET h 0 (bits v 23 12)).setFld F.shStat_FADDR_PEND h 0 0

/-- The pixel-clock PLL reaches lock while it is enabled (R163). -/
def Chip.pllLocked (s : Chip) (h : Nat) : Chip :=
  if s.on F.shCtrl_PLL_EN h then
    (s.setFld F.shStat_PLL_LOCK h 0 1).updHead h fun x => { x with heldDot := 0 }
  else s

/-- The PLL loses lock: a running head goes on at its last frequency (R164). -/
def Chip.pllLost (s : Chip) (h : Nat) : Chip :=
  let t := s.setFld F.shStat_PLL_LOCK h 0 0
  if s.on F.shStat_RUNNING h then
    (t.updHead h fun x => { x with heldDot := s.dot24 h }).headStat F.shStat_PLL_LOST h
  else t

/-! ### Genlock (R167 to R169) -/

/-- Whether three measured frames agree to within 1 tk in period and exactly in lines, each period below 2^32 tk
(R168, R169). -/
def framesAgree (l : List (Nat × Nat)) : Bool :=
  decide (3 ≤ l.length) && l.all fun a => decide (a.1 < 2 ^ 38) && l.all fun b => decide (a.1 ≤ b.1 + 64 ∧ a.2 = b.2)

/-- A frame reference, while the receiver is on and has its rail (R531), at the present tick, `f64` sixty-fourths into it, after `lines` lines (R168). -/
def Chip.genlockRef (s : Chip) (f64 lines : Nat) : Chip :=
  if s.on F.glCtrl_EN ∧ s.on F.sysSupply_VDAC_OK then
    let g := s.genlock
    let now := s.ticks * 64 + f64
    let per := now - g.ref64
    let frames := if g.seen then ((per, lines) :: g.frames).take 3 else []
    let stable := framesAgree frames
    let was := s.on F.glStat_STABLE
    let t := { s with genlock := ⟨true, now, frames, if was && !stable then s.tb.toNat else g.badSince⟩ }
    let t := t.setFld F.glStat_PRESENT 0 0 1
    let t := if g.seen then (t.setFld F.glFper_PER 0 0 per).setFld F.glLines_LINES 0 0 lines else t
    let t := if was && !stable then t.setFld F.glStat_LOST 0 0 1 else t
    t.setOn F.glStat_STABLE 0 0 stable
  else s

/-- The receiver without a reference: PRESENT and STABLE fall, and what it has measured no longer counts (R168). -/
def Chip.genlockAbsent (s : Chip) : Chip :=
  let since := if s.on F.glStat_STABLE then s.tb.toNat else s.genlock.badSince
  let t := (s.setFld F.glStat_PRESENT 0 0 0).setFld F.glStat_STABLE 0 0 0
  { t with genlock := { t.genlock with seen := false, badSince := since } }

/-- A write to SH0_GL_CTRL; a receiver turned off has no reference (DEDUCED, notes/assumptions/71.md). -/
def Chip.writeGlCtrl (s : Chip) (v : Nat) : Chip :=
  let t := (s.setFld F.glCtrl_EN 0 0 v).setFld F.glCtrl_TRI 0 0 (v / 2)
  if v % 2 = 0 then t.genlockAbsent else t

/-- The frame period of a head in tk. -/
def Chip.framePer (s : Chip) (h : Nat) : Nat := s.fld F.shVtime_VT h * s.fld F.shHtime_HT h * s.dot24 h / 2 ^ 24

/-- Three frame periods of head h without a reference, or without a stable one: an absent reference is reported, and the head
in GENLOCK mode keeps its frequency and loses the lock (R167). Before that, nothing. -/
def Chip.lockLost (s : Chip) (h : Nat) : Chip :=
  let absent := decide (3 * s.framePer h ≤ sub64 s.tb.toNat (s.genlock.ref64 / 64))
  let bad := !s.on F.glStat_STABLE && decide (3 * s.framePer h ≤ sub64 s.tb.toNat s.genlock.badSince)
  let t := if absent && s.on F.glStat_PRESENT then (s.setFld F.glStat_LOST 0 0 1).genlockAbsent else s
  if (absent || bad) && s.on F.shStat_RUNNING h && s.fld F.shLock_SYNCSRC h == 1 && !(s.head h).hold then
    ((t.updHead h fun x => { x with hold := true, heldPer := s.lockPer64 h }).setFld F.shStat_LOCKED h 0 0).headStat F.shStat_LOCK_LOST h
  else t

/-- A read of SH0_GL_FPER latches SH0_GL_FPER_HI (R169). -/
def Chip.readGlFper (s : Chip) : Nat × Chip :=
  (s.genlock.per64 % 2 ^ 32, s.setFld F.glFperHi_PERHI 0 0 (s.genlock.per64 / 2 ^ 32))

/-- A read of SH0_GL_FSTAMP_LO latches the HI register (Table 6.4). -/
def Chip.readGlFstamp (s : Chip) : Nat × Chip :=
  (s.genlock.ref64 / 64 % 2 ^ 32, s.setFld F.glFstampHi_T 0 0 (s.genlock.ref64 / 64 / 2 ^ 32))

/-! ### The DisplayPort link (R186 to R189, R192, R193) -/

/-- The configurations training tries, in order: the rate steps down, and then the lane count (R187). -/
def trainOrder (r l : Nat) : List (Nat × Nat) :=
  (List.range (l + 1)).flatMap fun dl => (List.range (r + 1)).map fun dr => (r - dr, l - dl)

/-- The link trained (R187). `good` says, at bit rate + 4 * lanes, with which configurations the sink locks. -/
def Chip.train (s : Chip) (h : Nat) (good : Nat) : Chip :=
  let x := s.head h
  let r := min (s.fld F.shDpcfg_MAXRATE h) x.sinkRate
  let l := min (s.fld F.shDpcfg_LANES h) x.sinkLanes
  let t := s.updHead h fun x => { x with trainReq := false, auxAt := s.tb.toNat }
  match (trainOrder r l).find? fun c => s.dpFits h c.1 c.2 && bit good (c.1 + 4 * c.2) with
  | some c => ((t.setFld F.shDpstat_RATE h 0 c.1).setFld F.shDpstat_LANES h 0 c.2).setFld F.shDpstat_TRAINED h 0 1
  | none => (t.setFld F.shDpstat_TRAINED h 0 0).headStat F.shDpstat_LT_FAIL h

/-- The sink's capabilities noted. -/
def Chip.setSink (s : Chip) (h rate lanes : Nat) (psr : Bool) : Chip :=
  s.updHead h fun x => { x with sinkRate := rate, sinkLanes := lanes, sinkPsr := psr }

/-- A rising HPD: the sink is present, and the link is trained where AUTO_LT is 1 (R187). -/
def Chip.hpdPlug (s : Chip) (h rate lanes good : Nat) (psr : Bool) : Chip :=
  let t := (s.setSink h rate lanes psr).setFld F.shDpstat_HPD h 0 1
  if s.on F.shDpcfg_AUTO_LT h then t.train h good else t

/-- HPD low for more than 2 ms (R188). -/
def Chip.hpdUnplug (s : Chip) (h : Nat) : Chip :=
  ((s.setFld F.shDpstat_TRAINED h 0 0).setFld F.shDpstat_HPD h 0 0).headStat F.shDpstat_HPD_CHG h

/-- An HPD low pulse of 0.25 to 2 ms (R188). -/
def Chip.hpdIrq (s : Chip) (h : Nat) (failed : Bool) (good : Nat) : Chip :=
  let t := s.headStat F.shDpstat_HPD_IRQ h
  if failed then
    let t := (t.headStat F.shDpstat_LINK_LOSS h).setFld F.shDpstat_TRAINED h 0 0
    if s.on F.shDpcfg_AUTO_LT h then t.train h good else t
  else t

/-- A write to SHn_AUXCTRL starts a transaction, or is discarded while one runs (R189). -/
def Chip.writeAuxctrl (s : Chip) (h v : Nat) : Chip :=
  if s.on F.shAuxstat_BUSY h then s.headStat F.shStat_CFG_REJ h
  else
    let cmd := bits v 31 28
    let t := if F.shAuxctrl_CMD.resv.any (fun r => decide (r.1 ≤ cmd ∧ cmd ≤ r.2)) then s
      else s.setFld F.shAuxctrl_CMD h 0 cmd
    let t := (t.setFld F.shAuxctrl_ADDR h 0 (bits v 27 8)).setFld F.shAuxctrl_LENM1 h 0 (v % 16)
    (t.setFld F.shAuxstat_BUSY h 0 1).updHead h fun x => { x with auxTries := 0, auxAt := s.tb.toNat }

/-- Bytes returned put into AUXDATA0 to AUXDATA3, least significant first (R189). -/
def Chip.putAux (s : Chip) (h k : Nat) : List Byte → Chip
  | [] => s
  | b :: bs =>
    let w := BitVec.ofNat 32 (s.fld F.shAuxdata_DATA h (k / 4))
    let sh := 8 * (k % 4)
    let w' := (w &&& ~~~(0xFF#32 <<< sh)) ||| (BitVec.zeroExtend 32 b <<< sh)
    Chip.putAux (s.setFld F.shAuxdata_DATA h (k / 4) w'.toNat) h (k + 1) bs

/-- Whether a software transaction runs on the AUX channel: one waits while hardware training has it (R189). -/
def Chip.auxRuns (s : Chip) (h : Nat) : Bool := s.on F.shAuxstat_BUSY h && !(s.head h).trainReq

/-- An AUX reply, of as many bytes as were asked for, ends the transaction, or is a DEFER that is tried again up to 7 times
(R189). -/
def Chip.auxReply (s : Chip) (h : Nat) (r : AuxReply) : Chip :=
  if s.auxRuns h then
    match r with
    | .ack data =>
      let d := data.take (s.fld F.shAuxctrl_LENM1 h + 1)
      let t := (s.putAux h 0 d).setFld F.shAuxstat_COUNT h 0 d.length
      (t.setFld F.shAuxstat_DONE h 0 1).setFld F.shAuxstat_BUSY h 0 0
    | .nack => (s.setFld F.shAuxstat_NACK h 0 1).setFld F.shAuxstat_BUSY h 0 0
    | .defer =>
      if (s.head h).auxTries < 7 then s.updHead h fun x => { x with auxTries := x.auxTries + 1, auxAt := s.tb.toNat }
      else (s.setFld F.shAuxstat_DEFER h 0 1).setFld F.shAuxstat_BUSY h 0 0
  else s

/-- 400 µs without a reply (R189). -/
def Chip.auxTimeout (s : Chip) (h : Nat) : Chip :=
  if s.auxRuns h && decide (400000 ≤ sub64 s.tb.toNat (s.head h).auxAt) then
    (s.setFld F.shAuxstat_TIMEOUT h 0 1).setFld F.shAuxstat_BUSY h 0 0
  else s

/-- Self-refresh asked for: taken at the next latch instant, or refused (R192). -/
def Chip.psrEnter (s : Chip) (h : Nat) : Chip :=
  if s.fld F.shOut_OUTSEL h == 1 && s.on F.shDpcfg_PSR_EN h && (s.head h).sinkPsr then
    if s.on F.shStat_RUNNING h then s.updHead h fun x => { x with psrArm := true } else s
  else s.headStat F.shDpstat_PSR_ERR h

/-- A head in self-refresh restarted as R170 does (R193). -/
def Chip.psrExit (s : Chip) (h : Nat) : Chip :=
  if s.on F.shDpstat_PSR_ACT h then s.armStart h true else s

/-- A write to SHn_DPCMD: TRAIN asks for training, which the TRAIN command carries out with the sink's answers. -/
def Chip.writeDpcmd (s : Chip) (h v : Nat) : Chip :=
  let t := if bit v 0 then s.updHead h fun x => { x with trainReq := true } else s
  let t := if bit v 1 then t.psrEnter h else t
  if bit v 2 then t.psrExit h else t

/-! ### Beam events (R176, R179) -/

/-- VBLANK of a running head, in the tick in which line VA starts. -/
def Chip.vblank (s : Chip) (h : Nat) : Chip := if s.lineStart h (s.fld F.shVtime_VA h) then s.beamEvent h 2 else s

/-- FRAME_DONE, in the tick in which pixel (HA - 1, VA - 1) has passed the scan tap. -/
def Chip.frameDone (s : Chip) (h : Nat) : Chip :=
  if s.inTick h (s.beam16 h (s.fld F.shHtime_HA h) (s.fld F.shVtime_VA h - 1)) then s.beamEvent h 3 else s

/-- LMATCHk, in the tick in which its dot of its line begins (R179): a dot beyond the end of a shortened latch line has none. -/
def Chip.lmatch (s : Chip) (h k : Nat) : Chip :=
  let x := s.fld F.shLmatch_DOT h k
  let y := s.fld F.shLmatch_LINE h k
  let t := s.beam16 h x y
  if s.on F.shLmatch_EN h k && decide (y < s.fld F.shVtime_VT h ∧ x < s.fld F.shHtime_HT h) && s.inTick h t
      && decide (y ≠ s.fld F.shVtime_VT h - 1 ∨ t < s.top16 h)
  then s.beamEvent h (4 + k) else s

/-! ### Stamps and beam positions (R198, R199) -/

/-- A read of SHn_FSTAMP_LO gives the present stamp and latches the other two parts (R198). -/
def Chip.readFstamp (s : Chip) (h : Nat) : Nat × Chip :=
  let t16 := match (s.head h).cur with | some x => x.time | none => 0
  (t16 / 65536 % 2 ^ 32,
   (s.setFld F.shFstampHi_T h 0 (t16 / 65536 / 2 ^ 32)).setFld F.shFstampFr_FR h 0 (t16 % 65536))

/-- A beam position. -/
structure BeamPos where
  x : Nat
  y : Nat
  frame : Nat
  blank : Bool
deriving DecidableEq, Repr, Inhabited

/-- The position reached d (1/65,536 tk) after a stamp (R199). -/
def Chip.posAfter (s : Chip) (h : Nat) (st : Stamp) (d : Nat) : BeamPos :=
  let dot := max 1 (s.dot24 h)
  let line := max 1 (s.fld F.shHtime_HT h * dot)
  let y := min (d * 256 / line) (s.fld F.shVtime_VT h - 1)
  let x := (d * 256 - y * line) / dot
  ⟨x, y, st.frame, decide (s.fld F.shHtime_HA h ≤ x ∨ s.fld F.shVtime_VA h ≤ y)⟩

/-- The beam position of instant t (in ticks counted so far) on head h; none where t is earlier than both kept stamps (R199). -/
def Chip.beamAt (s : Chip) (h t : Nat) : Option BeamPos :=
  let x := s.head h
  match [x.cur, x.prev].findSome? fun o => o.bind fun st => if st.time ≤ t * 65536 then some st else none with
  | some st => some (s.posAfter h st (t * 65536 - st.time))
  | none => none

/-- The dot and line now passing the scan tap (SHn_BEAM, R198): the pad position of the present instant put back by the
output delay; 0 while the head is stopped. -/
def Chip.beamNow (s : Chip) (h : Nat) : Nat × Nat :=
  if s.on F.shStat_RUNNING h then
    let x := s.head h
    let t16 := s.now16 + s.padDelay16 h
    match [x.cur, x.prev].findSome? fun o => o.bind fun st => if st.time ≤ t16 then some st else none with
    | some st => let p := s.posAfter h st (t16 - st.time); (p.x, p.y)
    | none => ((s.now16 - x.latchAt) / max 1 (s.dot16 h), s.fld F.shVtime_VT h - 1)
  else (0, 0)

end Sys2Proof.Machine
end

