-- ==== Sys2Proof/Machine/Pixels.lean ====
section
/-! DEFINITION. Pixels: formats, tiles, affine tiles, bitmaps, sprites, windows, blending, LUT and dither
(spec/02_layer_stack.md, R120 to R123 of spec/04_chasing.md, R180 to R182 of spec/06_scan_heads.md). These are pure
functions of the stores; what a fetch meets on its way (an address outside the pattern store, poison, a correctable
error) comes back as notes. -/

namespace Sys2Proof.Machine

/-- What a fetch met. -/
inductive Note where
  /-- layer k computed a fetch address outside the pattern store (R57) -/
  | addrErr (k : Nat)
  /-- layer k fetched from a poisoned code unit (R76) -/
  | poison (k u : Nat)
  /-- a code unit with a correctable error was read (R359) -/
  | fix (u : Nat)
  /-- an ingot beat carried poison (R126) -/
  | ingot (u : Nat)
  /-- layer k fetched from the pattern store while its domain is off (R13, R356) -/
  | off (k a : Nat)
  /-- a fetch met a bank that is being drained, and waits (R367) -/
  | held
deriving DecidableEq, Repr, Inhabited

/-- A colour of 12 bits per component, with alpha. -/
structure Tex where
  a : Nat
  r : Nat
  g : Nat
  b : Nat
deriving DecidableEq, Repr, Inhabited

/-- An n-bit component widened to w bits by bit replication (R51). -/
def widenTo (w n v : Nat) : Nat :=
  let m := (w + n - 1) / n
  (List.range m).foldl (fun acc _ => acc * 2 ^ n + v) 0 / 2 ^ (m * n - w)

/-- An n-bit component widened to 12 bits (R51). -/
def widen (n v : Nat) : Nat := widenTo 12 n v

/-- Bits per pixel of a format code (Table 2.8). -/
def fmtBpp (f : Nat) : Nat :=
  if f = 0 then 2 else if f = 1 then 4 else if f = 2 then 8 else if f = 3 ∨ f = 4 then 16 else 32

/-- Whether a format code is an indexed one. -/
def fmtIndexed (f : Nat) : Bool := decide (f ≤ 2)

/-- An ARGB8888 word widened. -/
def texArgb (v : Nat) : Tex :=
  ⟨widen 8 (bits v 31 24), widen 8 (bits v 23 16), widen 8 (bits v 15 8), widen 8 (bits v 7 0)⟩

/-- A direct pixel widened (Table 2.9, R51). -/
def texDirect (f v : Nat) : Tex :=
  if f = 3 then ⟨4095, widen 5 (bits v 15 11), widen 6 (bits v 10 5), widen 5 (bits v 4 0)⟩
  else if f = 4 then ⟨widen 1 (bits v 15 15), widen 5 (bits v 14 10), widen 5 (bits v 9 5), widen 5 (bits v 4 0)⟩
  else if f = 5 then texArgb v
  else ⟨4095, widen 10 (bits v 29 20), widen 10 (bits v 19 10), widen 10 (bits v 9 0)⟩

/-- The code units of n bytes from a that carry a mark. -/
def marked (marks : NStore Mark) (a n : Nat) : List (Nat × Mark) :=
  if marks.isEmpty then [] else (unitsOf a n).filterMap fun u => (Store.get? u marks).map fun m => (u, m)

/-- A fetch judged by the marks it meets: poison (or an uncorrectable error) gives nothing. -/
def judge (k : Nat) (ms : List (Nat × Mark)) (v : Nat) : Option Nat × List Note :=
  if ms.any fun m => m.2 != .correctable then
    (none, ms.map fun m => if m.2 = .correctable then .fix m.1 else .poison k m.1)
  else (some v, ms.map fun m => .fix m.1)

/-- A fetch of n bytes from the pattern store for layer k (R57, R76, R356, R367). -/
def Chip.fetchPat (s : Chip) (k : Nat) (a : Int) (n : Nat) : Option Nat × List Note :=
  if 0x08000000 ≤ a ∧ a + n ≤ 0x16000000 then
    if !s.domOn 38 then (none, [.off k (a.toNat / 16 * 16)])
    else if s.heldByRepair a.toNat n then (none, [.held])
    else judge k (marked s.marks a.toNat n) (Memory.read s.mem a.toNat n)
  else (none, [.addrErr k])

/-- The on-die stores as a course sees them. -/
structure Snap where
  mem : List Host.Cell
  marks : NStore Mark
deriving DecidableEq, Repr, Inhabited

/-- A read of an on-die store for layer k. -/
def Snap.fetch (q : Snap) (k a n : Nat) : Option Nat × List Note :=
  judge k (marked q.marks a n) (Memory.read q.mem a n)

/-- One layer as a line of a course composes it: its sources, its CTRL word, its line copies by offset, and for a sprite
plane the spans it draws on the line, front first. -/
structure LayCtx where
  src : LaySrc
  ctrl : Nat
  copy : NStore Nat
  spans : List (Nat × Nat)
deriving DecidableEq, Repr, Inhabited

/-- The line copy at an offset. -/
def LayCtx.at_ (c : LayCtx) (o : Nat) : Nat := NStore.get 0 c.copy o

/-- A source coordinate wrapped, or none outside the source (R54). -/
def wrapCoord (wrap : Bool) (x : Int) (m : Nat) : Option Nat :=
  if wrap then some (x % (m : Int)).toNat else if 0 ≤ x ∧ x < (m : Int) then some x.toNat else none

/-- The colour of an indexed pixel: its palette entry, or none where index 0 is transparent (R52). -/
def palTex (q : Snap) (k ctrl bank ix : Nat) : Option Tex × List Note :=
  if ix = 0 ∧ bit ctrl 2 = false then (none, [])
  else
    let r := q.fetch k (0x17000000 + bank % 1024 * 0x400 + ix * 4) 4
    (r.1.map texArgb, r.2)

/-- The pixel at column x of the row at a byte address, in a format (R50, R52). -/
def Chip.rowTex (s : Chip) (q : Snap) (k ctrl fmt bank : Nat) (row : Int) (x : Nat) : Option Tex × List Note :=
  let bpp := fmtBpp fmt
  let n := max 1 (bpp / 8)
  let r := s.fetchPat k (row + (x * bpp / 8 : Nat)) n
  match r.1 with
  | none => (none, r.2)
  | some v =>
    let px := v / 2 ^ (x * bpp % 8) % 2 ^ bpp
    if fmtIndexed fmt then
      let p := palTex q k ctrl bank px
      (p.1, r.2 ++ p.2)
    else (some (texDirect fmt px), r.2)

/-- The pixel of a tile map at source position (u, v) (R54 to R57). -/
def Chip.tileTex (s : Chip) (q : Snap) (c : LayCtx) (u v : Int) : Option Tex × List Note :=
  let k := c.src.k
  let t := 8 * 2 ^ bits c.src.fmt 9 8
  let fmt := bits c.src.fmt 7 4
  let mw := 2 ^ bits c.src.fmt 15 12
  let mh := 2 ^ bits c.src.fmt 19 16
  match wrapCoord (bit c.ctrl 3) u (mw * t), wrapCoord (bit c.ctrl 4) v (mh * t) with
  | some u, some v =>
    let e := s.fetchPat k (c.at_ 0x00C + (v / t * mw + u / t) * 4 : Nat) 4
    match e.1 with
    | none => (none, e.2)
    | some w =>
      if bit w 22 then (none, e.2)
      else
        let ix := if bit w 20 then t - 1 - u % t else u % t
        let iy := if bit w 21 then t - 1 - v % t else v % t
        let bytes := t * t * fmtBpp fmt / 8
        let base := c.at_ 0x010 + w % 2 ^ 20 * bytes
        if 0x08000000 ≤ base ∧ base + bytes ≤ 0x16000000 then
          let bank := if fmtIndexed fmt then c.at_ 0x034 + bits w 31 24 else 0
          let r := s.rowTex q k c.ctrl fmt bank (base + iy * t * fmtBpp fmt / 8 : Nat) ix
          (r.1, e.2 ++ r.2)
        else (none, e.2 ++ [.addrErr k])
  | _, _ => (none, [])

/-- The four components of matrix m as a course sees it (R59). -/
def matrixOf (q : Snap) (k m : Nat) : Option (Int × Int × Int × Int) × List Note :=
  let r := q.fetch k (0x17200000 + m * 16) 16
  (r.1.map fun v => (sx 32 v, sx 32 (v / 2 ^ 32), sx 32 (v / 2 ^ 64), sx 32 (v / 2 ^ 96)), r.2)

/-- The pixel of an affine tile layer (R58). -/
def Chip.affineTex (s : Chip) (q : Snap) (c : LayCtx) (x y : Int) : Option Tex × List Note :=
  let m := matrixOf q c.src.k (c.at_ 0x038)
  match m.1 with
  | none => (none, m.2)
  | some (a, b, cc, d) =>
    let dx := x - sx 16 (c.at_ 0x03C)
    let dy := y - sx 16 (c.at_ 0x03C / 65536)
    let u := (a * dx + b * dy + sx 32 (c.at_ 0x040) * 16) / 65536
    let v := (cc * dx + d * dy + sx 32 (c.at_ 0x044) * 16) / 65536
    let r := s.tileTex q c u v
    (r.1, m.2 ++ r.2)

/-- The pixel of a bitmap layer (R60, R61). -/
def Chip.bitmapTex (s : Chip) (q : Snap) (c : LayCtx) (x y : Int) : Option Tex × List Note :=
  let fmt := bits c.src.fmt 7 4
  match wrapCoord (bit c.ctrl 3) (x + sx 32 (c.at_ 0x020)) (bits c.src.bsz 13 0 + 1),
        wrapCoord (bit c.ctrl 4) (y + sx 32 (c.at_ 0x024)) (bits c.src.bsz 29 16 + 1) with
  | some u, some v =>
    s.rowTex q c.src.k c.ctrl fmt (c.at_ 0x034) (c.at_ 0x010 + v * c.src.bst : Nat) u
  | _, _ => (none, [])

/-! ### Sprites (R62 to R69). A descriptor is its 128-bit value. -/

def sprX (d : Nat) : Int := sx 16 d
def sprY (d : Nat) : Int := sx 16 (d / 2 ^ 16)
def sprW (d : Nat) : Nat := (bits d 38 32 + 1) * 8
def sprH (d : Nat) : Nat := (bits d 45 39 + 1) * 8
def sprAffine (d : Nat) : Bool := bit d 48
def sprScale (d : Nat) : Nat := if bit d 48 && bit d 49 then 2 else 1
def sprFmt (d : Nat) : Nat := bits d 54 52
def sprPat (d : Nat) : Nat := bits d 87 64
def sprAlpha (d : Nat) : Nat := bits d 95 88
def sprMatrix (d : Nat) : Nat := bits d 107 96
def sprBank (d : Nat) : Nat := bits d 117 108
def sprShow (d : Nat) : Bool := bit d 127

/-- The box of a sprite on a plane: left, top, width, height (R65). -/
def LayCtx.box (c : LayCtx) (d : Nat) : Int × Int × Nat × Nat :=
  (sprX d - sx 32 (c.at_ 0x020), sprY d - sx 32 (c.at_ 0x024), sprW d * sprScale d, sprH d * sprScale d)

/-- Whether a shown sprite forms a span on line y of a head ha dots wide (R68). -/
def LayCtx.spanOn (c : LayCtx) (ha y : Nat) (d : Nat) : Bool :=
  let b := c.box d
  sprShow d && sprFmt d != 7 && decide (b.2.1 ≤ (y : Int) ∧ (y : Int) < b.2.1 + b.2.2.2 ∧ b.1 < (ha : Int) ∧ 0 < b.1 + b.2.2.1)

/-- The numbers of a plane's descriptors (R62). -/
def LaySrc.sprites (l : LaySrc) : List Nat :=
  let first := bits l.spr 15 0
  (List.range (min (bits l.spr 31 16 + 1) (65536 - first))).map fun i => first + i

/-- The spans of a plane on line y: descriptor number and value; a poisoned descriptor forms none (R68). -/
def spansOf (q : Snap) (c : LayCtx) (ha y : Nat) : List (Nat × Nat) :=
  c.src.sprites.filterMap fun n =>
    match (q.fetch c.src.k (0x17100000 + n * 16) 16).1 with
    | some d => if c.spanOn ha y d then some (n, d) else none
    | none => none

/-- The colour of a sprite at a screen pixel, before sprite and layer alpha; none where it draws nothing (R65, R66). -/
def Chip.spriteTex (s : Chip) (q : Snap) (c : LayCtx) (d : Nat) (x y : Int) : Option Tex × List Note :=
  let k := c.src.k
  let b := c.box d
  if b.1 ≤ x ∧ x < b.1 + b.2.2.1 ∧ b.2.1 ≤ y ∧ y < b.2.1 + b.2.2.2 then
    let w := sprW d
    let h := sprH d
    let fmt := sprFmt d
    let pitch := (w * fmtBpp fmt + 127) / 128 * 16
    let base := c.at_ 0x010 + sprPat d * 16
    let pix (px py : Nat) (ns : List Note) :=
      let r := s.rowTex q k c.ctrl fmt (sprBank d) (base + py * pitch : Nat) px
      (r.1, ns ++ r.2)
    if sprAffine d then
      let m := matrixOf q k (sprMatrix d)
      match m.1 with
      | none => (none, m.2)
      | some (ma, mb, mc, md) =>
        let dx := x - (b.1 + (b.2.2.1 / 2 : Nat))
        let dy := y - (b.2.1 + (b.2.2.2 / 2 : Nat))
        let px := (ma * dx + mb * dy) / 65536 + (w / 2 : Nat)
        let py := (mc * dx + md * dy) / 65536 + (h / 2 : Nat)
        if 0 ≤ px ∧ px < (w : Int) ∧ 0 ≤ py ∧ py < (h : Int) then pix px.toNat py.toNat m.2 else (none, m.2)
    else
      let px := (x - b.1).toNat
      let py := (y - b.2.1).toNat
      pix (if bit d 46 then w - 1 - px else px) (if bit d 47 then h - 1 - py else py) []
  else (none, [])

/-- The sprite's alpha applied (R67). -/
def spriteAlpha (ctrl d : Nat) (t : Tex) : Tex :=
  let al := widen 8 (sprAlpha d)
  let f (v : Nat) : Nat := (rnd (v * al : Nat) 4095).toNat
  if bit ctrl 1 then ⟨f t.a, f t.r, f t.g, f t.b⟩ else { t with a := f t.a }

/-! ### Blending (R120 to R123) -/

/-- A premultiplied layer pixel: colour and alpha. -/
structure Lp where
  r : Nat
  g : Nat
  b : Nat
  e : Nat
deriving DecidableEq, Repr, Inhabited

/-- A product of two 12-bit values as a 12-bit fraction, rounded (R120). -/
def mul12 (x y : Nat) : Nat := (rnd (x * y : Nat) 4095).toNat

/-- The layer pixel of Table 4.6. -/
def layerPixel (ctrl g : Nat) (t : Tex) : Lp :=
  let e := mul12 t.a g
  let k := if bit ctrl 1 then g else e
  ⟨mul12 t.r k, mul12 t.g k, mul12 t.b k, e⟩

/-- Whether the window lets pixel (x, y) be drawn (R75). -/
def LayCtx.inWindow (c : LayCtx) (x y : Nat) : Bool :=
  if bit c.ctrl 5 then
    let h := c.at_ 0x028
    let v := c.at_ 0x02C
    let inside := decide (h % 65536 ≤ x ∧ x ≤ h / 65536 ∧ v % 65536 ≤ y ∧ y ≤ v / 65536)
    inside != bit c.ctrl 6
  else true

/-- The accumulators of R120. -/
structure Acc4 where
  r : Nat := 0
  g : Nat := 0
  b : Nat := 0
  a : Nat := 0
deriving DecidableEq, Repr, Inhabited

/-- One stage of R120. -/
def Acc4.blend (s : Acc4) (p : Lp) : Acc4 :=
  let t := 4095 - s.a
  ⟨min 16383 (s.r + mul12 p.r t), min 16383 (s.g + mul12 p.g t), min 16383 (s.b + mul12 p.b t), s.a + mul12 p.e t⟩

/-- A pixel of one layer blended behind what is accumulated; a sprite plane's spans are successive stages, front first
(DEDUCED, notes/assumptions/7.md). Nothing covered is fetched while occlusion skip applies (R122). -/
def Chip.blendLayer (s : Chip) (q : Snap) (occ : Bool) (c : LayCtx) (x y : Nat) (st : Acc4 × List Note) : Acc4 × List Note :=
  if occ && decide (st.1.a = 4095) then st
  else if bit c.ctrl 0 && c.inWindow x y then
    let g := c.at_ 0x030
    let put (st : Acc4 × List Note) (r : Option Tex × List Note) : Acc4 × List Note :=
      match r.1 with
      | some t => (st.1.blend (layerPixel c.ctrl g t), st.2 ++ r.2)
      | none => (st.1, st.2 ++ r.2)
    let kind := bits c.src.fmt 1 0
    if kind = 0 then put st (s.tileTex q c (x + sx 32 (c.at_ 0x020)) (y + sx 32 (c.at_ 0x024)))
    else if kind = 1 then put st (s.affineTex q c x y)
    else if kind = 3 then put st (s.bitmapTex q c x y)
    else c.spans.foldl (fun st sp =>
        if occ && decide (st.1.a = 4095) then st
        else
          let r := s.spriteTex q c sp.2 x y
          put st (r.1.map (spriteAlpha c.ctrl sp.2), r.2)) st
  else st

/-- A run's accumulated component as the ingot holds it (R123 step 2). -/
def run8 (v : Nat) : Nat := (rnd (min v 4095 * 255 : Nat) 4095).toNat

/-- The run result as an ARGB8888 word (R123, R124). -/
def runWord (a : Acc4) : Nat := run8 a.a * 2 ^ 24 + run8 a.r * 2 ^ 16 + run8 a.g * 2 ^ 8 + run8 a.b

/-- The run result widened again (R123 step 3). -/
def runPixel (w : Nat) : Lp := let t := texArgb w; ⟨t.r, t.g, t.b, t.a⟩

/-- The address of byte o of an ingot whose allocation begins with block `base`: one that passes block 255 goes on with block
0 of the cache (R124; DESIGN CHOICE, notes/assumptions/65.md). -/
def ingotAddr (base o : Nat) : Nat := 0x16000000 + (base * 0x10000 + o) % 0x1000000

/-- What a line's stack holds at one slot: a layer, a static run blended from its sources, or a run read from the ingot
whose allocation begins with a block, the line's first pixel at an offset in it. -/
inductive Stage where
  | lay (c : LayCtx)
  | run (cs : List LayCtx)
  | ingot (base off : Nat)
deriving DecidableEq, Repr, Inhabited

/-- The run result of a static run at a pixel, as its ARGB8888 word (R123). -/
def Chip.runAt (s : Chip) (q : Snap) (occ : Bool) (cs : List LayCtx) (x y : Nat) : Nat × List Note :=
  let r := cs.foldl (fun st c => s.blendLayer q occ c x y st) ({}, [])
  (runWord r.1, r.2)

/-- One stage of a pixel. -/
def Chip.blendStage (s : Chip) (q : Snap) (occ : Bool) (x y : Nat) (st : Acc4 × List Note) : Stage → Acc4 × List Note
  | .lay c => s.blendLayer q occ c x y st
  | .run cs =>
    if occ && decide (st.1.a = 4095) then st
    else
      let r := s.runAt q occ cs x y
      (st.1.blend (runPixel r.1), st.2 ++ r.2)
  | .ingot base off =>
    if occ && decide (st.1.a = 4095) then st
    else
      let a := ingotAddr base (off + 4 * x)
      let ms := marked s.marks a 4
      if ms.any fun m => m.2 != .correctable then (st.1, st.2 ++ ms.map fun m => .ingot m.1)
      else (st.1.blend (runPixel (Memory.read s.mem a 4)), st.2 ++ ms.map fun m => .fix m.1)

/-- The blended 12-bit colour of a pixel over the backdrop (R120). -/
def Chip.blendPixel (s : Chip) (q : Snap) (occ : Bool) (stages : List Stage) (backdrop x y : Nat) :
    (Nat × Nat × Nat) × List Note :=
  let r := stages.foldl (fun st g => s.blendStage q occ x y st g) ({}, [])
  let t := 4095 - r.1.a
  let out (acc v : Nat) : Nat := min 4095 (acc + mul12 v t)
  ((out r.1.r (widen 10 (bits backdrop 29 20)), out r.1.g (widen 10 (bits backdrop 19 10)),
    out r.1.b (widen 10 (bits backdrop 9 0))), r.2)

/-! ### LUT and dither (R180, R182) -/

/-- The ordered dither matrix (Table 6.11). -/
def ditherM (x y : Nat) : Nat :=
  (([[0, 8, 2, 10], [12, 4, 14, 6], [3, 11, 1, 9], [15, 7, 13, 5]].getD (y % 4) []).getD (x % 4) 0)

/-- A 12-bit component cut by k bits (R182). -/
def ditherTo (mode k v x y : Nat) : Nat :=
  let m := 2 ^ (12 - k) - 1
  if mode = 1 then min m ((v + 2 ^ (k - 1)) / 2 ^ k)
  else if mode = 2 then min m ((v + ditherM x y * 2 ^ k / 16) / 2 ^ k)
  else v / 2 ^ k

/-- A LUT entry of a snapshot: component c, input i (Table 6.10). -/
def lutAt (h : Nat) (lut : List (FKey × Nat)) (c i : Nat) : Nat :=
  (Store.get? (F.shLut_VAL.key h (c * 4096 + i)) lut).getD i

/-- A blended colour in the frame-store format (R180). -/
def storePixel (h : Nat) (lutEn : Bool) (lut : List (FKey × Nat)) (dither : Nat) (wide : Bool) (p : Nat × Nat × Nat)
    (x y : Nat) : Nat :=
  let l (c v : Nat) : Nat := if lutEn then lutAt h lut c v else v
  let r := l 0 p.1
  let g := l 1 p.2.1
  let b := l 2 p.2.2
  if wide then
    ditherTo dither 2 r x y * 2 ^ 20 + ditherTo dither 2 g x y * 2 ^ 10 + ditherTo dither 2 b x y
  else ditherTo dither 7 r x y * 2 ^ 11 + ditherTo dither 6 g x y * 2 ^ 5 + ditherTo dither 7 b x y

end Sys2Proof.Machine
end

