-- ==== Sys2Proof/Machine/Lpe.lean ====
section
/-! DEFINITION. The line program engines (spec/03_line_programs.md): the commands, waits, the write limit and the line
write queue. -/

namespace Sys2Proof.Machine

def Chip.lpe (s : Chip) (n : Nat) : Lpe := NStore.get {} s.lpes n
def Chip.updLpe (s : Chip) (n : Nat) (f : Lpe → Lpe) : Chip := { s with lpes := NStore.set s.lpes n (f (s.lpe n)) }
def Chip.comp (s : Chip) (h : Nat) : Comp := NStore.get {} s.comps h
def Chip.updComp (s : Chip) (h : Nat) (f : Comp → Comp) : Chip := { s with comps := NStore.set s.comps h (f (s.comp h)) }

/-- Composed frame f of head h. -/
def Chip.frm (s : Chip) (h f : Nat) : Frm := ((s.comp h).frms.find? fun x => x.frame == f).getD {}

/-- Composed frame f of head h changed. -/
def Chip.updFrm (s : Chip) (h f : Nat) (g : Frm → Frm) : Chip :=
  s.updComp h fun c => { c with frms := c.frms.map fun x => if x.frame == f then g x else x }

/-- The course height of composed frame f of head h. -/
def Chip.courseHeight (s : Chip) (h f : Nat) : Nat :=
  match (s.comp h).frms.find? fun x => x.frame == f with
  | some x => 2 ^ x.chLog2
  | none => 2 ^ s.fld F.cpsCtrlAct_CH_LOG2 h

/-- A bit of LPEn_STAT set; a change raises the line-program-status event (R84). -/
def Chip.lpeStat (s : Chip) (f : Fd) (n : Nat) : Chip := s.stick f n (13 * n + 9)

/-- The last active line of head n plus one. -/
def Chip.va (s : Chip) (n : Nat) : Nat := s.fld F.shVtime_VA n

/-- The last line of course c of height h, below va. -/
def courseEnd (va h c : Nat) : Nat := min ((c + 1) * h) va - 1

/-- The number of courses of a frame. -/
def courseCount (va h : Nat) : Nat := (va + h - 1) / h

/-- The allowed line of head n: the composed frame and the line (R97). -/
def Chip.allowed (s : Chip) (n : Nat) : Nat × Nat :=
  let c := s.comp n
  let h := s.courseHeight n c.frame
  let next := (c.frame + 1) % 2 ^ 32
  if !c.composing then (c.frame, courseEnd (s.va n) h c.course)
  else if courseCount (s.va n) h ≤ c.course + 1 then (next, courseEnd (s.va n) (s.courseHeight n next) 0)
  else (c.frame, courseEnd (s.va n) h (c.course + 1))

/-- The last line of the engine's own frame that it may release: every line of a frame before that of the allowed line, none
of a later one (R97). -/
def Chip.allowedLine (s : Chip) (n : Nat) : Option Nat :=
  let a := s.allowed n
  let e := s.lpe n
  if e.frame = a.1 then some a.2 else if frameLe e.frame a.1 then some (s.va n - 1) else none

/-- The engine put at the start of composed frame f (R81), or, with EN = 0, all lines of it released (R78). -/
def Chip.lpeStart (s : Chip) (n f : Nat) : Chip :=
  let base := s.fld F.lpeBaseAct_ADDR n
  if s.on F.lpeCtrl_EN n then
    s.updLpe n fun e => { e with running := true, begun := true, frame := f, pc := base, line := 0, counters := [0, 0, 0, 0], tp := base,
                                 stack := [], wcount := 0, overRun := false, steps := 0, released := 0, hold := none,
                                 nextFrame := none }
  else s.updLpe n fun e => { e with running := false, begun := true, frame := f, released := s.va n, hold := none, nextFrame := none }

/-- The engine of a head whose composed frames end without the next: at rest until a composed frame begins (R172, R105). -/
def Chip.lpeRest (s : Chip) (n : Nat) : Chip :=
  s.updLpe n fun e => { e with running := false, begun := false, hold := none, nextFrame := none }

/-- Composed frame f begins: the engine has begun it, or will when it ends the frame it still runs (R97, R115), or begins it
now (R81). -/
def Chip.lpeFrame (s : Chip) (n f : Nat) : Chip :=
  let e := s.lpe n
  if e.begun && (e.frame == f || e.running && e.nextFrame == some f) then s else s.lpeStart n f

/-- Whether the engine has released line y of composed frame f to the lanes (R92): a frame before the one it runs is released
whole. -/
def Chip.lineOut (s : Chip) (n f y : Nat) : Bool :=
  let e := s.lpe n
  if e.frame = f then decide (y < e.released) else frameLe f e.frame

/-- The engine is to begin composed frame f: at once, or when it ends the frame it runs (R97). -/
def Chip.lpeBegin (s : Chip) (n f : Nat) : Chip :=
  if (s.lpe n).running then s.updLpe n fun e => { e with nextFrame := some f } else s.lpeStart n f

/-- The engine ends its composed frame: every line not yet released is released (R87 END, R89, R91). -/
def Chip.lpeEnd (s : Chip) (n : Nat) : Chip :=
  let t := s.updLpe n fun e => { e with running := false, released := s.va n, hold := none }
  match (s.lpe n).nextFrame with
  | some f => t.lpeStart n f
  | none => t

/-- The engine stopped by a fault. -/
def Chip.lpeStop (s : Chip) (n : Nat) (f : Fd) : Chip := (s.lpeStat f n).lpeEnd n

/-- What a fetch of a program or table word gives. -/
inductive Fetched where
  | word (v : Nat)
  | paddr
  | poison (u : Nat)
  | off (a : Nat)
  | held
deriving DecidableEq, Repr, Inhabited

/-- A program or table word of the pattern store at an address, and the state after any correction (R82, R86, R101); one from
a store that is off is an error response (R13, R356), and one from a bank that is being drained waits (R367). -/
def Chip.lpeFetch (s : Chip) (a : Nat) : Fetched × Chip :=
  if a % 4 = 0 ∧ 0x08000000 ≤ a ∧ a + 4 ≤ 0x16000000 then
    let r := s.memRead a 4
    if !s.storeUp a then (.off a, s)
    else if s.heldByRepair a 4 then (.held, s)
    else if r.2.1 then (.poison (a / 16 * 16), r.2.2) else (.word r.1, r.2.2)
  else (.paddr, s)

/-- The engine stopped by a fetch that gave no word (R86, R101, R357). -/
def Chip.lpeFetchFault (s : Chip) (n : Nat) : Fetched → Chip
  | .word _ => s
  | .held => { s with waits := true }
  | .paddr => s.lpeStop n F.lpeStat_PADDR
  | .off a => (s.logOff (.own (0x30 + n)) a).lpeStop n F.lpeStat_PADDR
  | .poison u =>
    let m := Master.own (0x30 + n)
    (((s.logErr 1 m (s.storeOf u) (s.localAddr u)).logErr 2 m (s.storeOf u) (s.localAddr u))).lpeStop n F.lpeStat_POISON

/-- k steps spent (R96, R99). -/
def Chip.lpeSpend (s : Chip) (n k : Nat) : Chip := s.updLpe n fun e => { e with steps := e.steps + k }

/-- Whether the engine has spent all its steps, so that only RUNAWAY is left (R99). -/
def Chip.lpeExhausted (s : Chip) (n : Nat) : Bool := decide (s.fld F.lpeStepmax_STEPS n ≤ (s.lpe n).steps)

/-- Whether the head is frozen by a hallmark: the engine performs nothing (R155). -/
def Chip.frozen (s : Chip) (h : Nat) : Bool := s.on F.hmkHstat_FROZEN h

/-- Whether the engine may execute a command: it runs a composed frame, holds at no WAIT, has steps left. -/
def Chip.lpeReady (s : Chip) (n : Nat) : Bool :=
  (s.lpe n).running && (s.lpe n).hold.isNone && !s.lpeExhausted n && !s.frozen n && !(s.comp n).frozenHold

/-- The engine executes the command at its program address where its code is op; the first word is given to the meaning
with the step it costs already spent and the address of the following word in place (R85). -/
def Chip.lpeOn (s : Chip) (n : Nat) (ops : List Nat) (k : Nat → Chip → Chip) : Chip :=
  if s.lpeReady n then
    match s.lpeFetch (s.lpe n).pc with
    | (.word w, t) =>
      if ops.contains (bits w 31 28) then
        k w ((t.updLpe n fun e => { e with pc := e.pc + 4 }).lpeSpend n 1)
      else s
    | (f, t) => t.lpeFetchFault n f
  else s

/-- The word after the command's first: the address word of a branch or of SETP (R86); its step is spent. -/
def Chip.lpeAddrWord (s : Chip) (n : Nat) (k : Nat → Chip → Chip) : Chip :=
  if s.lpeExhausted n then s
  else match s.lpeFetch (s.lpe n).pc with
    | (.word w, t) =>
      if w % 4 = 0 ∧ 0x08000000 ≤ w ∧ w < 0x16000000 then
        k w ((t.updLpe n fun e => { e with pc := e.pc + 4 }).lpeSpend n 1)
      else t.lpeStop n F.lpeStat_PADDR
    | (f, t) => t.lpeFetchFault n f

/-- A branch taken: 8 further steps (R96). -/
def Chip.lpeBranch (s : Chip) (n target : Nat) : Chip := (s.updLpe n fun e => { e with pc := target }).lpeSpend n 8

/-! ### Writes (R45, R88, R93) -/

/-- The offsets that Table 2.1 marks line-writable. -/
def lineWritable (o : Nat) : Bool :=
  o % 4 == 0 && (o == 0x00C || o == 0x010 || decide (0x020 ≤ o ∧ o ≤ 0x044))

/-- The register family at a line-writable offset, as its line copy starts a frame (R44). -/
def lineReg (o : Nat) : RegId :=
  if o = 0x00C then .layMapBaseAct else if o = 0x010 then .layPatBaseAct else if o = 0x020 then .layScrollX
  else if o = 0x024 then .layScrollY else if o = 0x028 then .layWinH else if o = 0x02C then .layWinV
  else if o = 0x030 then .layAlpha else if o = 0x034 then .layPal else if o = 0x038 then .layAffMtx
  else if o = 0x03C then .layAffC else if o = 0x040 then .layAffU0 else .layAffV0

/-- One value counted against the line's limit, with its effect where the limit allows it; beyond it LINE_OVER is set and
the line is counted once (R93). -/
def Chip.lpeCounted (s : Chip) (n : Nat) (k : Chip → Chip) : Chip :=
  let e := s.lpe n
  if e.wcount < 256 then k (s.updLpe n fun e => { e with wcount := e.wcount + 1 })
  else
    let t := if e.overRun then s else s.bump F.lpeOvercnt_COUNT F.lpeOvercnt_SAT n
    (t.lpeStat F.lpeStat_LINE_OVER n).updLpe n fun e => { e with wcount := e.wcount + 1, overRun := true }

/-- One write of the engine: counted against the line's limit, and queued where the limit allows it (R93). -/
def Chip.lpeWrite (s : Chip) (n : Nat) (w : LWrite) : Chip :=
  s.lpeCounted n fun t => t.updLpe n fun e => { e with queue := e.queue ++ [⟨e.frame, e.line, w⟩] }

/-- A layer write: an offset that is not line-writable sets BAD_REG and still counts (R88, R93). Beyond the 256th write of a
line it sets LINE_OVER only (DEDUCED, notes/assumptions/88.md). -/
def Chip.lpeLayWrite (s : Chip) (n k o v : Nat) (add : Bool) : Chip :=
  if lineWritable o then s.lpeWrite n (if add then .add k o v else .set k o v)
  else s.lpeCounted n fun t => t.lpeStat F.lpeStat_BAD_REG n

/-- The values of a command: each word read at the program address, or at TP for a table, costs a step and is handed on;
a fault or the last allowed step ends the command, and the values already performed stand (R96, R99, R101). -/
def Chip.lpeValues (s : Chip) (n : Nat) (table : Bool) (put : Nat → Nat → Chip → Chip) (i : Nat) : Nat → Chip
  | 0 => s
  | m + 1 =>
    if s.lpeExhausted n || !(s.lpe n).running then s
    else match s.lpeFetch (if table then (s.lpe n).tp else (s.lpe n).pc) with
      | (.word w, t) =>
        let t := t.updLpe n fun e => if table then { e with tp := e.tp + 4 } else { e with pc := e.pc + 4 }
        (put i w (t.lpeSpend n 1)).lpeValues n table put (i + 1) m
      | (f, t) => t.lpeFetchFault n f

/-- WR and WRT (R87). -/
def Chip.lpeWr (s : Chip) (n : Nat) (table : Bool) (w : Nat) : Chip :=
  s.lpeValues n table (fun i v t => t.lpeLayWrite n (bits w 23 16) (bits w 11 0 + 4 * i) v false) 0 (bits w 27 24 + 1)

/-- ADD (R87). -/
def Chip.lpeAdd (s : Chip) (n w : Nat) : Chip :=
  s.lpeValues n false (fun _ v t => t.lpeLayWrite n (bits w 23 16) (bits w 11 0) v true) 0 1

/-- WRP: palette entries, the entry number wrapping within the bank (R87). -/
def Chip.lpeWrp (s : Chip) (n w : Nat) : Chip :=
  s.lpeValues n false (fun i v t =>
    t.lpeWrite n (.store (0x17000000 + bits w 23 14 * 0x400 + (bits w 13 6 + i) % 256 * 4) v)) 0 (bits w 27 24 + 1)

/-- WRM: matrix components; a value beyond matrix 4095 is discarded, and counts (R87, R93). -/
def Chip.lpeWrm (s : Chip) (n w : Nat) : Chip :=
  s.lpeValues n false (fun i v t =>
    let c := bits w 11 0 * 4 + bits w 15 14 + i
    if c < 16384 then t.lpeWrite n (.store (0x17200000 + c * 4) v)
    else t.lpeCounted n id) 0 (bits w 27 24 + 1)

/-! ### Waits (R90, R91, R97) -/

/-- Lines released up to the allowed line; where all lines below y are out, C becomes y, and the engine goes on, or ends
where y is VA or more (R90, R91, R97). -/
def Chip.lpeRelease (s : Chip) (n y : Nat) : Chip :=
  let va := s.va n
  let goal := min y va
  let can := match s.allowedLine n with | some a => min goal (a + 1) | none => 0
  let e := s.lpe n
  let upto := max e.released can
  let t := s.updLpe n fun e => { e with released := upto, steps := if e.released < upto then 0 else e.steps }
  if goal ≤ upto then
    if va ≤ y then t.lpeEnd n
    else t.updLpe n fun e => { e with line := y, wcount := if e.line = y then e.wcount else 0,
                                      overRun := if e.line = y then e.overRun else false, hold := none }
  else t.updLpe n fun e => { e with hold := some y }

/-- WAIT y (R90, R91). -/
def Chip.lpeWait (s : Chip) (n y : Nat) : Chip :=
  let c := (s.lpe n).line
  if y < c then (s.lpeStat F.lpeStat_WAIT_PAST n).lpeRelease n c else s.lpeRelease n y

/-- A held WAIT releases what the allowed line now allows (R97). -/
def Chip.lineRelease (s : Chip) (n : Nat) : Chip :=
  if (s.lpe n).running && !s.frozen n then
    match (s.lpe n).hold with
    | some y => s.lpeRelease n y
    | none => s
  else s

/-! ### Control flow (R86, R87) -/

def Chip.lpeSetc (s : Chip) (n w : Nat) : Chip :=
  s.updLpe n fun e => { e with counters := e.counters.set (bits w 25 24) (bits w 15 0) }

def Chip.lpeDjnz (s : Chip) (n w : Nat) : Chip :=
  s.lpeAddrWord n fun target t =>
    let j := bits w 25 24
    let c := (t.lpe n).counters.getD j 0
    if c = 0 then t
    else
      let t := t.updLpe n fun e => { e with counters := e.counters.set j (c - 1) }
      if c - 1 = 0 then t else t.lpeBranch n target

def Chip.lpeJump (s : Chip) (n : Nat) : Chip := s.lpeAddrWord n fun target t => t.lpeBranch n target

def Chip.lpeCall (s : Chip) (n : Nat) : Chip :=
  s.lpeAddrWord n fun target t =>
    if 4 ≤ (t.lpe n).stack.length then t.lpeStop n F.lpeStat_STACK
    else (t.updLpe n fun e => { e with stack := e.pc :: e.stack }).lpeBranch n target

def Chip.lpeRet (s : Chip) (n : Nat) : Chip :=
  match (s.lpe n).stack with
  | [] => s.lpeStop n F.lpeStat_STACK
  | a :: rest => (s.updLpe n fun e => { e with stack := rest }).lpeBranch n a

def Chip.lpeSetp (s : Chip) (n : Nat) : Chip :=
  s.lpeAddrWord n fun a t => t.updLpe n fun e => { e with tp := a }

/-- RUNAWAY: the steps are spent (R99). -/
def Chip.lpeRunaway (s : Chip) (n : Nat) : Chip :=
  if (s.lpe n).running && (s.lpe n).hold.isNone && s.lpeExhausted n && !s.frozen n then s.lpeStop n F.lpeStat_RUNAWAY
  else s

/-! ### Taking writes from the queue (R44, R45, R88, R94) -/

/-- One queued write performed: a layer not bound to the head in the set of its frame sets XHEAD (R88, Table 3.6). -/
def Chip.takeWrite (s : Chip) (n : Nat) (e : LEntry) : Chip :=
  let bound (k : Nat) : Bool := (s.frm n e.frame).bound.contains k
  match e.w with
  | .set k o v =>
    if bound k then { s with lineCopies := NStore.set s.lineCopies (k * 4096 + o) ((lineReg o).mask v) }
    else s.lpeStat F.lpeStat_XHEAD n
  | .add k o v =>
    if bound k then
      let old := NStore.get 0 s.lineCopies (k * 4096 + o)
      { s with lineCopies := NStore.set s.lineCopies (k * 4096 + o) ((lineReg o).mask ((old + v) % 2 ^ 32)) }
    else s.lpeStat F.lpeStat_XHEAD n
  | .store a v =>
    let t := s.memWrite (.own (0x30 + n)) a 4 v false
    let u := a / unitSize a * unitSize a
    let live := Store.get? u t.marks
    t.updComp n fun c =>
      { c with onDie := Memory.write c.onDie a v 4,
               onDieMarks := match live with | some k => NStore.set c.onDieMarks u k | none => NStore.del c.onDieMarks u }

/-- Whether a queued layer write invalidates the head's ingot: one to a layer of its run (R125). -/
def LWrite.touches (run : List Nat) : LWrite → Bool
  | .set k _ _ => run.contains k
  | .add k _ _ => run.contains k
  | .store _ _ => false

/-- Whether a queued write is one to a store. -/
def LWrite.isStore : LWrite → Bool
  | .store _ _ => true
  | _ => false

/-- The head's ingot dropped for the rest of the frame (R125). -/
def Chip.dropIngot (s : Chip) (h : Nat) : Chip :=
  s.updComp h fun c => { c with ingotValid := false, ingotWrite := false }

/-- The queued writes for line y of composed frame f, and for lines before it, taken in program order (R45, R94); one to a
layer of the ingot's run drops it (R125). What an earlier frame, whose last lines were abandoned, has left in the queue goes
with them: its store writes are performed, its layer writes reach no line (R115). -/
def Chip.takeWrites (s : Chip) (n f y : Nat) : Chip :=
  let old (e : LEntry) : Bool := e.frame != f && frameLe e.frame f
  let mine (e : LEntry) : Bool := e.frame == f && decide (e.line ≤ y)
  let q := (s.lpe n).queue
  let t := s.updLpe n fun e => { e with queue := q.filter fun x => !(old x || mine x) }
  let t := if q.any fun e => mine e && e.w.touches (s.comp n).ingotRun then t.dropIngot n else t
  (q.filter fun e => mine e || old e && e.w.isStore).foldl (fun t e => t.takeWrite n e) t

end Sys2Proof.Machine
end

