-- ==== Sys2Proof/Machine/Hallmarks.lean ====
section
/-! DEFINITION. Hallmarks (spec/05_hallmarks.md): signatures, the two taps, expected values, actions, and the writes of
the region registers. -/

namespace Sys2Proof.Machine

def Chip.region (s : Chip) (n r : Nat) : Region := NStore.get {} s.regions (n * 64 + r)
def Chip.updRegion (s : Chip) (n r : Nat) (f : Region → Region) : Chip :=
  { s with regions := NStore.set s.regions (n * 64 + r) (f (s.region n r)) }

/-- A STAT or HSTAT bit set; a change raises the hallmark event of the head (R151). -/
def Chip.hmkStat (s : Chip) (f : Fd) (n r : Nat) : Chip := s.stick f n (13 * n + 12) r

/-! ### Signatures (R137 to R139) -/

/-- The bytes by which a pixel is signed: its frame-store value, the spare bits of 32 bpp taken as 0 (R138). -/
def crcPixel (c bytes v : Nat) : Nat := crcBytes c (if bytes = 4 then v % 2 ^ 30 else v) bytes

/-- The columns x0 to x1 of a row entered, clipped to the row (R137). -/
def crcRow (c bytes x0 x1 : Nat) (row : List Nat) : Nat :=
  ((row.drop x0).take (x1 + 1 - x0)).foldl (fun c v => crcPixel c bytes v) c

/-- Whether anything of a region remains after clipping to the active picture (R137). -/
def Chip.regionShown (s : Chip) (n : Nat) (g : RCfg) : Bool :=
  decide (g.x0 ≤ g.x1 ∧ g.y0 ≤ g.y1 ∧ g.x0 < s.fld F.shHtime_HA n ∧ g.y0 < s.va n)

/-- The last row of a region after clipping. -/
def Chip.lastRow (s : Chip) (n : Nat) (g : RCfg) : Nat := min g.y1 (s.va n - 1)

/-! ### Expected values and actions (R144, R151, R152, R154, R155) -/

/-- The pending copies of a region's configuration, as its registers hold them. -/
def Chip.pendCfg (s : Chip) (n r : Nat) : RCfg :=
  ⟨s.on F.hmkCfg_SUPV n r, s.on F.hmkCfg_FREEZE n r, s.on F.hmkCfg_BLANK n r, s.fld F.hmkCfg_MODE n r,
   s.fld F.hmkCfg_TAPS n r, s.on F.hmkCfg_EN n r, s.fld F.hmkRectH_X0 n r, s.fld F.hmkRectH_X1 n r,
   s.fld F.hmkRectV_Y0 n r, s.fld F.hmkRectV_Y1 n r⟩

/-- A mismatch of frame f at a tap: counted, and the region's actions applied (R144, R154, R155). -/
def Chip.mismatch (s : Chip) (n r : Nat) (g : RCfg) (scan : Bool) (f : Nat) : Chip :=
  let t := s.hmkStat (if scan then F.hmkStat_MISS else F.hmkStat_MISC) n r
  let t := t.bump F.hmkMiscnt_COUNT F.hmkMiscnt_SAT n r
  let t := if g.blank then
      let from_ := if scan then (f + 1) % 2 ^ 32 else f
      (t.updRegion n r fun x =>
        { x with blankFrom := some (match x.blankFrom with | some b => if frameLe b from_ then b else from_ | none => from_),
                 blankEnd := false })
        |>.hmkStat F.hmkStat_BLANKED n r
    else t
  if g.freeze then
    let t := if g.supv then t.hmkStat F.hmkHstat_FRZ_SUPV n 0 else t
    let va := t.va n
    (t.hmkStat F.hmkHstat_FROZEN n 0).updLpe n
      fun e => { e with queue := [], running := false, hold := none, nextFrame := none, released := va }
  else t

/-- A signature of frame f compared with an expected value. -/
def Chip.compareSig (s : Chip) (n r : Nat) (g : RCfg) (scan : Bool) (f sig expected : Nat) : Chip :=
  if sig = expected then s else s.mismatch n r g scan f

/-- A tap completes frame f with a signature: LAST and its frame number, learning, and the comparison (R144, R151). -/
def Chip.tapComplete (s : Chip) (n r : Nat) (g : RCfg) (scan : Bool) (f sig : Nat) : Chip :=
  let t := if scan then (s.setFld F.hmkLasts_SIG n r sig).updRegion n r fun x => { x with frmS := f }
    else (s.setFld F.hmkLastc_SIG n r sig).updRegion n r fun x => { x with frmC := f }
  let x := t.region n r
  let mine := bit g.taps (b2n scan)
  if g.mode = 1 then
    if t.on F.hmkStat_LEARNED n r then
      if mine then t.compareSig n r g scan f sig (t.fld F.hmkExp_EXP n r) else t
    else if (scan != bit g.taps 0) && frameLe (if scan then x.learnS else x.learnC) f then
      (t.setFld F.hmkExp_EXP n r sig).hmkStat F.hmkStat_LEARNED n r
    else t
  else if mine then
    if g.mode = 0 then t.compareSig n r g scan f sig (t.fld F.hmkExp_EXP n r)
    else
      match (if f % 2 = 0 then x.slot0 else x.slot1) with
      | some (v, tag) => if tag = f then t.compareSig n r g scan f sig v else t.hmkStat F.hmkStat_NOEXP n r
      | none => t.hmkStat F.hmkStat_NOEXP n r
  else t

/-! ### The compose tap (R142) -/

/-- A course's rows entered at the compose tap of region r, or the region marked for a course that was abandoned; the
course that holds the region's last row completes the frame. While the head is frozen the tap produces nothing, and what it
then misses of a frame leaves that frame without a comparison (R142). -/
def Chip.composeTap (s : Chip) (n y0 : Nat) (rows : List (List Nat)) (count : Nat) (sealed : Bool) (f r : Nat) (g : RCfg) : Chip :=
  if g.en && s.regionShown n g && decide (y0 ≤ s.lastRow n g ∧ g.y0 < y0 + count) then
    let run := NStore.get {} (s.frm n f).taps r
    let run := if sealed && !s.frozen n then
        let mine := (rows.drop (g.y0 - y0)).take (s.lastRow n g + 1 - max y0 g.y0)
        { run with crc := mine.foldl (fun a row => crcRow a (s.fsBytes n) g.x0 g.x1 row) run.crc }
      else { run with skip := true }
    let t := s.updFrm n f fun x => { x with taps := NStore.set x.taps r run }
    if s.lastRow n g < y0 + count && !s.frozen n then
      if run.skip then (if bit g.taps 0 then t.hmkStat F.hmkStat_SKIP n r else t)
      else t.tapComplete n r g false f (crcEnd run.crc)
    else t
  else s

/-- A course sealed or abandoned at every region's compose tap. -/
def Chip.composeTaps (s : Chip) (n y0 : Nat) (rows : List (List Nat)) (count : Nat) (sealed : Bool) (f : Nat) : Chip :=
  (s.frm n f).hmk.foldl (fun t p => t.composeTap n y0 rows count sealed f p.1 p.2) s

/-- An abandoned page-mode frame is a completion without a comparison for every region (R142). -/
def Chip.skipAll (s : Chip) (n f : Nat) : Chip :=
  (s.frm n f).hmk.foldl (fun t p =>
    if p.2.en && t.regionShown n p.2 && bit p.2.taps 0 then t.hmkStat F.hmkStat_SKIP n p.1 else t) s

/-! ### The scan tap (R140, R143) -/

/-- Row y as the head sends it entered at region r's scan tap. -/
def Chip.scanRow (s : Chip) (n y : Nat) (row : List Nat) (r : Nat) : Chip :=
  let x := s.region n r
  let g := x.act
  let f := s.fld F.shFrame_FRAME n
  if g.en && s.regionShown n g && decide (g.y0 ≤ y ∧ y ≤ s.lastRow n g) then
    let base : TapRun := if y = g.y0 then {} else x.scan
    s.updRegion n r fun x => { x with scan := { base with crc := crcRow base.crc (s.fsBytes n) g.x0 g.x1 row,
                                                          row := y + 1, frame := f } }
  else s

/-- Whether the last pixel of region r, all of whose rows the scan tap has signed, has passed it (R143). -/
def Chip.tapPassed (s : Chip) (n : Nat) (x : Region) : Bool :=
  let last := s.lastRow n x.act
  decide (x.scan.row = last + 1) &&
  decide (x.scan.frame ≠ s.fld F.shFrame_FRAME n ∨
    s.beam16 n (min (x.act.x1 + 1) (s.fld F.shHtime_HA n)) last < s.now16 + 65536)

/-- The last pixel of region r passes the scan tap (R143). -/
def Chip.scanTap (s : Chip) (n r : Nat) : Chip :=
  let x := s.region n r
  if s.on F.shStat_RUNNING n && x.act.en && s.regionShown n x.act && s.tapPassed n x then
    (s.updRegion n r fun x => { x with scan := {} }).tapComplete n r x.act true x.scan.frame (crcEnd x.scan.crc)
  else s

/-- Whether region r blanks pixel (x, y) of frame f (R154, R157). -/
def Chip.blanks (s : Chip) (n f x y : Nat) (p : Nat × Region) : Bool :=
  decide (p.1 / 64 = n) && (match p.2.blankFrom with | some b => frameLe b f | none => false) &&
  decide (p.2.act.x0 ≤ x ∧ x ≤ p.2.act.x1 ∧ p.2.act.y0 ≤ y ∧ y ≤ s.lastRow n p.2.act)

/-- The blanking colour in the frame-store format (Table 5.1). -/
def Chip.blankPixel (s : Chip) (n : Nat) : Nat :=
  let v := s.fld F.hmkBlankcol_RGB n
  if s.fsBytes n = 4 then v else bits v 29 25 * 2 ^ 11 + bits v 19 14 * 2 ^ 5 + bits v 9 5

/-! ### Latch line and register writes (R148 to R150, R152, R156) -/

/-- Whether a change of configuration restarts learning (R148, Table 5.4). -/
def RCfg.relearns (a b : RCfg) : Bool :=
  a.mode != b.mode || a.taps != b.taps || a.x0 != b.x0 || a.x1 != b.x1 || a.y0 != b.y0 || a.y1 != b.y1

/-- The registers of region r that hold configuration, and the pending copies of one of them put into a configuration. -/
def RCfg.takeReg (a p : RCfg) : RegId → RCfg
  | .hmkCfg => { a with supv := p.supv, freeze := p.freeze, blank := p.blank, mode := p.mode, taps := p.taps, en := p.en }
  | .hmkRectH => { a with x0 := p.x0, x1 := p.x1 }
  | .hmkRectV => { a with y0 := p.y0, y1 := p.y1 }
  | _ => a

/-- A configuration of region r made active; where it changes what is learnt, learning restarts with scan frame f and
composed frame fc (R148). -/
def Chip.useRegion (s : Chip) (n r : Nat) (g : RCfg) (f fc : Nat) : Chip :=
  let old := (s.region n r).act
  let t := s.updRegion n r fun x => { x with act := g }
  if old.relearns g then
    (t.setFld F.hmkStat_LEARNED n r 0).updRegion n r fun x => { x with learnS := f, learnC := fc }
  else t

/-- The pending copies of region r made active at a latch line (R148). -/
def Chip.takeRegion (s : Chip) (n r f fc : Nat) : Chip := s.useRegion n r (s.pendCfg n r) f fc

/-- At the latch instant of frame f, what waited for a frame already reached waits no longer: it is kept as f, so that frame
numbers stay comparable modulo 2^32 (R171). -/
def Chip.regionReach (s : Chip) (n r f : Nat) : Chip :=
  let near (b : Nat) : Nat := if frameLe b f then f else b
  s.updRegion n r fun x => { x with learnC := near x.learnC, learnS := near x.learnS, blankFrom := x.blankFrom.map near }

/-- A region whose head's frame count is at 0: what waits for a frame of the count before waits for none of the new one,
and a replacement in force goes on (R154, R173). -/
def Chip.regionWrap (s : Chip) (n r : Nat) : Chip :=
  s.updRegion n r fun x => { x with learnC := 0, learnS := 0, blankFrom := x.blankFrom.map fun _ => 0 }

/-- Every region of head n at its latch line: the active copies, and blanking that ends (R148, R154). -/
def Chip.latchRegions (s : Chip) (n f : Nat) : Chip :=
  (List.range 64).foldl (fun t r =>
    let t := if f = 0 then t.regionWrap n r else t.regionReach n r f
    let t := t.takeRegion n r f ((f + 1) % 2 ^ 32)
    if (t.region n r).blankEnd then t.updRegion n r fun x => { x with blankFrom := none, blankEnd := false } else t) s

/-- Whether a write to region r from a master is turned away under SUPV (R149). -/
def Chip.supvBars (s : Chip) (m : Master) (n r : Nat) : Bool :=
  (s.on F.hmkCfg_SUPV n r || (s.region n r).act.supv) && m != .own 0x11

/-- A field written unless its encoding is reserved (R9). -/
def Chip.writeFld (s : Chip) (f : Fd) (i j v : Nat) : Chip :=
  let x := bits v f.hi f.lo
  if f.resv.any (fun r => decide (r.1 ≤ x ∧ x ≤ r.2)) then s else s.setFld f i j x

/-- A write to one of CFG, RECT_H, RECT_V, EXP: discarded while the region is locked (R148, R150). -/
def Chip.writeRegionCfg (s : Chip) (id : RegId) (n r : Nat) (flds : List Fd) (v : Nat) : Chip :=
  if s.on F.hmkCfg_LOCK n r then s.hmkStat F.hmkStat_LOCK_REJ n r
  else
    let t := flds.foldl (fun t f => t.writeFld f n r v) s
    if s.on F.shStat_RUNNING n then t else t.useRegion n r ((s.region n r).act.takeReg (t.pendCfg n r) id) 0 0

/-- A write to HTAGs arms slot s with the value HVALs holds (R152). -/
def Chip.armSlot (s : Chip) (n r slot v : Nat) : Chip :=
  if slot = 0 then
    ((s.setFld F.hmkHtag0_TAG n r v).hmkStat F.hmkStat_ARMED0 n r).updRegion n r
      fun x => { x with slot0 := some (s.fld F.hmkHval0_VAL n r, v) }
  else
    ((s.setFld F.hmkHtag1_TAG n r v).hmkStat F.hmkStat_ARMED1 n r).updRegion n r
      fun x => { x with slot1 := some (s.fld F.hmkHval1_VAL n r, v) }

/-- A W1C field written: each bit written 1 clears that bit (R7). -/
def Chip.w1c (s : Chip) (f : Fd) (i j v : Nat) : Chip :=
  s.setFld f i j (Nat.xor (s.fld f i j) (Nat.land (s.fld f i j) (bits v f.hi f.lo)))

/-- A write to a region's STAT: BLANKED cleared stops the blanking from the next latch line (R154). -/
def Chip.writeRegionStat (s : Chip) (n r v : Nat) : Chip :=
  let t := [F.hmkStat_LOCK_REJ, F.hmkStat_WR_REJ, F.hmkStat_BLANKED, F.hmkStat_NOEXP, F.hmkStat_SKIP, F.hmkStat_MISS,
    F.hmkStat_MISC].foldl (fun t f => t.w1c f n r v) s
  if bit v 5 then t.updRegion n r fun x => { x with blankEnd := x.blankFrom.isSome } else t

/-- A write to a register of region r of head n (R147 to R152). -/
def Chip.writeRegion (s : Chip) (m : Master) (k : RegId) (n r v : Nat) : Chip :=
  if s.supvBars m n r then s.hmkStat F.hmkStat_WR_REJ n r
  else match k with
    | .hmkCfg => s.writeRegionCfg k n r [F.hmkCfg_LOCK, F.hmkCfg_SUPV, F.hmkCfg_FREEZE, F.hmkCfg_BLANK, F.hmkCfg_MODE,
        F.hmkCfg_TAPS, F.hmkCfg_EN] v
    | .hmkRectH => s.writeRegionCfg k n r [F.hmkRectH_X1, F.hmkRectH_X0] v
    | .hmkRectV => s.writeRegionCfg k n r [F.hmkRectV_Y1, F.hmkRectV_Y0] v
    | .hmkExp => s.writeRegionCfg k n r [F.hmkExp_EXP] v
    | .hmkHval0 => s.setFld F.hmkHval0_VAL n r v
    | .hmkHval1 => s.setFld F.hmkHval1_VAL n r v
    | .hmkHtag0 => s.armSlot n r 0 v
    | .hmkHtag1 => s.armSlot n r 1 v
    | .hmkStat => s.writeRegionStat n r v
    | _ => s

/-- A write to HMKn_HSTAT: FROZEN is cleared unless the freeze is supervisory and the master is not (R156). -/
def Chip.writeHstat (s : Chip) (m : Master) (n v : Nat) : Chip :=
  let t := s.w1c F.hmkHstat_FWRAP n 0 v
  if bit v 0 && s.on F.hmkHstat_FROZEN n then
    if s.on F.hmkHstat_FRZ_SUPV n && m != .own 0x11 then
      (List.range 64).foldl (fun t r =>
        if t.on F.hmkCfg_SUPV n r || (t.region n r).act.supv then t.hmkStat F.hmkStat_WR_REJ n r else t) t
    else
      ((t.setFld F.hmkHstat_FROZEN n 0 0).setFld F.hmkHstat_FRZ_SUPV n 0 0).updComp n fun c => { c with frozenHold := true }
  else t

/-- A read of LASTC or LASTS latches the matching frame number (R145). -/
def Chip.readSig (s : Chip) (n r : Nat) (scan : Bool) : Nat × Chip :=
  if scan then (s.fld F.hmkLasts_SIG n r, s.setFld F.hmkLastsFrm_FRAME n r (s.region n r).frmS)
  else (s.fld F.hmkLastc_SIG n r, s.setFld F.hmkLastcFrm_FRAME n r (s.region n r).frmC)

/-- HMKn_MISLO and MISHI: the regions with MISC or MISS (Table 5.1). -/
def Chip.misWord (s : Chip) (n hi : Nat) : Nat :=
  (List.range 32).foldl (fun w r =>
    if s.on F.hmkStat_MISC n (32 * hi + r) || s.on F.hmkStat_MISS n (32 * hi + r) then w + 2 ^ r else w) 0

end Sys2Proof.Machine
end

