-- ==== Sys2Proof/Machine/Compositor.lean ====
section
/-! DEFINITION. The compositor (spec/04_chasing.md, R14 to R19, R42 to R47 and R62 to R76): courses, lines, seals, ingots,
flips and fences, and the writes of its registers. -/

namespace Sys2Proof.Machine

/-- A bit of CPSn_STAT set; a change raises the compositor-status event (R134). -/
def Chip.cpsStat (s : Chip) (f : Fd) (h : Nat) : Chip := s.stick f h (13 * h + 10)

/-- A bit of LAYk_STAT set by head h's work; a change raises the layer-status event of that head (R47). -/
def Chip.layStat (s : Chip) (f : Fd) (k h : Nat) : Chip := s.stick f k (13 * h + 8)

/-! ### Sets, lanes, notes -/

/-- The layers bound to head h in the active assignments, in ascending number. -/
def Chip.boundTo (s : Chip) (h : Nat) : List Nat :=
  (s.selecting F.layAssignAct_BOUND 1).filter fun k => s.fld F.layAssignAct_HEAD k == h

/-- The layers that hold a slot of head h, front first: of two that name one slot the lower-numbered (R37, R38). -/
def Chip.slotsOf (s : Chip) (h : Nat) : List (Nat × Nat) :=
  let ks := s.boundTo h
  (List.range 32).filterMap fun slot => (ks.find? fun k => s.fld F.layAssignAct_SLOT k == slot).map fun k => (slot, k)

/-- The sources of a layer as a composed frame takes them. -/
def Chip.sourceOf (s : Chip) (p : Nat × Nat) : LaySrc :=
  ⟨p.2, p.1, s.word .layFormatAct p.2, s.word .layMapBaseAct p.2, s.word .layPatBaseAct p.2, s.word .layBmpSizeAct p.2,
   s.word .layBmpStrideAct p.2, s.word .laySprRangeAct p.2⟩

/-- The active lanes that name head h, in ascending number. -/
def Chip.lanesNaming (s : Chip) (h : Nat) : List Nat :=
  (List.range 16).filter fun j => s.on F.cpsLaneAct_EN j && s.fld F.cpsLaneAct_HEAD j == h

/-- The lanes that compose the head's present composed frame: those its latch instant took, at most four (R21, R108), whose
domain is on. -/
def Chip.lanesOf (s : Chip) (h : Nat) : List Nat :=
  (s.frm h (s.comp h).frame).lanes.filter fun j => s.domOn (9 + s.physOf 1 j)

/-- The columns that lane i of m lanes composes of a line of ha columns, from the first to the one past the last (R110). -/
def stripe (ha m i : Nat) : Nat × Nat :=
  let w := (ha + 16 * m - 1) / (16 * m) * 16
  (min (i * w) ha, min ((i + 1) * w) ha)

/-- The columns of a line in the order of the lanes that compose them (R110). -/
def stripeCols (ha m : Nat) : List Nat :=
  (List.range m).flatMap fun i => (List.range ((stripe ha m i).2 - (stripe ha m i).1)).map ((stripe ha m i).1 + ·)

/-- What the fetches of a line or course met, reported by head h: flags, error records, corrections (R47, R57, R76, R126,
R357, R359). -/
def Chip.applyNote (s : Chip) (h : Nat) : Note → Chip
  | .addrErr k => s.layStat F.layStat_ADDR_ERR k h
  | .poison k u =>
    let m := Master.own (0x38 + h)
    let t := (s.checkUnit u).2
    ((t.logErr 1 m (t.storeOf u) (t.localAddr u)).logErr 2 m (t.storeOf u) (t.localAddr u)).layStat F.layStat_POISON k h
  | .fix u => (s.checkUnit u).2
  | .ingot u =>
    let m := Master.own (0x38 + h)
    let t := (s.checkUnit u).2
    let t := (t.logErr 1 m 48 (t.localAddr u)).logErr 2 m 48 (t.localAddr u)
    (t.cpsStat F.cpsStat_INGOT_POISON h).updComp h fun c => { c with ingotValid := false, ingotWrite := false }
  | .off k a => (s.logOff (.own (0x38 + h)) a).layStat F.layStat_ADDR_ERR k h
  | .held => s

/-- What a line or the start of a course met, each poisoned unit once for a layer in one course (R76). -/
def Chip.applyNotes (s : Chip) (h : Nat) (ns : List Note) : Chip :=
  ns.eraseDups.foldl (fun t x =>
    match x with
    | .poison k u =>
      if (t.comp h).met.contains (k, u) then t
      else (t.applyNote h x).updComp h fun c => { c with met := c.met ++ [(k, u)] }
    | _ => t.applyNote h x) s

/-- The marks as the present course sees them: a unit it has met as poison stays so, for the compositor does not retry
(R76; for every layer of the course: DEDUCED, notes/assumptions/64.md). -/
def Chip.courseMarks (s : Chip) (h : Nat) : NStore Mark :=
  (s.comp h).met.foldl (fun ms p => NStore.set ms p.2 .poison) s.marks

/-! ### Line copies (R43, R44) -/

/-- The offsets that have a line copy. -/
def lineOffsets : List Nat := [0x00C, 0x010, 0x020, 0x024, 0x028, 0x02C, 0x030, 0x034, 0x038, 0x03C, 0x040, 0x044]

/-- Every line copy of a layer set to its frame value, or to the active value its frame took (R44 step 1). -/
def Chip.resetCopies (s : Chip) (l : LaySrc) : Chip :=
  let k := l.k
  let value (o : Nat) : Nat := if o = 0x00C then l.map else if o = 0x010 then l.pat else s.word (lineReg o) k
  let lc := lineOffsets.foldl (fun lc o => NStore.set lc (k * 4096 + o) (value o)) s.lineCopies
  { s with lineCopies := lc, liveDirty := s.liveDirty.filter fun x => x / 4096 != k }

/-- The line copies of the live registers of a layer written since its previous course began (R44 step 2). -/
def Chip.refreshCopies (s : Chip) (k : Nat) : Chip :=
  let lc := (s.liveDirty.filter fun x => x / 4096 == k).foldl
    (fun lc x => NStore.set lc x (s.word (lineReg (x % 4096)) k)) s.lineCopies
  { s with lineCopies := lc, liveDirty := s.liveDirty.filter fun x => x / 4096 != k }

/-! ### Instants of a course (R14, R18, R19) -/

/-- The instant at which line y of frame f begins at the scan tap, in 1/65,536 tk, from the present frame's stamp. -/
def Chip.lineAt (s : Chip) (h f : Nat) (y : Int) : Int :=
  let k : Int := ((f : Int) - s.fld F.shFrame_FRAME h + 2 ^ 31) % 2 ^ 32 - 2 ^ 31
  s.top16 h + s.dots16 h ((k * s.fld F.shVtime_VT h + y) * s.fld F.shHtime_HT h)

/-- When the seal of lines from y0 of composed frame f is due: scan-out reaches line y0 of frame f (R14, R18). The line before
line 0 is the latch line, whose length may be adjusted (R166). -/
def Chip.dueAt (s : Chip) (h f y0 : Nat) : Int :=
  if y0 = 0 ∧ f = s.fld F.shFrame_FRAME h then (s.head h).latchAt else s.lineAt h f ((y0 : Int) - 1)

/-- When the course that ends with line y1 of composed frame f is released: scan-out of frame f - 1 has finished reading
line y1 (R14, R18, R117). -/
def Chip.releasedAt (s : Chip) (h f y1 : Nat) : Int := s.lineAt h f ((y1 : Int) - s.fld F.shVtime_VT h)

/-- The write-back time of n bytes at the guaranteed frame-store rate of 24 GB/s, in 1/65,536 tk (R115). -/
def writeBack16 (n : Nat) : Nat := n * 65536 / 24

/-! ### Ends of courses and frames (R134) -/

/-- The end of composed frame f: counts, slack, the frame-sealed event. -/
def Chip.finishFrame (s : Chip) (h f : Nat) : Chip :=
  let x := s.frm h f
  let sl := if x.bad then 0 else match x.slack with | some d => min (d / 16) 0xFFFFFF | none => 0
  let fin := if x.tee && x.teeWhole && !x.bad && x.act.teeFsig then [TeeFin.mk f x.act.teeFence x.act.teeChip] else []
  let t := s.updComp h fun c => { c with finished := c.finished + 1, frms := c.frms.filter fun y => y.frame != f,
                                         teeFin := c.teeFin ++ fin }
  let t := t.setFld F.cpsMinslack_SLACK h 0 sl
  let t := t.setOn F.cpsProgress_RUN h 0 ((t.comp h).frms.any fun y => y.begun)
  (t.setFld F.cpsProgress_FRAME h 0 (t.comp h).finished).raise (13 * h + 11)

/-- Course cn of composed frame f sealed or abandoned; the last one ends the frame. -/
def Chip.courseDone (s : Chip) (h f cn : Nat) : Chip :=
  let t := s.setFld F.cpsProgress_COURSE h 0 cn
  if courseCount (s.va h) (2 ^ (s.frm h f).chLog2) ≤ cn + 1 then t.finishFrame h f else t

/-- An abandoned course or frame reported: UNDERRUN and its count, and the head's event (R19, R105, R176); nothing while the
head is frozen (R155). -/
def Chip.underrun (s : Chip) (h : Nat) : Chip :=
  if s.frozen h then s else ((s.cpsStat F.cpsStat_UNDERRUN h).bump F.cpsUndercnt_COUNT F.cpsUndercnt_SAT h).raise (13 * h + 6)

/-- The next course of the head, after the last one of a frame the first of the next frame. -/
def Chip.nextCourse (s : Chip) (h : Nat) : Chip :=
  let n := courseCount (s.va h) (2 ^ (s.frm h (s.comp h).frame).chLog2)
  s.updComp h fun c =>
    if n ≤ c.course + 1 then { c with course := 0, frame := (c.frame + 1) % 2 ^ 32 }
    else { c with course := c.course + 1 }

/-- A course of frame f abandoned, at the instant it is given up (R19, R115): reported at once. -/
def Chip.giveUp (s : Chip) (h f : Nat) : Chip := (s.underrun h).updFrm h f fun x => { x with bad := true, teeWhole := false }

/-- An abandoned course of lines y0 to y0 + count - 1 of frame f ends, in its turn (R17, R116, R142). -/
def Chip.passCourse (s : Chip) (h f cn y0 count : Nat) : Chip := (s.composeTaps h y0 [] count false f).courseDone h f cn

/-- Whether the write-back of n lines from y0 of frame f can no longer complete before their seal is due, at the guaranteed
frame-store rate, where it begins now (R19, R115). -/
def Chip.tooLate (s : Chip) (h f y0 n : Nat) : Bool :=
  (s.frm h f).mode == 1 &&
  decide (s.dueAt h f y0 < s.now16 + writeBack16 (n * s.fld F.shHtime_HA h * s.fsBytes h))

/-- The course buffers after one came or went: abandoned courses at the front end, and the write-back of the first composed
course begins, unless it is too late for it and it is abandoned as well (R19, R115). -/
def Chip.settleRest (s : Chip) (h : Nat) : Nat → Chip
  | 0 => s
  | n + 1 =>
    match (s.comp h).bufs with
    | [] => s
    | b :: rest =>
      let t := s.updComp h fun c => { c with bufs := rest }
      match b.gone with
      | some k => (t.passCourse h b.frame b.course b.y0 k).settleRest h n
      | none =>
        if s.tooLate h b.frame b.y0 b.lines.length then
          ((t.giveUp h b.frame).passCourse h b.frame b.course b.y0 b.lines.length).settleRest h n
        else s

/-- The course buffers settled after a change. -/
def Chip.settleBufs (s : Chip) (h : Nat) : Chip := s.settleRest h (s.comp h).bufs.length

/-- A course abandoned before it is composed: it ends at once, or behind the course that is being written back. -/
def Chip.abandonCourse (s : Chip) (h f cn y0 count : Nat) : Chip :=
  let t := s.giveUp h f
  if (s.comp h).bufs.isEmpty then t.passCourse h f cn y0 count
  else t.updComp h fun c => { c with bufs := c.bufs ++ [⟨f, cn, y0, [], some count⟩] }

/-! ### Static runs and ingots (R123 to R125) -/

/-- The present course's view of the enabled layers in slot order. -/
def Chip.enabledOf (s : Chip) (h : Nat) : List LaySrc :=
  (s.frm h (s.comp h).frame).set.filter fun l => bit (NStore.get 0 (s.comp h).ctrls l.k) 0

/-- The static runs of the enabled layers, front first: maximal stretches of STATIC layers (R123). -/
def runsOf (static_ : Nat → Bool) (ks : List Nat) : List (List Nat) :=
  (ks.foldr (fun k (acc : List (List Nat) × Bool) =>
    if static_ k then (match acc with | (r :: rs, true) => ((k :: r) :: rs, true) | (rs, _) => ([k] :: rs, true))
    else (acc.1, false)) ([], false)).1

/-- The run an ingot may hold: the one furthest to the rear (R124). -/
def Chip.rearRun (s : Chip) (h : Nat) : List Nat :=
  ((runsOf (fun k => bit (NStore.get 0 (s.comp h).ctrls k) 7) ((s.enabledOf h).map (·.k))).getLast?).getD []

/-- Whether the ingot allocation of head h holds a whole picture and no retired block (R124, R372). -/
def Chip.ingotFits (s : Chip) (h : Nat) : Bool :=
  let a := (s.frm h (s.comp h).frame).act
  s.domOn 40 && decide (s.fld F.shHtime_HA h * s.va h * 4 ≤ a.ingotSize * 65536) &&
  !(s.retired.any fun b => decide ((b + 256 - a.ingotBase) % 256 < a.ingotSize))

/-- Every ingot whose run holds layer k dropped (R125). -/
def Chip.dropIngotsOf (s : Chip) (k : Nat) : Chip :=
  (List.range 8).foldl (fun t h => if (t.comp h).ingotRun.contains k then t.dropIngot h else t) s

/-- The run and the ingot at the start of a course; at a frame's first course the writing of an ingot may begin. -/
def Chip.courseIngot (s : Chip) (h : Nat) (first : Bool) : Chip :=
  let run := s.rearRun h
  let t := if run = (s.comp h).ingotRun then s else (s.dropIngot h).updComp h fun c => { c with ingotRun := run }
  if (s.frm h (s.comp h).frame).ingot && !run.isEmpty then
    if s.ingotFits h then
      if first then t.updComp h fun c => { c with ingotWrite := !c.ingotValid } else t
    else (t.cpsStat F.cpsStat_INGOT_FULL h).dropIngot h
  else t.dropIngot h

/-! ### COURSE_BEGIN (R16, R18, R70, R80, R108, R114, R115) -/

/-- The page the compositor fills for the frame that comes next: the one the head does not take (R105). -/
def Chip.pageFor (s : Chip) (h : Nat) : Nat :=
  let a := (s.comp h).act
  if s.fld F.shFaddrAct_OFFSET h = a.pageA then a.pageB else a.pageA

/-- Composed frame f as the latch instant takes it, from the active copies as they then stand (R21, R104, R105, R148). -/
def Chip.newFrm (s : Chip) (h f : Nat) : Frm :=
  let mode := s.fld F.cpsCtrlAct_MODE h
  let base := if mode = 2 then s.pageFor h else s.fld F.shFaddrAct_OFFSET h
  { frame := f, mode := mode, chLog2 := s.fld F.cpsCtrlAct_CH_LOG2 h, base := base * 4096, occ := s.on F.cpsCtrlAct_OCC_EN h,
    ingot := s.on F.cpsCtrlAct_INGOT_EN h, tee := s.on F.cpsCtrlAct_TEE_EN h, teeWhole := s.on F.cpsCtrlAct_TEE_EN h,
    act := (s.comp h).act, set := (s.slotsOf h).map s.sourceOf, bound := s.boundTo h, lanes := (s.lanesNaming h).take 4,
    hmk := (List.range 64).filterMap fun r => let g := (s.region h r).act; if g.en then some (r, g) else none }

/-- A composed frame begun: line copies reset, the engine on its frame (R44, R81). -/
def Chip.beginFrame (s : Chip) (h : Nat) : Chip :=
  let f := (s.comp h).frame
  let x := s.frm h f
  let t := (s.updComp h fun c => { c with ingotValid := c.ingotValid && c.ingotCh == x.chLog2, ingotCh := x.chLog2 }).updFrm h f
    fun x => { x with begun := true }
  let t := x.set.foldl (fun t l => t.resetCopies l) t
  (t.lpeFrame h f).setFld F.cpsProgress_RUN h 0 1

/-- What a course reads once before its first line: CTRL words, backdrop, LUT and the on-die stores (R46, R70, R71, R73,
R181); poisoned descriptors and reserved formats are reported (R64, R76). A descriptor with SHOW = 0 is absent by Table 2.12
and reports no reserved format (DEDUCED, notes/assumptions/66.md). -/
def Chip.courseReads (s : Chip) (h : Nat) : Chip :=
  let c := s.comp h
  let ctrls := (s.frm h c.frame).set.map fun l => (l.k, s.word .layCtrl l.k)
  let onDie := s.mem.filter fun p => decide (0x17000000 ≤ p.1 ∧ p.1 < 0x17210000)
  let marks := s.marks.filter fun p => decide (0x17000000 ≤ p.1 ∧ p.1 < 0x17210000)
  let t := s.updComp h fun c =>
    { c with ctrls := ctrls, backdrop := s.fld F.cpsBackdrop_RGB h, lutEn := s.on F.shLutctrl_LUT_EN h,
             dither := s.fld F.shLutctrl_DITHER h, lut := s.flds.filter (fun p => p.1.id = .shLut && p.1.i == h),
             onDie := onDie, onDieMarks := marks, met := [] }
  let planes := (t.enabledOf h).filter fun l => l.fmt % 4 == 2
  planes.foldl (fun t l =>
    l.sprites.foldl (fun t n =>
      let r := Snap.fetch ⟨onDie, marks⟩ l.k (0x17100000 + n * 16) 16
      let t := t.applyNotes h r.2
      match r.1 with
      | some d => if sprShow d && sprFmt d == 7 then t.layStat F.layStat_DESC_ERR l.k h else t
      | none => t) t) t

/-- Whether the course that comes next may begin (R18, R114). -/
def Chip.courseReady (s : Chip) (h y1 : Nat) : Bool :=
  let c := s.comp h
  s.on F.shStat_RUNNING h && c.frms.any (fun x => x.frame == c.frame) && !c.composing && !s.frozen h && !c.frozenHold
  && decide ((c.bufs.filter fun b => b.gone.isNone).length ≤ 1)
  && ((s.frm h c.frame).mode != 1 || decide (s.releasedAt h c.frame y1 ≤ s.now16))

/-- The lanes begin the course that comes next, or abandon it (R114 to R116). -/
def Chip.courseBegin (s : Chip) (h : Nat) : Chip :=
  let c := s.comp h
  let x := s.frm h c.frame
  let first := c.course == 0
  let hh := 2 ^ x.chLog2
  let y0 := c.course * hh
  let y1 := courseEnd (s.va h) hh c.course
  if s.courseReady h y1 then
    let t := if first then s.beginFrame h else s
    let t := if y0 = 0 then t else t.takeWrites h c.frame (y0 - 1)
    let t := if first then t else x.set.foldl (fun t l => t.refreshCopies l.k) t
    let last := decide (courseCount (s.va h) hh ≤ c.course + 1)
    let nolane := (s.lanesOf h).isEmpty
    let t := if last then t.lpeBegin h ((c.frame + 1) % 2 ^ 32) else t
    if nolane && x.mode == 2 then t.cpsStat F.cpsStat_NOLANE h
    else if nolane || s.tooLate h c.frame y0 (y1 + 1 - y0) then
      let t := if nolane then t.cpsStat F.cpsStat_NOLANE h else t
      (t.nextCourse h).abandonCourse h c.frame c.course y0 (y1 + 1 - y0)
    else
      let t := t.updComp h fun c => { c with composing := true, line := y0, cur := [], stalled := false }
      (t.courseReads h).courseIngot h first
  else s

/-! ### LINE_COMPOSE (R16, R45, R68, R69, R92, R98, R120) -/

/-- A layer as the present line composes it. -/
def Chip.layCtx (s : Chip) (h : Nat) (l : LaySrc) : LayCtx :=
  ⟨l, NStore.get 0 (s.comp h).ctrls l.k,
   s.lineCopies.filterMap fun p => if p.1 / 4096 = l.k then some (p.1 % 4096, p.2) else none, []⟩

/-- The spans of a line, ordered by slot and then by descriptor: the layer and the span (R68, R69). -/
def lineSpans (q : Snap) (cs : List LayCtx) (ha y : Nat) : List (Nat × (Nat × Nat)) :=
  cs.flatMap fun c => if c.src.fmt % 4 = 2 then (spansOf q c ha y).map fun sp => (c.src.k, sp) else []

/-- The stages of a line from its layers: a STATIC layer joins the run of the one before it (R123). -/
def stagesOf : List LayCtx → List Stage
  | [] => []
  | c :: t =>
    if bit c.ctrl 7 then
      match stagesOf t with
      | .run cs :: rest => .run (c :: cs) :: rest
      | rest => .run [c] :: rest
    else .lay c :: stagesOf t

/-- The rear run's stage replaced by the ingot's row (R124). -/
def useIngot (run : List Nat) (base off : Nat) (gs : List Stage) : List Stage :=
  gs.map fun g => match g with
    | .run cs => if cs.map (fun c => c.src.k) = run then .ingot base off else g
    | g => g

/-- The run results of a line of ha pixels for its ingot (R125). -/
def Chip.ingotRow (s : Chip) (ha y : Nat) (run : List Nat) (gs : List Stage) (q : Snap) : List (Nat × List Note) :=
  match gs.find? fun g => match g with | .run cs => cs.map (fun c => c.src.k) == run | _ => false with
  | some (.run cs) => (List.range ha).map fun x => s.runAt q false cs x y
  | _ => []

/-- The ingot's pixels of a line, written as the run's results are made (R125). -/
def Chip.writeIngotRow (s : Chip) (h base off : Nat) (row : List Nat) : Chip :=
  row.zipIdx.foldl (fun t p => t.memWrite (.own (0x38 + h)) (ingotAddr base (off + 4 * p.2)) 4 p.1 false) s

/-- The present line composed: its queued writes taken, its pixels blended into the course buffer. None where a fetch has to
wait for a bank that is being drained (R367). -/
def Chip.composeLine (s : Chip) (h : Nat) : Option Chip :=
  let c0 := s.comp h
  let x := s.frm h c0.frame
  let y := c0.line
  let s := s.takeWrites h c0.frame y
  let c := s.comp h
  let ha := s.fld F.shHtime_HA h
  let q : Snap := ⟨c.onDie, c.onDieMarks⟩
  let ctxs := (s.enabledOf h).map (s.layCtx h)
  let spans := lineSpans q ctxs ha y
  let kept := spans.take 1024
  let lost := ((spans.drop 1024).map (·.1)).eraseDups
  let ctxs := ctxs.map fun l => { l with spans := kept.filterMap fun p => if p.1 = l.src.k then some p.2 else none }
  let stages := stagesOf ctxs
  let off := y * ha * 4
  let shown := if c.ingotValid then useIngot c.ingotRun x.act.ingotBase off stages else stages
  let seen := { s with marks := s.courseMarks h }
  let px := (stripeCols ha (s.lanesOf h).length).map fun i => (i, seen.blendPixel q x.occ shown c.backdrop i y)
  let wide := s.fld F.shFormat_FSFMT h != 0
  let line := px.map fun p => storePixel h c.lutEn c.lut c.dither wide p.2.1 p.1 y
  let ing := if c.ingotWrite then seen.ingotRow ha y c.ingotRun stages q else []
  let notes := px.flatMap (fun p => p.2.2) ++ ing.flatMap (·.2)
  if notes.contains .held then none else
  let t := s.applyNotes h notes
  let t := lost.foldl (fun t k => (t.layStat F.layStat_SPAN_DROP k h).bump F.layDropcnt_COUNT F.layDropcnt_SAT k) t
  let t := if (t.comp h).ingotWrite then t.writeIngotRow h x.act.ingotBase off (ing.map (·.1)) else t
  some (t.updComp h fun c => { c with cur := c.cur ++ [line], line := y + 1, stalled := false })

/-- The present course given up where the last of the head's lanes has lost its domain: a course in chasing mode is abandoned,
a frame in page mode will be (R105, R108). -/
def Chip.loseLanes (s : Chip) (h : Nat) : Chip :=
  let c := s.comp h
  let x := s.frm h c.frame
  let hh := 2 ^ x.chLog2
  let t := s.cpsStat F.cpsStat_NOLANE h
  if x.mode = 1 then
    ((t.updComp h fun c => { c with composing := false, cur := [] }).nextCourse h).abandonCourse h c.frame c.course (c.course * hh)
      (courseEnd (s.va h) hh c.course + 1 - c.course * hh)
  else t

/-- The lanes compose the present line once the engine has released it, else they wait (R92, R98); the course's last line
fills its buffer. -/
def Chip.lineCompose (s : Chip) (h : Nat) : Chip :=
  let c := s.comp h
  let x := s.frm h c.frame
  let hh := 2 ^ x.chLog2
  if c.composing then
    if (s.lanesOf h).isEmpty then s.loseLanes h
    else if !s.lineOut h c.frame c.line then
      if c.stalled then s
      else ((s.lpeStat F.lpeStat_STALL h).bump F.lpeStallcnt_COUNT F.lpeStallcnt_SAT h).updComp h
        fun c => { c with stalled := true }
    else match s.composeLine h with
    | none => s
    | some t =>
      if courseEnd (s.va h) hh c.course ≤ c.line then
        let whole := decide (courseCount (s.va h) hh ≤ c.course + 1)
        (t.updComp h fun c => { c with composing := false, cur := [],
                                       bufs := c.bufs ++ [⟨c.frame, c.course, c.course * hh, c.cur, none⟩],
                                       ingotValid := c.ingotValid || (c.ingotWrite && whole && !x.bad),
                                       ingotWrite := c.ingotWrite && !whole }).nextCourse h |>.settleBufs h
      else t
  else s

/-! ### COURSE_SEAL (R16, R17, R19, R105, R131, R132) -/

/-- Pixels packed, the first in the lowest bytes. -/
def packRow (bytes : Nat) : List Nat → Nat
  | [] => 0
  | p :: t => p + 256 ^ bytes * packRow bytes t

/-- n bytes written to head h's frame store from offset o, in beats, the offset wrapping within the store (R162). -/
def Chip.writeBeats (s : Chip) (h o v n : Nat) : Chip :=
  (List.range ((n + 15) / 16)).foldl (fun t i =>
    let k := min 16 (n - 16 * i)
    let a := h * 0x1000000 + (o + 16 * i) % 0x1000000
    if t.storeUp a then t.memWrite (.own (0x38 + h)) a k (v / 256 ^ (16 * i) % 256 ^ k) false
    else t.logOff (.own (0x38 + h)) a) s

/-- The rows of a course written back from line y at frame-store offset base. -/
def Chip.writeRows (s : Chip) (h base y : Nat) : List (List Nat) → Chip
  | [] => s
  | row :: t => (s.writeBeats h (base + y * s.pitch h) (packRow (s.fsBytes h) row) (row.length * s.fsBytes h)).writeRows h base (y + 1) t

/-- The tee writes of one row of n bytes from a beat boundary: whole beats, then 8, 4 and 2 bytes as remain (R27, R131).
A local address that reaches 2^30 goes on at 0 of the same chip (DESIGN CHOICE, notes/assumptions/67.md). -/
def teeRow (h f chip a v n : Nat) : List Access :=
  let acc (o k : Nat) : Access := ⟨.own (0x38 + h), .tee h f, true, chip * 2 ^ 30 + (a + o) % 2 ^ 30, k, v / 256 ^ o % 256 ^ k, false⟩
  let o := n / 16 * 16
  let o4 := o + (if 8 ≤ n % 16 then 8 else 0)
  let o2 := o4 + (if 4 ≤ n % 8 then 4 else 0)
  (List.range (n / 16)).map (fun i => acc (16 * i) 16)
    ++ (if 8 ≤ n % 16 then [acc o 8] else []) ++ (if 4 ≤ n % 8 then [acc o4 4] else []) ++ (if 2 ≤ n % 4 then [acc o2 2] else [])

/-- Whether an access is a tee write of head h. -/
def Access.teeOf (a : Access) (h : Nat) : Bool :=
  match a.owner with
  | .tee k _ => k == h
  | _ => false

/-- The tee copy of a sealed course (R131, R132). -/
def Chip.teeCourse (s : Chip) (h : Nat) (b : CourseBuf) : Chip :=
  let x := s.frm h b.frame
  let a := x.act
  if x.tee then
    if (s.issueQ ++ s.net.wait).any fun y => y.teeOf h then
      ((s.cpsStat F.cpsStat_TEE_DROP h).bump F.cpsTeedropcnt_COUNT F.cpsTeedropcnt_SAT h).updFrm h b.frame
        fun x => { x with teeWhole := false }
    else
      let bytes := s.fsBytes h
      let buf := if a.teePair && b.frame % 2 == 1 then a.teeAddr2 else a.teeAddr
      let x1 := min a.teeX1 (s.fld F.shHtime_HA h - 1)
      let rows := b.lines.zipIdx.flatMap fun p =>
        let px := (p.1.drop a.teeX0).take (x1 + 1 - a.teeX0)
        teeRow h b.frame a.teeChip (buf + (b.y0 + p.2) * a.teeStride) (packRow bytes px) (px.length * bytes)
      { (s.updComp h fun c => { c with teeOut := NStore.put0 c.teeOut b.frame (NStore.get 0 c.teeOut b.frame + rows.length) })
        with issueQ := s.issueQ ++ rows }
  else s

/-- The page of a composed frame committed as the pending frame address (R105, R155). -/
def Chip.pageCommit (s : Chip) (h base : Nat) : Chip :=
  if s.frozen h then s
  else (s.setFld F.shFaddr_OFFSET h 0 (base / 4096)).setFld F.shStat_FADDR_PEND h 0 1

/-- The course whose write-back is in flight is sealed (R16, R17); the next one may begin its own (R19). -/
def Chip.courseSeal (s : Chip) (h : Nat) : Chip :=
  match (s.comp h).bufs with
  | [] => s
  | b :: rest =>
    let x := s.frm h b.frame
    let s := s.updComp h fun c => { c with bufs := rest }
    let due := if x.mode = 2 then s.dueAt h b.frame 0 else s.dueAt h b.frame b.y0
    let t := s.writeRows h x.base b.y0 b.lines
    let sl := ((due - s.now16) / 65536).toNat
    let t := t.updFrm h b.frame fun x => { x with slack := some (match x.slack with | some d => min d sl | none => sl) }
    let t := (t.composeTaps h b.y0 b.lines b.lines.length true b.frame).teeCourse h b
    let lastC := decide (courseCount (s.va h) (2 ^ x.chLog2) ≤ b.course + 1)
    let t := if lastC && x.mode == 2 then t.pageCommit h x.base else t
    (t.courseDone h b.frame b.course).settleBufs h

/-! ### Flips, fences, assignments (R39, R41, R127 to R130, R38, R108, R109) -/

/-- The source-class registers with their active mirrors. -/
def sourcePairs : List (RegId × RegId) :=
  [(.layFormat, .layFormatAct), (.layMapBase, .layMapBaseAct), (.layPatBase, .layPatBaseAct), (.layBmpSize, .layBmpSizeAct),
   (.layBmpStride, .layBmpStrideAct), (.laySprRange, .laySprRangeAct)]

/-- The pending copy of one source register of layer k made active (R41). -/
def Chip.takeSource (s : Chip) (id : RegId) (k : Nat) : Chip :=
  match sourcePairs.find? fun p => p.1 = id with
  | some p => s.setWord p.2 k 0 (s.word id k)
  | none => s

/-- Every pending source copy of layer k made active (R41, R127). -/
def Chip.takeSources (s : Chip) (k : Nat) : Chip :=
  (sourcePairs.foldl (fun t p => t.setWord p.2 k 0 (t.word p.1 k)) s).dropIngotsOf k

/-- Whether layer k's sources are written through: its active assignment is unbound or names a stopped head (R41). -/
def Chip.layIdle (s : Chip) (k : Nat) : Bool :=
  !s.on F.layAssignAct_BOUND k || !s.on F.shStat_RUNNING (s.fld F.layAssignAct_HEAD k)

/-- A flip of layer k taken. -/
def Chip.takeFlip (s : Chip) (k : Nat) : Chip := (s.takeSources k).setFld F.cpsFlip_ARM k 0 0

/-- A write to CPS_FLIPk (R127). -/
def Chip.writeFlip (s : Chip) (k v : Nat) : Chip :=
  let t := (s.setFld F.cpsFlip_NOFENCE k 0 (v / 2 ^ 30)).setFld F.cpsFlip_FENCE k 0 v
  t.setOn F.cpsFlip_ARM k 0 (bit v 31 && !s.layIdle k)

/-- A write to CPS_FSIG signals a fence (R128). -/
def Chip.fenceSignal (s : Chip) (f : Nat) : Chip :=
  if s.on F.cpsFence_SIG f then s.setFld F.cpsFence_OVR f 0 1 else s.setFld F.cpsFence_SIG f 0 1

/-- Fence f evaluated at the latch instant of head h with its armed flips (R129 steps 2 to 5). -/
def Chip.evalFence (s : Chip) (h : Nat) (bound : List Nat) (armed : List Nat) (f : Nat) : Chip :=
  let mine := armed.filter fun k => s.fld F.cpsFlip_FENCE k == f
  let here := mine.filter bound.contains
  let away := mine.filter fun k => !bound.contains k
  let t := if s.on F.cpsFence_SIG f then here.foldl Chip.takeFlip (s.setFld F.cpsFence_SIG f 0 0)
    else
      let t := here.foldl (fun t k => t.layStat F.layStat_FENCE_MISS k h) s
      (t.cpsStat F.cpsStat_FENCE_MISS h).bump F.cpsFmisscnt_COUNT F.cpsFmisscnt_SAT h
  away.foldl (fun t k => t.layStat F.layStat_FENCE_MISS k h) t

/-- The flips at the latch instant of head h (R129). -/
def Chip.latchFlips (s : Chip) (h : Nat) : Chip :=
  let bound := s.boundTo h
  let armed := s.selecting F.cpsFlip_ARM 1
  let free := armed.filter fun k => s.on F.cpsFlip_NOFENCE k
  let gated := armed.filter fun k => !s.on F.cpsFlip_NOFENCE k
  let t := (free.filter bound.contains).foldl Chip.takeFlip s
  let fences := ((gated.map fun k => s.fld F.cpsFlip_FENCE k).eraseDups).filter fun f => s.fld F.cpsFence_HEAD f == h
  fences.foldl (fun t f => t.evalFence h bound gated f) t

/-- The pending assignment of layer k made active. -/
def Chip.takeAssign (s : Chip) (k : Nat) : Chip := s.setWord .layAssignAct k 0 (s.word .layAssign k)

/-- Layer k at the latch line of head h: it leaves the head, or joins it (R39, R42). A layer that moves between two scanning
heads is taken here, and the other head's next composed frame is the first that holds it (R21). -/
def Chip.latchAssign (s : Chip) (h k : Nat) : Chip :=
  if s.word .layAssign k = s.word .layAssignAct k then s
  else if s.on F.layAssignAct_BOUND k && s.fld F.layAssignAct_HEAD k == h then s.takeAssign k
  else if s.on F.layAssign_BOUND k && s.fld F.layAssign_HEAD k == h && s.layIdle k then s.takeAssign k
  else s

/-- A write to LAYk_ASSIGN outside any latch line: taken at once where neither head is scanning (R39). -/
def Chip.assignNow (s : Chip) (k : Nat) : Chip :=
  if s.layIdle k && (!s.on F.layAssign_BOUND k || !s.on F.shStat_RUNNING (s.fld F.layAssign_HEAD k)) then s.takeAssign k else s

/-- Two bound layers of head h that name one slot: the higher-numbered sets SLOT_CLASH (R38). -/
def Chip.latchClashes (s : Chip) (h : Nat) : Chip :=
  let ks := s.boundTo h
  let winners := (s.slotsOf h).map (·.2)
  ks.foldl (fun t k => if winners.contains k then t else t.layStat F.layStat_SLOT_CLASH k h) s

/-- Five or more active lanes on head h set LANE_CLASH (R108). -/
def Chip.laneClash (s : Chip) (h : Nat) : Chip :=
  if 4 < (s.lanesNaming h).length then s.cpsStat F.cpsStat_LANE_CLASH h else s

/-- The pending assignment of lane j made active; the head it then names may find a fifth lane (R108). -/
def Chip.takeLane (s : Chip) (j : Nat) : Chip :=
  let t := s.setWord .cpsLaneAct j 0 (s.word .cpsLane j)
  if t.on F.cpsLaneAct_EN j then t.laneClash (t.fld F.cpsLaneAct_HEAD j) else t

/-- Lane j at the latch line of head h (R109). A lane that moves between two scanning heads shows its new assignment in
CPS_LANEj_ACT from here on, and serves the other head from the composed frame that head takes next (DEDUCED,
notes/assumptions/68.md). -/
def Chip.latchLane (s : Chip) (h j : Nat) : Chip :=
  if s.word .cpsLane j = s.word .cpsLaneAct j then s
  else
    let ah := s.fld F.cpsLaneAct_HEAD j
    let leaves := s.on F.cpsLaneAct_EN j && ah == h
    let free := !s.on F.cpsLaneAct_EN j || !s.on F.shStat_RUNNING ah
    if leaves || free && s.on F.cpsLane_EN j && s.fld F.cpsLane_HEAD j == h then s.takeLane j else s

/-- A write to CPS_LANEj: at once where neither head is scanning (R109). -/
def Chip.laneNow (s : Chip) (j : Nat) : Chip :=
  let scans (n : Nat) := s.on F.shStat_RUNNING n
  let leaving := s.on F.cpsLaneAct_EN j && scans (s.fld F.cpsLaneAct_HEAD j)
  let joining := s.on F.cpsLane_EN j && scans (s.fld F.cpsLane_HEAD j)
  if leaving || joining then s else s.takeLane j

/-- The pending copies of head h's latch-class compositor registers. -/
def Chip.cpsPending (s : Chip) (h : Nat) : CpsAct :=
  ⟨s.fld F.cpsPageA_OFFSET h, s.fld F.cpsPageB_OFFSET h, s.fld F.cpsIngot_SIZE h, s.fld F.cpsIngot_BASE h,
   s.fld F.cpsTeeAddr_ADDR h * 16, s.fld F.cpsTeeAddr2_ADDR h * 16, s.fld F.cpsTeeStride_STRIDE h * 16,
   s.fld F.cpsTeeX_X0 h, s.fld F.cpsTeeX_X1 h, s.on F.cpsTeeCfg_FSIG_EN h, s.on F.cpsTeeCfg_PAIR h,
   s.fld F.cpsTeeCfg_FENCE h, s.fld F.cpsTeeCfg_CHIP h⟩

/-- One register's share of the pending copies. -/
def CpsAct.takeReg (a p : CpsAct) : RegId → CpsAct
  | .cpsPageA => { a with pageA := p.pageA }
  | .cpsPageB => { a with pageB := p.pageB }
  | .cpsIngot => { a with ingotSize := p.ingotSize, ingotBase := p.ingotBase }
  | .cpsTeeAddr => { a with teeAddr := p.teeAddr }
  | .cpsTeeAddr2 => { a with teeAddr2 := p.teeAddr2 }
  | .cpsTeeStride => { a with teeStride := p.teeStride }
  | .cpsTeeX => { a with teeX0 := p.teeX0, teeX1 := p.teeX1 }
  | .cpsTeeCfg => { a with teeFsig := p.teeFsig, teePair := p.teePair, teeFence := p.teeFence, teeChip := p.teeChip }
  | _ => a

/-- One latch-class compositor register of a stopped head made active as it is written (R107). -/
def Chip.takeCpsReg (s : Chip) (id : RegId) (h : Nat) : Chip :=
  if id = .cpsCtrl then s.setWord .cpsCtrlAct h 0 (s.word .cpsCtrl h)
  else s.updComp h fun c => { c with act := c.act.takeReg (s.cpsPending h) id }

/-- The latch-class compositor registers of head h made active (R107); a change of CPSn_INGOT drops the ingot (R125). -/
def Chip.takeCps (s : Chip) (h : Nat) : Chip :=
  let a := s.cpsPending h
  let old := (s.comp h).act
  let t := s.setWord .cpsCtrlAct h 0 (s.word .cpsCtrl h)
  let t := t.updComp h fun c => { c with act := a }
  if old.ingotSize = a.ingotSize ∧ old.ingotBase = a.ingotBase then t else t.dropIngot h

/-- The oldest whole teed frame whose tee writes all have their responses: its destination fence is due (R133). -/
def Chip.teeReady (s : Chip) (h : Nat) : Option TeeFin :=
  (s.comp h).teeFin.find? fun x => NStore.get 0 (s.comp h).teeOut x.frame == 0

end Sys2Proof.Machine
end

