-- ==== Sys2Proof/Machine/Latch.lean ====
section
/-! DEFINITION. The latch line: everything a head takes at its start (R21), the starting instant (R170) and the stopping
one (R172). -/

namespace Sys2Proof.Machine

/-- The latch line adjusted towards the lock source's target, and what the head reports of it (R166): the number of dots by
which the line is longer, and the state. A head that holds acquires its reference again once that is stable (R167). -/
def Chip.latchAdjust (s : Chip) (h t16 : Nat) : Int × Chip :=
  let s := if (s.head h).hold && s.on F.glStat_STABLE then s.updHead h fun x => { x with hold := false } else s
  if s.fld F.shLock_SYNCSRC h = 0 || (s.head h).hold then (0, s)
  else if s.followable h then
    let err := s.phase16 h t16
    let dot : Int := (max 1 (s.dot16 h) : Nat)
    let n := min (s.fld F.shLock_MAXADJ h) (err.natAbs / dot.toNat)
    let adj : Int := if dot < (err.natAbs : Int) then
        (if 0 < err then - (min n (s.fld F.shHtime_HT h / 2) : Nat) else (n : Int)) else 0
    let lim := if s.fld F.shLock_SYNCSRC h = 2 then 65536 / 4 else 2 * 65536
    let t := s.setFld F.shPherr_ERR h 0 (tc 32 (clampI (-2 ^ 31) (2 ^ 31 - 1) (err / 4096)))
    (adj, t.setOn F.shStat_LOCKED h 0 (decide (err.natAbs ≤ lim)))
  else (0, s.setFld F.shStat_LOCKED h 0 0)

/-- The stamps at a latch instant: the present one becomes the previous, and the pad time of pixel (0, 0) of the frame that
begins is kept (R198); its lines are still to be read. -/
def Chip.latchStamp (s : Chip) (h t16 : Nat) (adj : Int) : Chip :=
  let len := (s.dots16 h (s.fld F.shHtime_HT h + adj)).toNat
  s.updHead h fun x =>
    { x with latchAt := t16, prev := x.cur, cur := some ⟨t16 + len + s.padDelay16 h, s.fld F.shFrame_FRAME h⟩, nextLine := 0 }

/-- Whether a latch instant of a running head may lie at t16: where the frame ends that began at the last one, within a tick;
and within a dot more where the PLL steers towards the lock source (R160, R165, R166; DESIGN CHOICE,
notes/assumptions/72.md). -/
def Chip.latchDue (s : Chip) (h t16 : Nat) : Bool :=
  let due := s.lineAt h (s.fld F.shFrame_FRAME h) ((s.fld F.shVtime_VT h : Int) - 1)
  let tol := if s.fld F.shLock_SYNCSRC h ≠ 0 && s.followable h then 65536 + s.dot16 h else 65536
  (s.head h).cur.isNone || decide (((t16 : Int) - due).natAbs ≤ tol)

/-- Composed frame f of page mode, not sealed by its latch line, abandoned (R105, R134, R142). PROGRESS.FRAME does not count
it as finished, and the writes it has left in the line write queue are not performed (DEDUCED, notes/assumptions/69.md). -/
def Chip.pageAbandonFrm (s : Chip) (h f : Nat) : Chip :=
  let t := (s.underrun h).skipAll h f
  let t := (t.setFld F.cpsProgress_RUN h 0 0).setFld F.cpsMinslack_SLACK h 0 0
  (t.updLpe h fun e => { e with queue := e.queue.filter fun x => x.frame != f }).raise (13 * h + 11)

/-- The composed frames of page mode given up, with what has been composed of them; the engine waits for the next one. -/
def Chip.dropPages (s : Chip) (h : Nat) : Chip :=
  let page (f : Nat) : Bool := (s.frm h f).mode == 2
  let t := if page (s.comp h).frame then
      (s.lpeRest h).updComp h fun c => { c with composing := false, cur := [], ingotWrite := false }
    else s
  t.updComp h fun c => { c with frms := c.frms.filter fun x => x.mode != 2, bufs := c.bufs.filter fun b => !page b.frame }

/-- The compositor of a head with no composed frame. -/
def Chip.dropFrms (s : Chip) (h : Nat) : Chip :=
  s.updComp h fun c => { c with frms := [], composing := false, cur := [], bufs := [], ingotWrite := false }

/-- A page-mode frame not sealed by its latch line abandoned; a frozen head only gives it up (R105, R155). -/
def Chip.pageAbandon (s : Chip) (h : Nat) : Chip :=
  let open_ := (s.comp h).frms.filter fun x => x.mode == 2
  let t := if s.frozen h || (s.comp h).frozenHold then s else open_.foldl (fun t x => t.pageAbandonFrm h x.frame) s
  t.dropPages h

/-- The pending frame address taken (R174): in chasing mode it stays pending (R104). -/
def Chip.latchFaddr (s : Chip) (h : Nat) : Chip :=
  if s.on F.shStat_FADDR_PEND h && s.fld F.cpsCtrlAct_MODE h != 1 then
    ((s.setFld F.shFaddrAct_OFFSET h 0 (s.fld F.shFaddr_OFFSET h)).setFld F.shStat_FADDR_PEND h 0 0).raise (13 * h + 1)
  else s

/-- What the compositor composes next: with the mode taken at this latch instant, for frame N of the head, composed frame
N + 1 is taken with all it is composed from (R21, R102, R105, R155, R156, R171). Courses of a chasing frame N that are still
open when page mode is taken are finished first (R17, R21; DEDUCED, notes/assumptions/70.md). -/
def Chip.latchComp (s : Chip) (h : Nat) : Chip :=
  let c := s.comp h
  let mode := s.fld F.cpsCtrlAct_MODE h
  let f := (s.fld F.shFrame_FRAME h + 1) % 2 ^ 32
  if s.frozen h then s
  else
    let thaw := c.frozenHold
    let s := if thaw then (s.dropFrms h).updComp h fun c => { c with frozenHold := false } else s
    if mode = 0 then s
    else
      let x := s.newFrm h f
      let t := s.updComp h fun c =>
        if c.frms.isEmpty then { c with frms := [x], frame := f, course := 0 } else { c with frms := c.frms ++ [x] }
      if thaw then (t.setFld F.cpsProgress_RUN h 0 0).lpeStart h f else t

/-- Everything R21 takes at the start of the latch line, for the frame whose number SHn_FRAME now holds; the instant is
t16 (1/65,536 tk). -/
def Chip.latchTake (s : Chip) (h t16 : Nat) : Chip :=
  let oldMode := s.fld F.cpsCtrlAct_MODE h
  let t := if s.frozen h then s else s.latchFlips h
  let a := t.latchAdjust h t16
  let t := a.2.latchStamp h t16 a.1
  let t := t.takeCps h
  let t := if oldMode = 2 then t.pageAbandon h else t
  let t := t.latchFaddr h
  let t := (List.range 256).foldl (fun t k => t.latchAssign h k) t
  let t := (List.range 16).foldl (fun t j => t.latchLane h j) t
  let t := t.setFld F.lpeBaseAct_ADDR h 0 (s.fld F.lpeBase_ADDR h * 4)
  let t := (t.latchClashes h).laneClash h
  let t := t.latchRegions h (t.fld F.shFrame_FRAME h)
  (t.latchComp h).raise (13 * h)

/-- The compositor and the engine of a head that no longer scans (R172, R192): it holds no lock, and the changes of layers and
lanes that waited for its latch line and concern no other scanning head are taken at once (R39, R109). The writes that wait
in its line write queue are not performed (DEDUCED, notes/assumptions/69.md). -/
def Chip.stopComp (s : Chip) (h : Nat) : Chip :=
  let t := ((s.dropFrms h).lpeRest h).updLpe h fun e => { e with queue := [] }
  let t := (t.setFld F.cpsProgress_RUN h 0 0).setFld F.shStat_LOCKED h 0 0
  let t := t.updHead h fun x => { x with psrArm := false, lineOut := [], back := [] }
  let t := (List.range 256).foldl (fun t k => if t.word .layAssign k = t.word .layAssignAct k then t else t.assignNow k) t
  (List.range 16).foldl (fun t j => if t.word .cpsLane j = t.word .cpsLaneAct j then t else t.laneNow j) t

/-- The frame count set for a new frame; its wrap is reported (R151, R173). -/
def Chip.setFrame (s : Chip) (h f : Nat) : Chip :=
  let t := s.setFld F.shFrame_FRAME h 0 f
  if f = 2 ^ 32 then t.hmkStat F.hmkHstat_FWRAP h 0 else t

/-- A latch instant of a running head, `frac` sixty-five-thousandths of a tick after the present count: it stops (R172),
enters self-refresh (R192), or goes on to the next frame and takes what R21 names. -/
def Chip.latch (s : Chip) (h frac : Nat) : Chip :=
  if s.on F.shStat_RUNNING h && s.latchDue h (s.now16 + frac) then
    if !s.on F.shCtrl_RUN h then
      (s.setFld F.shStat_RUNNING h 0 0).stopComp h
    else if (s.head h).psrArm then
      ((s.setFld F.shStat_RUNNING h 0 0).setFld F.shDpstat_PSR_ACT h 0 1).stopComp h
    else
      (s.setFrame h (s.fld F.shFrame_FRAME h + 1)).latchTake h (s.now16 + frac)
  else s

/-- The starting instant of a waiting start (R170, R193): RUNNING becomes 1, the frame count starts at 0, or goes on after
self-refresh, and R21 applies. Settings that have left Table 6.2 since the write refuse the start (R161). -/
def Chip.headStart (s : Chip) (h frac : Nat) : Chip :=
  let x := s.head h
  match if x.waiting then s.startAt h frac else none with
  | none => s
  | some t16 =>
    let s := s.updHead h fun y =>
      { y with waiting := false, resume := false, hold := false, psrArm := false, heldDot := 0, cur := none, prev := none }
    if s.timingOk h then
      let t := (s.setFld F.shStat_RUNNING h 0 1).setFld F.shDpstat_PSR_ACT h 0 0
      ((t.setFrame h (if x.resume then s.fld F.shFrame_FRAME h + 1 else 0)).dropFrms h).latchTake h t16
    else s.headStat F.shStat_CFG_ERR h

/-! ### LINE_READ (R14, R76, R140, R154, R178, R552) -/

/-- The pixels of beats `bad` to `good` as a head sends them: a poisoned beat is black. -/
def sendPixel (bytes : Nat) (poisoned : List Nat) (x v : Nat) : Nat :=
  if poisoned.contains (x * bytes / 16) then 0 else v

/-- A line of the image as the frame store holds it: one packed value, read beat by beat with the errors met (R15, R552). -/
def Chip.readBeats (s : Chip) (h o : Nat) : Nat → Nat → Nat × List Nat × Chip
  | 0, _ => (0, [], s)
  | n + 1, i =>
    let a := h * 0x1000000 + (o + 16 * i) % 0x1000000
    let m := Master.own (0x38 + h)
    let r := if s.storeUp a then s.memRead a 16 else (0, false, s.logOff m a)
    let t := if r.2.1 then
        ((r.2.2.logErr 1 m (s.storeOf a) (s.localAddr a)).logErr 2 m (s.storeOf a) (s.localAddr a)).headStat F.shStat_POISON h
      else r.2.2
    let rest := Chip.readBeats t h o n (i + 1)
    (r.1 + 2 ^ 128 * rest.1, (if r.2.1 then [i] else []) ++ rest.2.1, rest.2.2)

/-- Whether line y may be read now: within the window from the start of beam line y - 1 to the start of beam line y, each
line once and in order (R14, R15). -/
def Chip.readable (s : Chip) (h y : Nat) : Bool :=
  let f := s.fld F.shFrame_FRAME h
  s.on F.shStat_RUNNING h && decide (y < s.va h ∧ (s.head h).nextLine ≤ y)
  && decide (s.dueAt h f y < s.now16 + 65536 ∧ s.now16 ≤ s.beam16 h 0 y)

/-- The head reads line y (R14), all its beats at one instant (DESIGN CHOICE, notes/assumptions/9.md): poisoned beats are
black (R552), and the dots from `given` on, where the line buffer runs empty (R178); the scan taps sign what passes (R140). -/
def Chip.lineRead (s : Chip) (h y given : Nat) : Chip :=
  if s.readable h y then
    let bytes := s.fsBytes h
    let ha := s.fld F.shHtime_HA h
    let r := s.readBeats h (s.fld F.shFaddrAct_OFFSET h * 4096 + y * s.pitch h) (s.pitch h / 16) 0
    let px := (List.range ha).map fun x =>
      if given ≤ x then 0 else sendPixel bytes r.2.1 x (r.1 / 256 ^ (x * bytes) % 256 ^ bytes)
    let t := if given < ha then (r.2.2.headStat F.shStat_STARVE h).bump F.shStarvecnt_COUNT F.shStarvecnt_SAT h else r.2.2
    let t := (List.range 64).foldl (fun t k => t.scanRow h y px k) t
    let room := s.fld F.shHtime_HT h - ha
    let t := t.updHead h fun x =>
      { x with nextLine := y + 1, lineNo := y, lineOut := px, back := ((x.lineNo, x.lineOut) :: x.back).take 2 }
    if s.on F.shDpcfg_AUD_EN h && decide (room * s.rep h < 64) then t.headStat F.shDpstat_AUD_NOROOM h else t
  else s

end Sys2Proof.Machine
end

