-- ==== Sys2Proof/Machine/Video.lean ====
section
/-! DEFINITION. What leaves a scan head for the pads (spec/06_scan_heads.md, R160, R172, R183 to R197): the beam at the pad,
sync and blanking, the encoders, and the three kinds of output. -/

namespace Sys2Proof.Machine

/-! ### The beam at the pad (R160, R184) -/

/-- The dot and line that leave the pads of head h at the present instant; none while its outputs are idle (R172). Before the
first stamp it is the latch line. -/
def Chip.padBeam (s : Chip) (h : Nat) : Option (Nat × Nat) :=
  if s.on F.shStat_RUNNING h then
    match s.beamAt h s.ticks with
    | some p => some (p.x, p.y)
    | none =>
      let d : Int := s.now16 - ((s.head h).latchAt + s.padDelay16 h : Nat)
      if d < 0 then none else some (d.toNat * 256 / max 1 (s.dot24 h), s.fld F.shVtime_VT h - 1)
  else none

/-- Whether dot x lies in the horizontal sync of its line: after the active dots and the front porch (R160). -/
def Chip.hsAt (s : Chip) (h x : Nat) : Bool :=
  let b := s.fld F.shHtime_HA h + s.fld F.shHsync_HFP h
  decide (b ≤ x ∧ x < b + s.fld F.shHsync_HSW h)

/-- Whether line y lies in the vertical sync of the frame (R160). -/
def Chip.vsAt (s : Chip) (h y : Nat) : Bool :=
  let b := s.fld F.shVtime_VA h + s.fld F.shVsync_VFP h
  decide (b ≤ y ∧ y < b + s.fld F.shVsync_VSW h)

/-- Whether dot x of line y is active: data enable. -/
def Chip.deAt (s : Chip) (h x y : Nat) : Bool := decide (x < s.fld F.shHtime_HA h ∧ y < s.fld F.shVtime_VA h)

/-- Whether composite sync is active: combined, or serrated in the vertical sync lines (R195). -/
def Chip.csAt (s : Chip) (h x y : Nat) : Bool :=
  if s.on F.shAna_SERR h then s.hsAt h x != s.vsAt h y else s.hsAt h x || s.vsAt h y

/-- The level of the horizontal sync output, which carries composite sync where CSYNC is 1; inactive while idle (R172,
R195). -/
def Chip.hsyncLevel (s : Chip) (h : Nat) : Bool :=
  let act := match s.padBeam h with
    | some (x, y) => if s.on F.shAna_CSYNC h then s.csAt h x y else s.hsAt h x
    | none => false
  act == s.on F.shHsync_HPOL h

/-- The level of the vertical sync output. -/
def Chip.vsyncLevel (s : Chip) (h : Nat) : Bool :=
  (match s.padBeam h with | some (_, y) => s.vsAt h y | none => false) == s.on F.shVsync_VPOL h

/-! ### The encoder (R154, R183) -/

/-- The pixel (x, y) that leaves the scan tap: as read, black where the line buffer had none (R178), the blanking colour
where a region is blanked (R154). -/
def Chip.outPixel (s : Chip) (h x y : Nat) : Nat :=
  let z := s.head h
  let row := match ((z.lineNo, z.lineOut) :: z.back).find? fun p => p.1 == y with | some p => p.2 | none => []
  if (s.regions.filter fun p => p.2.blankFrom.isSome).any (s.blanks h (s.fld F.shFrame_FRAME h) x y) then s.blankPixel h
  else row.getD x 0

/-- A component of n bits widened to 10 by bit replication (R51, R183). -/
def widen10 (n c : Nat) : Nat := (c * 2 ^ (10 - n) + c / 2 ^ (2 * n - 10)) % 1024

/-- The three 10-bit components of a pixel in the frame-store format (R183). -/
def Chip.rgb10 (s : Chip) (h p : Nat) : Nat × Nat × Nat :=
  if s.fsBytes h = 4 then (bits p 29 20, bits p 19 10, bits p 9 0)
  else (widen10 5 (bits p 15 11), widen10 6 (bits p 10 5), widen10 5 (bits p 4 0))

/-- The output width w in bits (R183). -/
def Chip.outWidth (s : Chip) (h : Nat) : Nat :=
  let out := s.fld F.shOut_OUTSEL h
  if out ≤ 1 then 6 + 2 * s.fld F.shDpcfg_BPC h else if out = 2 then 10 else s.fld F.shPar_WIDTH h

/-- A 10-bit component of which the top w bits are kept in place. -/
def topBits (w c : Nat) : Nat := c / 2 ^ (10 - w) * 2 ^ (10 - w)

/-- The pixel that an output sends at (x, y): red, green and blue, each in the top bits of 10 (R183). -/
def Chip.encoded (s : Chip) (h x y : Nat) : Nat × Nat × Nat :=
  let c := s.rgb10 h (s.outPixel h x y)
  let w := s.outWidth h
  (topBits w c.1, topBits w c.2.1, topBits w c.2.2)

/-! ### The outputs -/

/-- Whether the DisplayPort or eDP link of head h carries its stream: only once TRAINED is 1 (R187), and with both serdes
rails (R531). -/
def Chip.dpCarries (s : Chip) (h : Nat) : Bool :=
  decide (s.fld F.shOut_OUTSEL h ≤ 1) && s.on F.shDpstat_TRAINED h && s.on F.sysSupply_VSER09_OK && s.on F.sysSupply_VSER12_OK

/-- What the transmitter sends at the present instant: a pixel, or none for blanking, the idle pattern, or nothing at all
(R172, R187). -/
def Chip.dpOut (s : Chip) (h : Nat) : Option (Nat × Nat × Nat) :=
  match s.padBeam h with
  | some (x, y) => if s.dpCarries h && s.deAt h x y then some (s.encoded h x y) else none
  | none => none

/-- Whether the link carries audio in its horizontal blanking (R187, R190). -/
def Chip.dpAudioOn (s : Chip) (h : Nat) : Bool :=
  s.on F.shStat_RUNNING h && s.dpCarries h && s.on F.shDpcfg_AUD_EN h
  && decide (64 ≤ (s.fld F.shHtime_HT h - s.fld F.shHtime_HA h) * s.rep h)

/-- The DAC's red, green and blue in 1/1023 mV: code 1023 gives the LEVEL swing, blanking 0 V, and green a sync tip of -0.3 V
with LEVEL 1; none where OUTSEL does not select it or the DAC's rail is lost (R172, R194, R531). -/
def Chip.dacOut (s : Chip) (h : Nat) : Option (Int × Int × Int) :=
  if s.fld F.shOut_OUTSEL h = 2 ∧ s.on F.sysSupply_VDAC_OK then
    match s.padBeam h with
    | none => some (0, 0, 0)
    | some (x, y) =>
      let level := s.fld F.shAna_LEVEL h
      let swing : Int := if level = 2 then 1000 else 700
      if s.deAt h x y then
        let c := s.encoded h x y
        some (swing * (c.1 : Int), swing * (c.2.1 : Int), swing * (c.2.2 : Int))
      else some (0, if level = 1 ∧ s.csAt h x y then -300 * 1023 else 0, 0)
  else none

/-- What the TTL sync function does at port p, one of P0016 to P0031 (R196). -/
def Chip.syncDrive (s : Chip) (p : Nat) : Pad :=
  let h := (p - 16) / 2
  if s.on F.shOut_SYNCPINS h then .lvl (if p % 2 = 0 then s.hsyncLevel h else s.vsyncLevel h) else .z

/-- The level of the output pixel clock where it is defined: at the start of a dot data change on the falling edge, or on the
rising edge where CLKINV is 1; the spec states no duty cycle, so it is a waveform elsewhere (R197). -/
def Chip.parClock (s : Chip) (h : Nat) : Pad :=
  match [(s.head h).cur, (s.head h).prev].findSome? fun o => o.bind fun st =>
      if st.time ≤ s.now16 then some st.time else none with
  | some t => if (s.now16 - t) * 256 % max 1 (s.dot24 h) < 2 ^ 24 then .lvl (s.on F.shPar_CLKINV h) else .wave
  | none => .wave

/-- What the parallel RGB function does at port p, one of P0256 to P0767: bus bit b of head n on port b of bank 8 + 2n, the
clock, the syncs and DE on ports 0 to 3 of bank 9 + 2n; idle, all drive 0 (R172, R197). -/
def Chip.parDrive (s : Chip) (p : Nat) : Pad :=
  let h := (p / 32 - 8) / 2
  let b := p % 32
  if s.fld F.shOut_OUTSEL h ≠ 3 then .z
  else if p / 32 % 2 = 0 then
    if 30 ≤ b ∨ b % 10 < 10 - s.fld F.shPar_WIDTH h then .z
    else match s.padBeam h with
      | some (x, y) =>
        let c := s.encoded h x y
        let v := if 20 ≤ b then c.1 else if 10 ≤ b then c.2.1 else c.2.2
        .lvl (s.deAt h x y && bit v (b % 10))
      | none => .lvl false
  else match s.padBeam h, b with
    | none, b => if b ≤ 3 then .lvl false else .z
    | some _, 0 => s.parClock h
    | some _, 1 => .lvl (s.hsyncLevel h)
    | some _, 2 => .lvl (s.vsyncLevel h)
    | some (x, y), 3 => .lvl (s.deAt h x y)
    | some _, _ => .z

end Sys2Proof.Machine
end

