-- ==== Sys2Proof/Machine/Time.lean ====
section
/-! DEFINITION. The time base, the compare, interval and capture channels, and the measurement converter
(spec/12_time_events_measurement.md, R374 to R398, R553). -/

namespace Sys2Proof.Machine

/-! ### The count (R374 to R378) -/

/-- The present count as a number. -/
def Chip.now (s : Chip) : Nat := s.tb.toNat

/-- The count advanced by n ticks; its wrap sets WRAP and raises TB_WRAP (R374, R376, R378). -/
def Chip.advance (s : Chip) (n : Nat) : Chip :=
  let t := { s with tb := s.tb + BitVec.ofNat 64 n, wraps := s.wraps + (s.now + n) / 2 ^ 64 }
  if 2 ^ 64 ≤ s.now + n then t.stick F.tbStat_WRAP 0 271 else t

/-- The reference is lost: the PLL holds (R375). -/
def Chip.refLost (s : Chip) : Chip := (s.setFld F.tbStat_PLL_LOCK 0 0 0).stick F.tbStat_REF_LOST 0 272

/-- The PLL locks to its reference, without a step in the count (R375). -/
def Chip.tbPllLock (s : Chip) : Chip := s.setFld F.tbStat_PLL_LOCK 0 0 1

/-- The latch a reader of TB_LO uses: its identity, or that of the link it comes over (R377). -/
def tbReader : Master → Nat
  | .own id => id
  | .remote link _ _ => 1000 + link

/-- A read of TB_LO (R377). -/
def Chip.readTbLo (s : Chip) (m : Master) : Nat × Chip :=
  (s.now % 2 ^ 32, { s with tbHi := NStore.set s.tbHi (tbReader m) (s.now / 2 ^ 32) })

/-- A read of TB_HI (R377). -/
def Chip.readTbHi (s : Chip) (m : Master) : Nat := NStore.get 0 s.tbHi (tbReader m)

/-! ### Compare channels (R379 to R384) -/

def Chip.cmp (s : Chip) (c : Nat) : CmpSt := NStore.get {} s.cmps c
def Chip.updCmp (s : Chip) (c : Nat) (f : CmpSt → CmpSt) : Chip := { s with cmps := NStore.set s.cmps c (f (s.cmp c)) }

/-- The compare value V. -/
def Chip.cmpV (s : Chip) (c : Nat) : Nat := s.fld64 F.cmpValLo_V F.cmpValHi_V c

/-- The count after the value v: an added tick skips one (R376). -/
def Chip.countAfter (s : Chip) (v : Nat) : Nat :=
  if s.skipped = some ((v + 1) % 2 ^ 64) then (v + 2) % 2 ^ 64 else (v + 1) % 2 ^ 64

/-- ACT applied to an output level. -/
def actOn (act out : Nat) : Nat := if act = 1 then 1 else if act = 2 then 0 else if act = 3 then 1 - out else out

/-- Whether the count has reached or passed v, on the count that wraps. -/
def reached (now v : Nat) : Bool := decide (sub64 now v < 2 ^ 63)

/-- Whether channel c acts on the output of channel c - 1 (R383). -/
def Chip.paired (s : Chip) (c : Nat) : Bool := c % 2 == 1 && s.on F.cmpCtrl_PAIR c

/-- ACT of channel c applied to its output. Where the odd channel of a pair has fired at this tick already, its action stays
the second one (R383). -/
def Chip.cmpAct (s : Chip) (c : Nat) : Chip :=
  let act := s.fld F.cmpCtrl_ACT c
  if s.paired c then s.setFld F.cmpStat_OUT (c - 1) 0 (actOn act (s.fld F.cmpStat_OUT (c - 1)))
  else
    let out := s.fld F.cmpStat_OUT c
    if c % 2 = 0 ∧ s.paired (c + 1) ∧ (s.cmp (c + 1)).firedAt = some s.now then
      let odd := s.fld F.cmpCtrl_ACT (c + 1)
      s.setFld F.cmpStat_OUT c 0 (actOn odd (actOn act (if odd = 3 then 1 - out else out)))
    else s.setFld F.cmpStat_OUT c 0 (actOn act out)

/-- The producer of a compare channel's event (Table 12.9). -/
def cmpProducer (c : Nat) : Nat := if c < 32 then 104 + c else 136 + (c - 32) / 32

/-- The channel fires at the present tick (R382). -/
def Chip.cmpFire (s : Chip) (c : Nat) (late : Bool) : Chip :=
  let t := s.setFld F.cmpStat_FIRED c 0 1
  let t := if late then t.setFld F.cmpStat_LATE c 0 1 else t
  let t := (t.raise (cmpProducer c)).cmpAct c
  let p := s.fld F.cmpPeriod_PERIOD c
  if p = 0 then (t.setFld F.cmpStat_ARMED c 0 0).updCmp c fun x => { x with again := false, firedAt := some s.now }
  else (t.setFld64 F.cmpValLo_V F.cmpValHi_V c 0 ((s.cmpV c + p) % 2 ^ 64)).updCmp c
    fun x => { x with since := s.now, again := true, firedAt := some s.now }

/-- How a channel armed with V is judged at count t0: it fires, fires late, or waits (R381). -/
def Chip.cmpJudge (s : Chip) (c t0 : Nat) : Option Bool :=
  let d := sub64 t0 (s.cmpV c)
  if d = 0 then some false else if d ≤ s.fld F.timLatewin_WIN then some true else none

/-- Whether a waiting channel fires at the present tick, and late or not (R381, R382): one that has just fired is judged
again at the next tick, any other fires when the count has reached V since it was armed; none fires twice in a tick. -/
def Chip.cmpDue (s : Chip) (c : Nat) : Option Bool :=
  let x := s.cmp c
  let t0 := if x.again then s.countAfter x.since else x.since
  if !s.on F.cmpStat_ARMED c || (x.again && s.now == x.since) || x.firedAt == some s.now then none
  else
    let judged := if x.again || s.now == x.since then s.cmpJudge c t0 else none
    match judged with
    | some late => some late
    | none => if sub64 (s.cmpV c) t0 ≤ sub64 s.now t0 then some false else none

/-- A due channel fires (R382). -/
def Chip.cmpFireDue (s : Chip) (c : Nat) : Chip :=
  match s.cmpDue c with
  | some late => s.cmpFire c late
  | none => s

/-- A due channel fires, the channel whose output it shares before it (R383). -/
def Chip.compareFire (s : Chip) (c : Nat) : Chip :=
  (if s.paired c && (s.cmpDue c).isSome then s.cmpFireDue (c - 1) else s).cmpFireDue c

/-- A write to TIM_CMPc_VAL_HI commits V, arms the channel and evaluates it; an armed channel whose old V is due at this
tick fires first, and is then evaluated at the next tick, since it fires once in a tick (R380 to R382, R384; DEDUCED,
notes/assumptions/87.md). -/
def Chip.compareArm (s : Chip) (c v : Nat) : Chip :=
  let s := s.compareFire c
  let t := (s.setFld F.cmpValLo_V c 0 (s.cmp c).stage).setFld F.cmpValHi_V c 0 v
  let fired := (s.cmp c).firedAt == some s.now
  let t := (t.setFld F.cmpStat_ARMED c 0 1).updCmp c fun x => { x with since := s.now, again := fired }
  t.compareFire c

/-- DISARM (R384). -/
def Chip.disarm (s : Chip) (c : Nat) : Chip := (s.setFld F.cmpStat_ARMED c 0 0).updCmp c fun x => { x with again := false }

/-- A write to TIM_CMPc_CTRL; PAIR is reserved on even channels, and an odd channel with PAIR = 1 holds its output at 0
(R383, R384). -/
def Chip.writeCmpCtrl (s : Chip) (c v : Nat) : Chip :=
  let t := s.setFld F.cmpCtrl_ACT c 0 (bits v 9 8)
  let t := if c % 2 = 1 then t.setFld F.cmpCtrl_PAIR c 0 (bits v 4 4) else t
  let t := if t.on F.cmpCtrl_PAIR c then t.setFld F.cmpStat_OUT c 0 0 else t
  if bit v 31 then t.disarm c else t

/-- TIM_FIREDw: the FIRED bits of 32 channels. -/
def Chip.firedWord (s : Chip) (w : Nat) : Nat :=
  (List.range 32).foldl (fun a j => a + s.fld F.cmpStat_FIRED (32 * w + j) * 2 ^ j) 0

/-- A write to TIM_FIREDw clears the FIRED bits it names. -/
def Chip.clearFired (s : Chip) (w v : Nat) : Chip :=
  (List.range 32).foldl (fun t j => if bit v j then t.setFld F.cmpStat_FIRED (32 * w + j) 0 0 else t) s

/-! ### Interval counters (R385 to R388, R553) -/

def Chip.intv (s : Chip) (i : Nat) : IntSt := NStore.get {} s.intvs i
def Chip.updIntv (s : Chip) (i : Nat) (f : IntSt → IntSt) : Chip := { s with intvs := NStore.set s.intvs i (f (s.intv i)) }

/-- START: refused with RELOAD = 0; else the load waits for the next prescaled tick (R386). -/
def Chip.intStart (s : Chip) (i : Nat) : Chip :=
  if s.fld F.intReload_RELOAD i = 0 then s.setFld F.intStat_CFG_ERR i 0 1
  else (s.setFld F.intStat_RUNNING i 0 1).updIntv i fun _ => ⟨true, s.now⟩

/-- CONT: refused with COUNT = 0 (R386). -/
def Chip.intCont (s : Chip) (i : Nat) : Chip :=
  if s.fld F.intCount_COUNT i = 0 then s.setFld F.intStat_CFG_ERR i 0 1
  else if s.on F.intStat_RUNNING i then s
  else (s.setFld F.intStat_RUNNING i 0 1).updIntv i fun _ => ⟨false, s.now⟩

/-- STOP (R386). -/
def Chip.intStop (s : Chip) (i : Nat) : Chip := (s.setFld F.intStat_RUNNING i 0 0).updIntv i fun x => { x with load := false }

/-- LOAD: discarded while the counter runs (R386). -/
def Chip.intLoad (s : Chip) (i : Nat) : Chip :=
  if s.on F.intStat_RUNNING i then s.setFld F.intStat_CFG_ERR i 0 1
  else s.setFld F.intCount_COUNT i 0 (s.fld F.intReload_RELOAD i)

/-- A write to TIM_INTi_CMD takes its bits in the order of R553. -/
def Chip.intCommand (s : Chip) (i v : Nat) : Chip :=
  let t := if bit v 2 then s.intStop i else s
  let t := if bit v 3 then t.intLoad i else t
  if bit v 2 then t else if bit v 0 then t.intStart i else if bit v 1 then t.intCont i else t

/-- The counter stopped at 0 by a load of 0 (R386, R387). -/
def Chip.intZeroLoad (s : Chip) (i : Nat) : Chip :=
  ((s.setFld F.intCount_COUNT i 0 0).setFld F.intStat_RUNNING i 0 0).setFld F.intStat_CFG_ERR i 0 1

/-- A prescaled tick of a running counter: the load of a START, a decrement, or the zero (R385 to R388). It is due once the
count has reached or passed a multiple of 2^PRE since the last one. -/
def Chip.prescaledTick (s : Chip) (i : Nat) : Chip :=
  let x := s.intv i
  let p := 2 ^ s.fld F.intCtrl_PRE i
  let r := s.fld F.intReload_RELOAD i
  let n := s.fld F.intCount_COUNT i
  if s.on F.intStat_RUNNING i && decide (p - x.last % p ≤ sub64 s.now x.last) then
    let t := s.updIntv i fun _ => ⟨false, s.now⟩
    if x.load then (if r = 0 then t.intZeroLoad i else t.setFld F.intCount_COUNT i 0 r)
    else if n ≤ 1 then
      let t := (t.setFld F.intStat_ZERO i 0 1).raise (143 + i)
      if s.on F.intCtrl_MODE i then (if r = 0 then t.intZeroLoad i else t.setFld F.intCount_COUNT i 0 r)
      else (t.setFld F.intCount_COUNT i 0 0).setFld F.intStat_RUNNING i 0 0
    else t.setFld F.intCount_COUNT i 0 (n - 1)
  else s

/-- A write to TIM_INTi_CTRL: with a new PRE the next decrement falls at the first prescaled tick of that PRE, after a tick
of the old one that is still due (R385). -/
def Chip.writeIntCtrl (s : Chip) (i v : Nat) : Chip :=
  let p := 2 ^ s.fld F.intCtrl_PRE i
  let due := decide (p - (s.intv i).last % p ≤ sub64 s.now (s.intv i).last)
  let t := ((s.writeFld F.intCtrl_PRE i 0 v).writeFld F.intCtrl_TASKACT i 0 v).writeFld F.intCtrl_MODE i 0 v
  if due || t.fld F.intCtrl_PRE i == s.fld F.intCtrl_PRE i then t else t.updIntv i fun x => { x with last := s.now }

/-- The start task of a counter (R386). -/
def Chip.intTask (s : Chip) (i : Nat) : Chip := if s.on F.intCtrl_TASKACT i then s.intCont i else s.intStart i

/-! ### Capture channels (R389 to R393) -/

def Chip.cap (s : Chip) (c : Nat) : CapSt := NStore.get {} s.caps c
def Chip.updCap (s : Chip) (c : Nat) (f : CapSt → CapSt) : Chip := { s with caps := NStore.set s.caps c (f (s.cap c)) }

/-- Whether an edge is of the kind EDGE selects: 1 rising, 2 falling, 3 both. -/
def edgeIs (edge : Nat) (rising : Bool) : Bool := if rising then edge % 2 == 1 else decide (2 ≤ edge)

/-- The level that the synchroniser of port p took in a sample. -/
def sampleBit (x : Nat × List Nat) (p : Nat) : Bool := bit (x.2.getD (p / 32) 0) (p % 32)

/-- The edge of port p that lay 2 + f tk before the present tick, its level held for f tk since: the count at its instant,
and whether it rose (R390, R421, R430). -/
def Chip.edgeAt (s : Chip) (p f : Nat) : Option (Nat × Bool) :=
  match s.samples.drop (1 + f) with
  | x :: y :: _ =>
    let v := sampleBit x p
    if sampleBit y p != v && ((s.samples.drop 1).take f).all (fun z => sampleBit z p == v) then some (x.1, v) else none
  | _ => none

/-- A count known to within 1 tk: `off` is 0, 1 or 2 for one tick earlier, none, one later. -/
def nearly (e off : Nat) : Nat := sub64 (e + off) 1

/-- A channel that watches a pin accepts the edge that is due at the present tick, once; the direction is the one the
command names, and the uncertainty of 1 tk is the sender's `off` (R389, R390; DESIGN CHOICE, notes/assumptions/85.md). -/
def Chip.captureAccept (s : Chip) (c : Nat) (rising : Bool) (off : Nat) : Chip :=
  if s.on F.capCtrl_EN c && !s.on F.capCtrl_KIND c && (s.cap c).acceptAt != some s.now then
    match s.edgeAt (s.fld F.capCtrl_PORT c) (s.fld F.capCtrl_FILT c) with
    | some e =>
      if e.2 = rising ∧ edgeIs (s.fld F.capCtrl_EDGE c) e.2 then
        s.updCap c fun x => { x with waiting := x.waiting ++ [(nearly e.1 off, s.now, 0)], acceptAt := some s.now }
      else s
    | none => s
  else s

/-- A task arrival captured by a channel with KIND = 1 (R390). -/
def Chip.captureTask (s : Chip) (c hop : Nat) : Chip :=
  if s.on F.capCtrl_EN c && s.on F.capCtrl_KIND c then
    s.updCap c fun x => { x with waiting := x.waiting ++ [(s.now, s.now, hop + 1)] }
  else s

/-- The oldest accepted capture committed once 16 tk have passed, or 64 tk where BIND = 1 (R391, R393). -/
def Chip.captureCommit (s : Chip) (c : Nat) : Chip :=
  let bind := s.on F.capCtrl_BIND c
  match (s.cap c).waiting with
  | [] => s
  | (v, at_, hop) :: rest =>
    if (if bind then 64 else 16) ≤ sub64 s.now at_ then
      let h := s.fld F.capCtrl_HEAD c
      let ago := sub64 s.now v + s.fld F.capOffs_OFFS c
      let pos := if bind && s.on F.shStat_RUNNING h && decide (ago ≤ s.ticks) then s.beamAt h (s.ticks - ago) else none
      let t := s.updCap c fun z =>
        { z with waiting := rest, value := v, seq := (z.seq + 1) % 256, isNew := true, ovr := z.ovr || z.isNew,
                 oor := bind && pos.isNone, blank := (pos.map (·.blank)).getD false, x := (pos.map (·.x)).getD 0,
                 y := (pos.map (·.y)).getD 0, frame := (pos.map (·.frame)).getD 0 }
      t.raiseHop (207 + c) hop
    else s

/-- A read of CAP_c_LO latches the capture's other fields and clears NEW and OVR; a capture whose commit falls at this
instant is committed first (R392). -/
def Chip.captureRead (s : Chip) (c : Nat) : Nat × Chip :=
  let s := s.captureCommit c
  let x := s.cap c
  let t := (s.setFld F.capHi_T c 0 (x.value / 2 ^ 32)).setFld F.capStatus_SEQ c 0 x.seq
  let t := ((t.setOn F.capStatus_OOR c 0 x.oor).setOn F.capStatus_OVR c 0 x.ovr).setOn F.capStatus_NEW c 0 x.isNew
  let t := ((t.setOn F.capPos_BLANK c 0 x.blank).setFld F.capPos_X c 0 x.x).setFld F.capPos_Y c 0 x.y
  let t := t.setFld F.capPfrm_FRAME c 0 x.frame
  (x.value % 2 ^ 32, t.updCap c fun x => { x with isNew := false, ovr := false })

/-- CAP_NEWw: the live NEW bits. -/
def Chip.capNewWord (s : Chip) (w : Nat) : Nat :=
  (List.range 32).foldl (fun a j => a + b2n (s.cap (32 * w + j)).isNew * 2 ^ j) 0

/-! ### The measurement converter (R394 to R398) -/

/-- The converter settles after EN = 1 (R395). -/
def Chip.adcReady (s : Chip) : Chip := if s.on F.adcCtrl_EN then s.setFld F.adcStat_READY 0 0 1 else s

/-- A sequence begun at the present tick by a START or a trigger, or lost while one runs or the converter is not ready
(R395, R396). -/
def Chip.adcStart (s : Chip) (hop : Option Nat) : Chip :=
  if s.on F.adcStat_BUSY || !s.on F.adcStat_READY then s.setFld F.adcStat_TRIG_LOST 0 0 1
  else
    { (s.setFld F.adcStat_BUSY 0 0 1) with adc := { s.adc with start := s.now, step := 0, hop := hop, stop := false, ana := none } }

/-- STOP ends continuous mode at the end of the sequence in progress (R396). -/
def Chip.adcStop (s : Chip) : Chip := { s with adc := { s.adc with stop := true } }

/-- A write to ADC_CTRL; a converter switched off is no longer ready, and its sequence ends
(DESIGN CHOICE, notes/assumptions/10.md). -/
def Chip.writeAdcCtrl (s : Chip) (v : Nat) : Chip :=
  let t := ((s.setFld F.adcCtrl_EN 0 0 (v / 2 ^ 31)).writeFld F.adcCtrl_TRIG 0 0 v).setFld F.adcCtrl_LENM1 0 0 v
  if bit v 31 then t else (t.setFld F.adcStat_READY 0 0 0).setFld F.adcStat_BUSY 0 0 0

/-- The channel of step j. -/
def Chip.adcChan (s : Chip) (j : Nat) : Nat := s.fld F.adcSeq_CH (j / 8) / 16 ^ (j % 8) % 16

/-- A converter event: with the hop count of the trigger plus 1 where a task input started the sequence (R405). -/
def Chip.adcRaise (s : Chip) (p : Nat) : Chip := s.raiseHop p (match s.adc.hop with | some h => h + 1 | none => 0)

/-- A result word put into the FIFO, or discarded where it is full (R397, R398). -/
def Chip.adcPush (s : Chip) (chan code : Nat) : Chip :=
  let n := s.adc.fifo.length
  if n < 32 then
    let w := 2 ^ 31 + s.adc.seq % 256 * 2 ^ 16 + chan * 2 ^ 12 + code
    let t := { s with adc := { s.adc with fifo := s.adc.fifo ++ [w] } }
    let t := if n + 1 = s.fld F.adcFifomark_MARK then t.adcRaise 274 else t
    if bit (s.fld F.adcWinen_EN) chan && decide (code < s.fld F.adcWin_LO ∨ s.fld F.adcWin_HI < code) then
      (t.setFld F.adcStat_LIMIT 0 0 1).adcRaise 275 else t
  else (s.setFld F.adcStat_OVR 0 0 1).bump F.adcOvrcnt_COUNT F.adcOvrcnt_SAT

/-- The code of an input of so many microvolts: floor(V * 4096 / 2.500 V), held within 0 to 4095 (R394, R547). -/
def adcCode (uv : Int) : Nat := min 4095 (uv * 4096 / 2500000).toNat

/-- Where the present instant lies in the present step: before its sampling, in it, or after (R395). -/
def Chip.adcPhase (s : Chip) : Nat :=
  let d := sub64 s.now s.adc.start
  if d < 8 + 500 * s.adc.step then 0 else if d ≤ 108 + 500 * s.adc.step then 1 else 2

/-- What a write that changes FUNC of port p from `old` does to the step being converted: the port counts as analogue only
if it was throughout the sampling (R394, R395; DEDUCED, notes/assumptions/86.md). -/
def Chip.adcNoteFunc (s : Chip) (p old : Nat) : Chip :=
  if s.on F.adcStat_BUSY ∧ s.adcChan s.adc.step = p ∧ s.adcPhase ≠ 0 then
    { s with adc := { s.adc with ana := some (if s.adcPhase = 1 then false else s.adc.ana.getD (old == 11)) } }
  else s

/-- The result of the present step enters the FIFO at its instant: `uv` is the input in microvolts; code 0 with NOTANA where
the port did not select its analogue alternate. The last step ends the sequence, and in continuous mode begins the next
one (R394 to R398). -/
def Chip.adcResult (s : Chip) (uv : Int) : Chip :=
  let x := s.adc
  if s.on F.adcStat_BUSY && decide (508 + 500 * x.step ≤ sub64 s.now x.start) then
    let ch := s.adcChan x.step
    let t := if x.ana.getD (s.fld F.pinCfg_FUNC ch == 11) then s.adcPush ch (adcCode uv)
      else (s.setFld F.adcStat_NOTANA 0 0 1).adcPush ch 0
    let t := { t with adc := { t.adc with ana := none } }
    if s.fld F.adcCtrl_LENM1 ≤ x.step then
      let t := t.adcRaise 273
      let t := { t with adc := { t.adc with seq := t.adc.seq + 1, step := 0 } }
      if s.fld F.adcCtrl_TRIG = 2 ∧ !x.stop then
        { t with adc := { t.adc with start := (x.start + 508 + 500 * x.step) % 2 ^ 64, hop := none } }
      else t.setFld F.adcStat_BUSY 0 0 0
    else { t with adc := { t.adc with step := x.step + 1 } }
  else s

/-- A read of ADC_FIFO pops the oldest word, 0 from an empty FIFO (R397). -/
def Chip.adcPop (s : Chip) : Nat × Chip :=
  match s.adc.fifo with
  | [] => (0, s)
  | w :: rest => (w, { s with adc := { s.adc with fifo := rest } })

/-- A read of ADC_SSTAMP_LO latches the HI register (Table 12.6). -/
def Chip.readSstamp (s : Chip) : Nat × Chip :=
  (s.adc.start % 2 ^ 32, s.setFld F.adcSstampHi_T 0 0 (s.adc.start / 2 ^ 32))

end Sys2Proof.Machine
end

