-- ==== Sys2Proof/Machine/Intc.lean ====
section
/-! DEFINITION. The interrupt controller, the cores' states and control, and the spare core
(spec/10_anvil_system.md, R311 to R317 and R323 to R332). -/

namespace Sys2Proof.Machine

def Chip.core (s : Chip) (k : Nat) : Core := NStore.get {} s.cores k
def Chip.updCore (s : Chip) (k : Nat) (f : Core → Core) : Chip := { s with cores := NStore.set s.cores k (f (s.core k)) }

/-- The state of core k (Table 10.1). -/
def Chip.coreState (s : Chip) (k : Nat) : Nat := s.fld F.coreStat_STATE k

/-- A power domain switched. -/
def Chip.setDom (s : Chip) (d : Nat) (on : Bool) : Chip :=
  let w := s.fld F.psmDom_ON (d / 32)
  s.setFld F.psmDom_ON (d / 32) 0 (if bit w (d % 32) = on then w else Nat.xor w (2 ^ (d % 32)))

/-- A wake source met: it stands while the device is in or entering a state that it ends (R493, Table 16.4). -/
def Chip.wakeSource (s : Chip) (cause port : Nat) : Chip :=
  let deep := max (s.fld F.psmStat_STATE) (s.fld F.psmStat_TARGET)
  if 2 ≤ deep ∧ (deep = 2 ∨ cause ≠ 2 ∧ cause ≠ 3) then { s with wakes := s.wakes ++ [(cause, port, s.tb.toNat)] } else s

/-! ### Delivery (R325, R327, R328) -/

/-- Whether source n is pending. -/
def Chip.pending (s : Chip) (n : Nat) : Bool := bit (s.fld F.intcPend_PEND (n / 32)) (n % 32)

/-- The pending sources, in rising order. -/
def Chip.pendings (s : Chip) : List Nat :=
  (List.range 16).flatMap fun w =>
    let v := s.fld F.intcPend_PEND w
    if v = 0 then [] else ((List.range 32).filter fun j => bit v j).map fun j => 32 * w + j

/-- The priority of source n. -/
def Chip.prio (s : Chip) (n : Nat) : Nat := s.fld F.intcSrc_PRIO (n - 1)

/-- The running priority of core k. -/
def Chip.pri (s : Chip) (k : Nat) : Nat := s.fld F.intcPri_PRI k

/-- Whether core k is a candidate for source n (R327). -/
def Chip.candidate (s : Chip) (n k : Nat) : Bool :=
  bit (s.fld F.intcSrc_TARGETS (n - 1)) k && decide (2 ≤ s.coreState k ∧ s.coreState k ≤ 4) && decide (s.pri k < s.prio n)

/-- Of two cores the one with the lower running priority; the first on a tie. -/
def Chip.better (s : Chip) : Option Nat → Nat → Option Nat
  | none, k => some k
  | some j, k => if s.pri k < s.pri j then some k else some j

/-- The core to which a pending source is assigned (R327): a sleeper that is being woken for it keeps it from the other
sleepers (R329). -/
def Chip.assigned (s : Chip) (n : Nat) : Option Nat :=
  let c := (List.range 8).filter (s.candidate n)
  match (c.filter fun k => s.coreState k != 4).foldl s.better none with
  | some k => some k
  | none => (c.filter fun k => (s.core k).wakeFor.contains n).head?.or c.head?

/-- The sources assigned to core k. -/
def Chip.assignedTo (s : Chip) (k : Nat) : List Nat := s.pendings.filter fun n => s.assigned n == some k

/-- The request line of core k (R328). -/
def Chip.reqLine (s : Chip) (k : Nat) : Bool := !(s.assignedTo k).isEmpty

/-- The source a claim of core k returns: of highest priority, then of highest number; 0 where none (R330). -/
def Chip.nextSource (s : Chip) (k : Nat) : Nat :=
  (s.assignedTo k).foldl (fun b n => if b = 0 ∨ s.prio b ≤ s.prio n then n else b) 0

/-- Core k's domain, which is off, is to be powered, for cause bit c, and the core woken if it is asleep (R13, R327, R329,
R341); a domain that was forced off stays off (R486). -/
def Chip.wakeCore (s : Chip) (c k : Nat) : Chip :=
  let off := !s.domOn (s.physOf 0 k) && !s.psm.forced.contains (s.physOf 0 k)
  if (s.coreState k = 4 ∨ off) ∧ !(s.core k).waking then
    (s.updCore k fun x => { x with waking := true }).wakeSource c 0
  else s

/-- Every sleeper with a source assigned to it is woken (R327), and keeps those sources meanwhile (R329). -/
def Chip.settle (s : Chip) : Chip :=
  (List.range 8).foldl (fun t k =>
    if t.coreState k = 4 ∧ t.reqLine k then
      (t.wakeCore 2 k).updCore k fun x => { x with wakeFor := t.assignedTo k }
    else t) s

/-- Source n latched into its pending bit; number 0 is no source (R11, R325). -/
def Chip.raiseSource (s : Chip) (n : Nat) : Chip :=
  if n = 0 ∨ 512 ≤ n ∨ s.pending n then s
  else (s.setFld F.intcPend_PEND (n / 32) 0 (s.fld F.intcPend_PEND (n / 32) + 2 ^ (n % 32))).settle

/-- The pending bit of source n cleared. -/
def Chip.clearSource (s : Chip) (n : Nat) : Chip :=
  if s.pending n then s.setFld F.intcPend_PEND (n / 32) 0 (s.fld F.intcPend_PEND (n / 32) - 2 ^ (n % 32)) else s

/-- A running priority written (R328). -/
def Chip.setPri (s : Chip) (k v : Nat) : Chip := (s.setFld F.intcPri_PRI k 0 v).settle

/-- The word a claim of core k returns (R330, Table 10.4). -/
def Chip.claimWord (s : Chip) (k : Nat) : Nat :=
  if s.nextSource k = 0 then 0 else s.nextSource k + s.pri k * 2 ^ 16

/-- What a claim of core k does (R330). -/
def Chip.claim (s : Chip) (k : Nat) : Chip :=
  let n := s.nextSource k
  if n = 0 then s else (s.clearSource n).setPri k (s.prio n)

/-- A write of 1 to pending bits of word w clears them; bit 0 of word 0 is reserved (R325). -/
def Chip.writePend (s : Chip) (w v : Nat) : Chip :=
  ((List.range 32).foldl (fun t j => if bit v j then t.clearSource (32 * w + j) else t) s).settle

/-- A write to INTC_SRCs: TARGETS of the core exceptions is fixed (R326). i is s - 1. -/
def Chip.writeSrc (s : Chip) (i v : Nat) : Chip :=
  let t := s.setFld F.intcSrc_PRIO i 0 v
  (if i < 64 then t else t.setFld F.intcSrc_TARGETS i 0 (v / 2 ^ 16)).settle

/-- INTC_COREk_STAT as it reads. -/
def Chip.intcStatWord (s : Chip) (k : Nat) : Nat :=
  s.nextSource k + b2n (s.reqLine k) * 2 ^ 31 + b2n (s.coreState k == 4) * 2 ^ 30 +
    b2n (decide (2 ≤ s.coreState k ∧ s.coreState k ≤ 4)) * 2 ^ 29

/-! ### Core control (R311 to R317) -/

/-- The state of core k set; the assignment is evaluated again (R328). -/
def Chip.setCoreState (s : Chip) (k st : Nat) : Chip := (s.setFld F.coreStat_STATE k 0 st).settle

/-- Core k enters WAITING. -/
def Chip.enterWaiting (s : Chip) (k : Nat) : Chip :=
  (s.updCore k fun x => { x with waking := false, wakeFor := [], waitSince := s.now }).setCoreState k 3

/-- A core that wakes ends S1 (Table 16.2). -/
def Chip.leaveIdle (s : Chip) : Chip := if s.fld F.psmStat_STATE = 1 then s.setFld F.psmStat_STATE 0 0 0 else s

/-- A core reset (R312): the memories are kept. It powers no domain (R13). -/
def Chip.coreReset (s : Chip) (k : Nat) : Chip :=
  let t := if s.coreState k = 4 then s.leaveIdle else s
  let t := t.updCore k fun x =>
    { dmem := x.dmem, imem := x.imem, nextFab := x.nextFab, fabDone := x.nextFab, fabDoneW := x.nextFab, issuedAt := x.issuedAt }
  let t := (t.setFld F.coreStat_PC k 0 0).setFld F.intcPri_PRI k 0 0
  t.setCoreState k 0

/-- HALT of core k (R314). A sleeper halts at once; its domain stays off (R13). -/
def Chip.coreHalt (s : Chip) (k : Nat) : Chip :=
  match s.coreState k with
  | 2 => if (s.core k).blocked.isSome then s.updCore k fun x => { x with haltPend := true } else s.setCoreState k 1
  | 3 => s.setCoreState k 1
  | 4 => ((s.updCore k fun x => { x with waking := false, wakeFor := [] }).setCoreState k 1).leaveIdle
  | _ => s

/-- RUN of core k, from RESET or HALTED; a core whose domain is off stays as it is (R313, R486). -/
def Chip.coreRun (s : Chip) (k : Nat) : Chip :=
  if s.coreState k ≤ 1 ∧ s.domOn (s.physOf 0 k) then
    (s.updCore k fun x => { x with haltPend := false, stepping := false }).setCoreState k 2
  else s

/-- STEP of core k from HALTED: one instruction is to be issued (R316). -/
def Chip.coreStep (s : Chip) (k : Nat) : Chip :=
  if s.coreState k = 1 then s.updCore k fun x => { x with stepping := true } else s

/-- A write to SYS_COREk_CTRL: RESET, HALT, RUN, STEP in that order (R317). -/
def Chip.writeCoreCtrl (s : Chip) (k v : Nat) : Chip :=
  let t := if bit v 3 then s.coreReset k else s
  let t := if bit v 1 then t.coreHalt k else t
  let t := if bit v 0 then t.coreRun k else t
  if bit v 2 then t.coreStep k else t

/-- The domain of a core that is to have it is powered: a sleeper enters WAITING; from a state deeper than S1 the device must
first have left it (R329, R341, R491). -/
def Chip.coreWakeDone (s : Chip) (k : Nat) : Chip :=
  if (s.core k).waking ∧ s.fld F.psmStat_STATE ≤ 1 then
    let t := s.setDom (s.physOf 0 k) true
    if s.coreState k = 4 then (t.enterWaiting k).leaveIdle
    else (t.updCore k fun x => { x with waking := false }).leaveIdle
  else s

/-! ### Spares (R24, R323, R485) -/

/-- The logical unit of a class that physical unit p serves, among n logical units. -/
def Chip.servedBy (s : Chip) (cls n p : Nat) : Option Nat := (List.range n).find? fun i => s.physOf cls i == p

/-- Whether physical unit p of a class is a usable spare that serves nothing. -/
def Chip.spareFree (s : Chip) (cls n p : Nat) : Bool :=
  (s.servedBy cls n p).isNone && !s.unusable.contains (cls * 4096 + p)

/-- Logical unit i of a class moved to physical unit p. -/
def Chip.moveUnit (s : Chip) (cls i p : Nat) : Chip := { s with phys := NStore.set s.phys (cls * 4096 + i) p }

/-- The tick in which the present beam line of head 0 began, or the present 15 µs interval of the time base where head 0 is
not scanning (R36, R323; the intervals are counted from instant 0: DEDUCED, notes/assumptions/74.md). -/
def Chip.rotationInstant (s : Chip) : Nat :=
  if s.on F.shStat_RUNNING 0 then (s.beam16 0 0 (s.beamNow 0).2 / 65536).toNat % 2 ^ 64 else s.now / 15000 * 15000

/-- The spare core p takes over logical core k at the first instruction boundary after such an instant, with its FAB accesses
complete (R323). -/
def Chip.coreRotate (s : Chip) (k p : Nat) : Chip :=
  if p < 9 ∧ s.spareFree 0 8 p ∧ (s.core k).fab.isEmpty ∧ (s.core k).blocked.isNone ∧
      sub64 s.now s.rotationInstant ≤ sub64 s.now (s.core k).issuedAt then
    let old := s.physOf 0 k
    ((s.moveUnit 0 k p).setDom p (s.domOn old)).setDom old false
  else s

end Sys2Proof.Machine
end

