-- ==== Sys2Proof/Machine/Mailbox.lean ====
section
/-! DEFINITION. The mailboxes (spec/10_anvil_system.md, R333 to R347; spec/16_power_assay_spares.md, R490). -/

namespace Sys2Proof.Machine

/-- The identities of Table 1.5 that a master of this chip may carry. -/
def usedIdentity (id : Nat) : Bool :=
  decide (id < 8) || [0x10, 0x11, 0x18, 0x20, 0x21, 0x28, 0x40, 0x48, 0x50].contains id || decide (0x30 ≤ id ∧ id < 0x40) ||
    decide (0x60 ≤ id ∧ id < 0x64)

/-- The messages a channel holds, oldest first. -/
def Chip.msgs (s : Chip) (c : Nat) : List Msg := NStore.get [] s.mbx c

def Chip.setMsgs (s : Chip) (c : Nat) (l : List Msg) : Chip := { s with mbx := NStore.set s.mbx c l }

/-- Whether the table entry of a compatibility channel counts as valid (R345). -/
def Chip.cptValid (s : Chip) (c : Nat) : Bool :=
  s.on F.mbxCptId_VALID (c - 256) && usedIdentity (s.fld F.mbxCptId_TXID (c - 256)) &&
    usedIdentity (s.fld F.mbxCptId_RXID (c - 256))

/-- Whether a channel is in use. -/
def Chip.chEn (s : Chip) (c : Nat) : Bool := if c < 256 then s.on F.mbxChCfg_EN c else s.cptValid c

/-- The identity that receives on a channel. -/
def Chip.chRx (s : Chip) (c : Nat) : Nat := if c < 256 then s.fld F.mbxChCfg_RXID c else s.fld F.mbxCptId_RXID (c - 256)

/-- A channel's timeout in microseconds. -/
def Chip.chTimeout (s : Chip) (c : Nat) : Nat :=
  if c < 256 then s.fld F.mbxChCfg_TIMEOUT c else s.fld F.mbxCptTmo_TIMEOUT (c - 256)

/-- Whether Table 10.7 admits an identity of this chip to a channel (R333). -/
def Chip.admits (s : Chip) (c id : Nat) : Bool :=
  if c < 128 then decide (id < 8 ∨ id = 0x11)
  else if c < 256 then usedIdentity id
  else decide (c < 288) && s.cptValid c && (s.fld F.mbxCptId_TXID (c - 256) == id || s.fld F.mbxCptId_RXID (c - 256) == id)

/-- MSTAT of an identity set: a core's is its MSG.MSTAT port (R335, Table 10.8). -/
def Chip.setMstat (s : Chip) (id : Nat) (recv : Bool) (c level code : Nat) : Chip :=
  let w := b2n recv * 2 ^ 17 + c % 512 * 2 ^ 8 + level * 2 ^ 4 + code
  if id < 8 then s.updCore id fun x => { x with ports := NStore.put0 x.ports 0x160 w }
  else { s with stages := NStore.set s.stages id { (NStore.get {} s.stages id) with mstat := w } }

/-- The transmit words of an identity. -/
def Chip.txWords (s : Chip) (id : Nat) : List Nat :=
  (List.range 16).map fun i =>
    if id < 8 then NStore.get 0 (s.core id).ports (0x140 + i) else NStore.get 0 (NStore.get {} s.stages id).tx i

/-- Transmit word i of an identity set. -/
def Chip.setTx (s : Chip) (id i v : Nat) : Chip :=
  if id < 8 then s.updCore id fun x => { x with ports := NStore.put0 x.ports (0x140 + i) v }
  else
    let g := NStore.get {} s.stages id
    { s with stages := NStore.set s.stages id { g with tx := NStore.put0 g.tx i v } }

/-- The receive words of an identity set to a message. -/
def Chip.setRx (s : Chip) (id : Nat) (words : List Nat) : Chip :=
  (List.range 16).foldl (fun t i =>
    let v := words.getD i 0
    if id < 8 then t.updCore id fun x => { x with ports := NStore.put0 x.ports (0x150 + i) v }
    else
      let g := NStore.get {} t.stages id
      { t with stages := NStore.set t.stages id { g with rx := NStore.put0 g.rx i v } }) s

/-- Receive word i of an identity. -/
def Chip.rxWord (s : Chip) (id i : Nat) : Nat :=
  if id < 8 then NStore.get 0 (s.core id).ports (0x150 + i) else NStore.get 0 (NStore.get {} s.stages id).rx i

/-- MSTAT of an identity. -/
def Chip.mstat (s : Chip) (id : Nat) : Nat :=
  if id < 8 then NStore.get 0 (s.core id).ports 0x160 else (NStore.get {} s.stages id).mstat

/-- A refusal: DENY of the channel is set where the channel exists (R334). -/
def Chip.deny (s : Chip) (c : Nat) : Chip := if c < 288 then s.setFld F.mbxChStat_DENY c 0 1 else s

/-- The doorbell of a receiver (R341). -/
def Chip.doorbell (s : Chip) (rx : Nat) : Chip :=
  if rx < 8 then (s.raise (331 + rx)).wakeCore 3 rx
  else if rx = 0x10 then s.raise 339
  else if rx = 0x11 then s.raise 340
  else s

/-- Whether a receiver cannot take a message now (R341). -/
def Chip.rxGone (s : Chip) (rx : Nat) : Bool :=
  if rx < 8 then decide (s.coreState rx ≤ 1) || s.unusable.contains (s.physOf 0 rx)
  else if rx = 0x10 ∨ rx = 0x11 then !s.busMaster.contains (rx - 0x10)
  else false

/-- Whether the power controller receives on a channel (R490). -/
def Chip.tolChan (s : Chip) (c : Nat) : Bool := s.on F.psmLtolch_EN && s.fld F.psmLtolch_CHAN == c

/-- A message consumed by the power controller (R490). -/
def Chip.tolMessage (s : Chip) (w0 : Nat) : Chip :=
  if bit w0 31 then s.setFld F.psmMbxltol_VALID 0 0 0
  else (s.setFld F.psmMbxltol_US 0 0 w0).setFld F.psmMbxltol_VALID 0 0 1

/-- The outcome code of a SEND by an identity, before anything is queued (R334, R336, R341, R342, R345, Table 10.8). Where
several hold the order is BADCH, DISABLED for an entry that is not valid, DENIED, DISABLED, TIMEOUT, FULL (DEDUCED,
notes/assumptions/12.md). -/
def Chip.sendCode (s : Chip) (id c : Nat) : Nat :=
  if 288 ≤ c then 5
  else if 256 ≤ c ∧ !s.cptValid c then 6
  else if !s.admits c id ∨ (256 ≤ c ∧ s.fld F.mbxCptId_TXID (c - 256) ≠ id) then 4
  else if !s.chEn c then 6
  else if s.on F.mbxChStat_TMO c ∨ (!s.tolChan c ∧ s.rxGone (s.chRx c)) then 3
  else if 4 ≤ (s.msgs c).length then 1
  else 0

/-- A SEND step of an identity on channel c with its 16 transmit words (R336). -/
def Chip.sendStep (s : Chip) (id c : Nat) (tx : List Nat) : Chip :=
  let code := s.sendCode id c
  let t := match code with
    | 0 => if s.tolChan c then s.tolMessage (tx.getD 0 0)
           else (s.setMsgs c (s.msgs c ++ [({ words := tx, at_ := s.now } : Msg)])).doorbell (s.chRx c)
    | 1 => s.setFld F.mbxChStat_FULL c 0 1
    | 3 => s.stick F.mbxChStat_TMO c 341
    | 4 => s.deny c
    | _ => s
  t.setMstat id false c (if code = 4 ∨ code = 5 then 0 else (t.msgs c).length) code

/-- The outcome code of a RECV by an identity (R334, R337, R345, R490). -/
def Chip.recvCode (s : Chip) (id c : Nat) : Nat :=
  if 288 ≤ c then 5
  else if 256 ≤ c ∧ !s.cptValid c then 6
  else if !s.admits c id then 4
  else if !s.chEn c then 6
  else if s.chRx c ≠ id ∨ s.tolChan c then 4
  else if (s.msgs c).isEmpty then 2
  else 0

/-- A RECV step of an identity on channel c (R337, R342). -/
def Chip.recvStep (s : Chip) (id c : Nat) : Chip :=
  let code := s.recvCode id c
  let t := match code with
    | 0 => ((s.setRx id ((s.msgs c).headD default).words).setMsgs c ((s.msgs c).drop 1)).setFld F.mbxChStat_TMO c 0 0
    | 4 => s.deny c
    | _ => s
  t.setMstat id true c (if code = 4 ∨ code = 5 then 0 else (t.msgs c).length) code

/-- A SEND or RECV trigger of core k, on its way to the mailbox (R299). -/
def Chip.msgTrigger (s : Chip) (k : Nat) (recv : Bool) (c : Nat) : Chip :=
  s.updCore k fun x => { x with msgs := x.msgs ++ [⟨recv, c % 512, s.txWords k⟩] }

/-- The oldest step of core k reaches the mailbox. -/
def Chip.msgPerform (s : Chip) (k : Nat) (o : MsgOp) : Chip :=
  let t := s.updCore k fun x => { x with msgs := x.msgs.drop 1 }
  if o.recv then t.recvStep k o.chan else t.sendStep k o.chan o.tx

/-- MAILBOX_SEND by an identity on channel c: the oldest waiting SEND of a core, or a SEND that the identity makes now. -/
def Chip.mailboxSend (s : Chip) (id c : Nat) : Chip :=
  match if id < 8 then (s.core id).msgs.head? else none with
  | some o => if o.recv then s else s.msgPerform id o
  | none => s.sendStep id c (s.txWords id)

/-- MAILBOX_RECV by an identity on channel c. -/
def Chip.mailboxRecv (s : Chip) (id c : Nat) : Chip :=
  match if id < 8 then (s.core id).msgs.head? else none with
  | some o => if o.recv then s.msgPerform id o else s
  | none => s.recvStep id c

/-- The timeout check of a channel (R342). -/
def Chip.mbxTimeout (s : Chip) (c : Nat) : Chip :=
  match s.msgs c with
  | m :: _ => if s.chTimeout c ≠ 0 ∧ s.chTimeout c * 1000 < sub64 s.now m.at_ then s.stick F.mbxChStat_TMO c 341 else s
  | [] => s

/-- Whether a master may reach the registers of channel c: a master of this chip that Table 10.7 admits (R334). -/
def Chip.mayReach (s : Chip) (m : Master) (c : Nat) : Bool :=
  match m with
  | .own id => s.admits c id
  | .remote _ _ _ => false

/-- Whether a RXID value is one that Table 10.9 defines. -/
def rxidOk (v : Nat) : Bool := decide (v < 8 ∨ v = 0x10 ∨ v = 0x11)

/-- A write to MBX_CHc_CFG by an admitted master (R340); that of a compatibility channel is read only. -/
def Chip.writeChCfg (s : Chip) (c v : Nat) : Chip :=
  if 256 ≤ c then s
  else
    let rx := bits v 23 16
    if (s.msgs c).isEmpty && rxidOk rx && !(decide (c < 128) && rx == 0x10) then s.setWord .mbxChCfg c 0 v
    else s.setFld F.mbxChStat_CFG_REJ c 0 1

/-- MBX_CHc_CFG as it reads: a compatibility channel mirrors its table entry. -/
def Chip.chCfgWord (s : Chip) (c : Nat) : Nat :=
  if c < 256 then s.word .mbxChCfg c
  else s.fld F.mbxCptId_VALID (c - 256) * 2 ^ 31 + s.fld F.mbxCptId_RXID (c - 256) * 2 ^ 16 +
    s.fld F.mbxCptTmo_TIMEOUT (c - 256)

/-- MBX_CHc_STAT as it reads. -/
def Chip.chStatWord (s : Chip) (c : Nat) : Nat := s.word .mbxChStat c + (s.msgs c).length

/-- The identity of receiver r of MBX_READYr_w. -/
def readyId (r : Nat) : Nat := if r < 8 then r else r + 8

/-- MBX_READYr_w as master m reads it (R339, R341). -/
def Chip.readyWord (s : Chip) (m : Master) (r w : Nat) : Nat :=
  (List.range 32).foldl (fun v j =>
    let c := 32 * w + j
    if c < 288 ∧ !(s.msgs c).isEmpty ∧ s.chRx c = readyId r ∧ (128 ≤ c ∨ s.mayReach m c) then v + 2 ^ j else v) 0

/-- A write to an entry of the compatibility table (R346). -/
def Chip.writeCpt (s : Chip) (id : RegId) (j v : Nat) : Chip :=
  if s.on F.mbxCptlock_LOCKED then s.setFld F.mbxCptlock_LOCK_REJ 0 0 1 else s.setWord id j 0 v

end Sys2Proof.Machine
end

