-- ==== Sys2Proof/Machine/Blit.lean ====
section
/-! DEFINITION. The blit engine (spec/08_blit_dma.md, R234 to R249). The accesses of a burst are performed when the burst
is issued; their responses return later (DESIGN CHOICE, notes/assumptions/13.md). -/

namespace Sys2Proof.Machine

/-- A fence that an engine signals, written to CPS_FSIG as master m (R246, R265). -/
def Chip.fenceWrite (s : Chip) (m : Master) (f : Nat) : Chip :=
  if s.domOn 37 then s.fenceSignal f else s.logErr 5 m 31 (s.localAddr RegId.cpsFsig.row.base)

/-- The accesses into which n bytes from address a are cut: the largest natural size of 16, 8, 4, 2, 1 each time (R258). -/
def cutRun (fuel a n : Nat) : List (Nat × Nat) :=
  match fuel with
  | 0 => []
  | f + 1 =>
    if n = 0 then []
    else
      let z := if a % 16 = 0 ∧ 16 ≤ n then 16 else if a % 8 = 0 ∧ 8 ≤ n then 8 else if a % 4 = 0 ∧ 4 ≤ n then 4
        else if a % 2 = 0 ∧ 2 ≤ n then 2 else 1
      (a, z) :: cutRun f (a + z) (n - z)

/-- The accesses of a run of bytes. -/
def accessesOf (a n : Nat) : List (Nat × Nat) := cutRun n a n

/-! ### Commands (R234, R236, R237, R241) -/

/-- The staging set as a command. -/
def Chip.bltStaged (s : Chip) : BltCmd :=
  { op := s.fld F.bltOp_OP, sfmt := s.fld F.bltOp_SFMT, dfmt := s.fld F.bltOp_DFMT, spm := s.on F.bltOp_SPM,
    dpm := s.on F.bltOp_DPM, wmEn := s.on F.bltOp_WM_EN, fsig := s.on F.bltOp_FSIG, fence := s.fld F.bltOp_FENCE,
    sbase := s.fld F.bltSbase_ADDR, sstride := s.fld F.bltSstride_STRIDE, sx := s.fld F.bltSxy_X, sy := s.fld F.bltSxy_Y,
    dbase := s.fld F.bltDbase_ADDR, dstride := s.fld F.bltDstride_STRIDE, dx := s.fld F.bltDxy_X, dy := s.fld F.bltDxy_Y,
    w := s.fld F.bltSize_WM1 + 1, h := s.fld F.bltSize_HM1 + 1, fill := s.fld F.bltFill_VALUE, pal := s.fld F.bltPal_BANK,
    wmark := s.fld F.bltWmark_LINE, burstLog := s.fld F.bltPace_BURSTLOG, dead := s.fld F.bltPace_DEAD }

/-- The format that gives the destination's pixels: a copy has its source's (R239). -/
def BltCmd.dstFmt (c : BltCmd) : Nat := if c.op = 1 then c.sfmt else c.dfmt

/-- The bit address of source pixel (x, y) (R236). -/
def BltCmd.srcBit (c : BltCmd) (x y : Nat) : Nat := (c.sbase + (c.sy + y) * c.sstride) * 8 + (c.sx + x) * fmtBpp c.sfmt

/-- The bit address of destination pixel (x, y) (R236). -/
def BltCmd.dstBit (c : BltCmd) (x y : Nat) : Nat :=
  (c.dbase + (c.dy + y) * c.dstride) * 8 + (c.dx + x) * fmtBpp c.dstFmt

/-- First and last byte of source row y. -/
def BltCmd.srcRow (c : BltCmd) (y : Nat) : Nat × Nat := (c.srcBit 0 y / 8, (c.srcBit c.w y - 1) / 8)

/-- First and last byte of destination row y. -/
def BltCmd.dstRow (c : BltCmd) (y : Nat) : Nat × Nat := (c.dstBit 0 y / 8, (c.dstBit c.w y - 1) / 8)

/-- Whether the command's fields disagree (R237). -/
def BltCmd.badFmt (c : BltCmd) : Bool :=
  let ds := (c.dstRow 0).2 + 1 - (c.dstRow 0).1
  let ss := (c.srcRow 0).2 + 1 - (c.srcRow 0).1
  decide (c.op = 3 ∨ 7 ≤ c.sfmt ∨ 7 ≤ c.dfmt ∨ 5 ≤ c.burstLog) ||
  decide (1 < c.h ∧ (c.dstride < ds ∨ (c.op ≠ 0 ∧ c.sstride < ss))) ||
  (c.op == 2 && fmtIndexed c.dfmt && (!fmtIndexed c.sfmt || decide (fmtBpp c.dfmt < fmtBpp c.sfmt))) ||
  (c.op != 0 && decide (0x17210000 ≤ (c.srcRow (c.h - 1)).2)) ||
  decide (0x17210000 ≤ (c.dstRow (c.h - 1)).2) ||
  (List.range c.h).any fun y => decide ((c.dstRow y).1 < 0x17000000 ∧ 0x16000000 ≤ (c.dstRow y).2)

/-- Whether the footprints meet (R241). -/
def BltCmd.meet (c : BltCmd) : Bool :=
  c.op != 0 && decide ((c.srcRow 0).1 ≤ (c.dstRow (c.h - 1)).2 ∧ (c.dstRow 0).1 ≤ (c.srcRow (c.h - 1)).2)

/-- The rows of a staged strip (R241): as many whole rows as hold no more than 64 KiB of source bytes. -/
def BltCmd.stripRows (c : BltCmd) : Nat := 65536 / ((c.srcRow 0).2 + 1 - (c.srcRow 0).1)

/-- How a command runs, or none where its overlap cannot be resolved (R241). -/
def BltCmd.plan (c : BltCmd) : Option BltRun :=
  if !c.meet then some { cmd := c }
  else if c.sstride = c.dstride then
    if fmtBpp c.sfmt = fmtBpp c.dstFmt then some { cmd := c, rev := decide (c.srcBit 0 0 < c.dstBit 0 0) }
    else some { cmd := c, strip := c.stripRows, up := decide ((c.srcRow 0).1 < (c.dstRow 0).1) }
  else if (c.srcRow (c.h - 1)).2 + 1 - (c.srcRow 0).1 ≤ 65536 then some { cmd := c, strip := c.h }
  else none

/-- The j-th row that a run works on. -/
def BltRun.rowAt (r : BltRun) (j : Nat) : Nat :=
  if r.strip = 0 then (if r.rev then r.cmd.h - 1 - j else j)
  else if r.up then r.cmd.h - min r.cmd.h ((j / r.strip + 1) * r.strip) + j % r.strip
  else j

/-! ### Pixels (R50, R238 to R240) -/

/-- Whether ranges of bytes, each a first byte and a length, meet a range. -/
def rangesMeet (l : List (Nat × Nat)) (o n : Nat) : Bool := l.any fun p => decide (p.1 < o + n ∧ o < p.1 + p.2)

/-- One read access of the engine: whether it carries poison, and the state with the errors counted, the poisoned read
logged, and POISON set for source data (R247, R357). -/
def Chip.bltReadOne (s : Chip) (q : Nat × Nat) (src : Bool) : Bool × Chip :=
  let r := (s.touch q.1 q.2).checkUnits (unitsOf q.1 q.2)
  if r.1 then
    let t := r.2.logErr 1 (.own 0x28) (s.storeOf q.1) (s.localAddr q.1)
    (true, if src then t.stick F.bltStat_POISON 0 330 else t)
  else (false, r.2)

/-- The read accesses of a list performed in turn: those that carry poison, and the state. -/
def Chip.bltReads (s : Chip) (src : Bool) : List (Nat × Nat) → List (Nat × Nat) × Chip
  | [] => ([], s)
  | q :: l =>
    let r := s.bltReadOne q src
    let t := r.2.bltReads src l
    (if r.1 then q :: t.1 else t.1, t.2)

/-- A run of bytes read by the engine, cut by the size rule (R243): the data, the accesses that carry poison, the state. -/
def Chip.bltRead (s : Chip) (a n : Nat) (src : Bool := true) : Nat × List (Nat × Nat) × Chip :=
  (s.memData a n, s.bltReads src (accessesOf a n))

/-- The bytes from which k source pixels from column x of row y are read. -/
def BltCmd.srcRun (c : BltCmd) (x k y : Nat) : Nat × Nat :=
  (c.srcBit x y / 8, (c.srcBit x y + k * fmtBpp c.sfmt - 1) / 8 + 1 - c.srcBit x y / 8)

/-- k source pixels from column x of row y, each with its poison: that of any access it is drawn from. -/
def Chip.bltPixels (s : Chip) (c : BltCmd) (x k y : Nat) : List (Nat × Bool) × Chip :=
  let bpp := fmtBpp c.sfmt
  let b0 := c.srcBit x y
  let q := c.srcRun x k y
  let r := s.bltRead q.1 q.2
  ((List.range k).map fun i =>
    let p := b0 + i * bpp
    (r.1 / 2 ^ (p - q.1 * 8) % 2 ^ bpp, rangesMeet r.2.1 (p / 8) ((p + bpp - 1) / 8 + 1 - p / 8)), r.2.2)

/-- A component of 12 bits written as n bits (R240). -/
def narrowTo (n v : Nat) : Nat := (rnd (v * (2 ^ n - 1) : Nat) 4095).toNat

/-- A colour in a direct destination format (R240). -/
def Tex.encode (t : Tex) (f : Nat) : Nat :=
  if f = 3 then narrowTo 5 t.r * 2 ^ 11 + narrowTo 6 t.g * 2 ^ 5 + narrowTo 5 t.b
  else if f = 4 then b2n (decide (2048 ≤ t.a)) * 2 ^ 15 + narrowTo 5 t.r * 2 ^ 10 + narrowTo 5 t.g * 2 ^ 5 + narrowTo 5 t.b
  else if f = 5 then narrowTo 8 t.a * 2 ^ 24 + narrowTo 8 t.r * 2 ^ 16 + narrowTo 8 t.g * 2 ^ 8 + narrowTo 8 t.b
  else narrowTo 10 t.r * 2 ^ 20 + narrowTo 10 t.g * 2 ^ 10 + narrowTo 10 t.b

/-- The change between premultiplied and straight colour (R240, step 2). -/
def BltCmd.premul (c : BltCmd) (t : Tex) : Tex :=
  let srcPre := c.spm && (c.sfmt == 5 || fmtIndexed c.sfmt)
  let dstPre := c.dfmt == 5 && c.dpm
  let f : Nat → Nat :=
    if srcPre && !dstPre then fun v => if t.a = 0 then 0 else min 4095 (rnd (v * 4095 : Nat) t.a).toNat
    else if !srcPre && dstPre then fun v => (rnd (v * t.a : Nat) 4095).toNat
    else id
  ⟨t.a, f t.r, f t.g, f t.b⟩

/-- One source pixel as the destination holds it; an indexed one reads its palette entry (R238 to R240). -/
def Chip.bltConvert (s : Chip) (c : BltCmd) (p : Nat × Bool) : (Nat × Bool) × Chip :=
  if c.op ≠ 2 ∨ (fmtIndexed c.sfmt ∧ fmtIndexed c.dfmt) then (p, s)
  else if fmtIndexed c.sfmt then
    let r := s.bltRead (0x17000000 + c.pal * 0x400 + p.1 * 4) 4
    (((c.premul (texArgb r.1)).encode c.dfmt, p.2 || !r.2.1.isEmpty), r.2.2)
  else (((c.premul (texDirect c.sfmt p.1)).encode c.dfmt, p.2), s)

/-- A list of source pixels converted one after another. -/
def Chip.bltConvertAll (s : Chip) (c : BltCmd) : List (Nat × Bool) → List (Nat × Bool) × Chip
  | [] => ([], s)
  | p :: t =>
    let r := s.bltConvert c p
    let q := r.2.bltConvertAll c t
    (r.1 :: q.1, q.2)

/-- One write of the engine performed at its store, its response on its way (R243, R361). -/
def Chip.bltWrite (s : Chip) (row a n v : Nat) (poison : Bool) : Chip :=
  let up := s.storeUp a
  let t := if up then (s.touch a n).memWrite (.own 0x28) a n v poison else s
  { t with resps := t.resps ++ [⟨.own 0x28, .blit row, if up then .okay else .domainOff, true, s.localAddr a, n, 0⟩] }

/-- The bytes into which k destination pixels from column x of row y go. -/
def BltCmd.dstRun (c : BltCmd) (x k y : Nat) : Nat × Nat :=
  (c.dstBit x y / 8, (c.dstBit x y + k * fmtBpp c.dstFmt - 1) / 8 + 1 - c.dstBit x y / 8)

/-- The bytes of such a run that hold pixels outside the rectangle too: they are read before they are written (R242). -/
def BltCmd.edges (c : BltCmd) (x k y : Nat) : List Nat :=
  let q := c.dstRun x k y
  let lo := c.dstBit x y % 8 ≠ 0
  let hi := (c.dstBit x y + k * fmtBpp c.dstFmt) % 8 ≠ 0
  (if lo then [q.1] else []) ++ if hi ∧ ¬ (lo ∧ q.2 = 1) then [q.1 + q.2 - 1] else []

/-- k pixels written from column x of row y: the outside pixels of an end byte are kept, and every beat that holds a
poisoned pixel, or a kept one that was poisoned, is written as poison (R242, R247). -/
def Chip.bltPut (s : Chip) (c : BltCmd) (x y : Nat) (ps : List (Nat × Bool)) : Chip × Nat :=
  let bpp := fmtBpp c.dstFmt
  let b0 := c.dstBit x y
  let q := c.dstRun x ps.length y
  let sh := b0 - q.1 * 8
  let mask := (2 ^ (ps.length * bpp) - 1) * 2 ^ sh
  let e := c.edges x ps.length y
  let r := s.bltReads false (e.map fun b => (b, 1))
  let kept := e.foldl (fun w b =>
    let o := s.memData b 1 * 2 ^ (8 * (b - q.1))
    w + (o - Nat.land o mask)) 0
  let data := (ps.foldr (fun p acc => p.1 % 2 ^ bpp + 2 ^ bpp * acc) 0) * 2 ^ sh + kept
  let bad := r.1.map (fun p => p.1 / 16) ++ ps.zipIdx.flatMap fun p =>
    if p.1.2 then [(b0 + p.2 * bpp) / 128, (b0 + p.2 * bpp + bpp - 1) / 128] else []
  let l := accessesOf q.1 q.2
  (l.foldl (fun t p => t.bltWrite y p.1 p.2 (data / 2 ^ (8 * (p.1 - q.1)) % 2 ^ (8 * p.2)) (bad.contains (p.1 / 16))) r.2,
    l.length)

/-! ### The engine -/

/-- GO: the staging set is queued, or discarded where four commands are held (R234, R237). -/
def Chip.bltGo (s : Chip) : Chip :=
  if 4 ≤ s.blt.queue.length + b2n s.blt.run.isSome then s.stick F.bltStat_QFULL 0 330
  else { s with blt := { s.blt with queue := s.blt.queue ++ [s.bltStaged] } }

/-- The running command leaves the engine. -/
def Chip.bltDrop (s : Chip) : Chip := { s with blt := { s.blt with run := none } }

/-- Whether the watermark is due: its row lies among those completed (R245). -/
def BltRun.wmDue (r : BltRun) : Bool :=
  r.cmd.wmEn && !r.wmFired && (List.range r.rowsDone).any fun j => r.cmd.dy + r.rowAt j == r.cmd.wmark

/-- The watermark fires (R245). -/
def Chip.bltWmark (s : Chip) : Chip :=
  match s.blt.run with
  | some r =>
    if r.wmDue then
      ({ s with blt := { s.blt with run := some { r with wmFired := true } } }.setFld F.bltStat_WMARK 0 0 1).raise 329
    else s
  | none => s

/-- ABORT: the queue is emptied and the running command ends once its accesses have completed (R248). -/
def Chip.bltAbort (s : Chip) : Chip :=
  let t := { s with blt := { s.blt with queue := [] } }
  match s.blt.run with
  | none => t
  | some r =>
    if r.outAll = 0 then (t.bltWmark.stick F.bltStat_ABORTED 0 330).bltDrop
    else { t with blt := { t.blt with run := some { r with aborted := true } } }

/-- A write to BLT_GO. -/
def Chip.writeBltGo (s : Chip) (v : Nat) : Chip := if bit v 1 then s.bltAbort else if bit v 0 then s.bltGo else s

/-- The engine begins the next command, or refuses it (R235, R237, R241). -/
def Chip.bltBegin (s : Chip) : Chip :=
  match s.blt.run, s.blt.queue with
  | none, c :: q =>
    let t := { s with blt := { s.blt with queue := q } }
    if c.badFmt then t.stick F.bltStat_BAD_FMT 0 330
    else match c.plan with
      | none => t.stick F.bltStat_OVERLAP 0 330
      | some r => ({ t with blt := { t.blt with run := some r } }).setFld F.bltRow_VALID 0 0 0
  | _, _ => s

/-- The destination bytes of a burst (R243). -/
def BltCmd.burstBytes (c : BltCmd) : Nat := 256 * 2 ^ c.burstLog

/-- The source pixels of one stretch of a row, converted; a fill has its value. -/
def Chip.bltSource (s : Chip) (c : BltCmd) (x k y : Nat) : List (Nat × Bool) × Chip :=
  if c.op = 0 then (List.replicate k (c.fill, false), s)
  else
    let r := s.bltPixels c x k y
    r.2.bltConvertAll c r.1

/-- The pixels of the next stretch of the row that a run works on, where its burst has n destination bytes left: to the
row's end, or to a byte boundary (R243). -/
def BltRun.stretch (r : BltRun) (n : Nat) : Nat :=
  let y := r.rowAt r.row
  let room := if r.rev then 8 * n - (8 - r.cmd.dstBit (r.cmd.w - r.col) y % 8) % 8 else 8 * n - r.cmd.dstBit r.col y % 8
  min (room / fmtBpp r.cmd.dstFmt) (r.cmd.w - r.col)

/-- The column at which a stretch of k pixels begins. -/
def BltRun.colAt (r : BltRun) (k : Nat) : Nat := if r.rev then r.cmd.w - r.col - k else r.col

/-- The rows of the staged strip that a run reads next. -/
def BltRun.stripNow (r : BltRun) : List Nat :=
  (List.range (min r.strip (r.cmd.h - r.row))).map fun i => r.rowAt (r.row + i)

/-- A staged strip read whole, rows in the order in which they are written (R241). -/
def Chip.bltStage (s : Chip) (r : BltRun) : List (Nat × Bool) × Chip :=
  r.stripNow.foldl (fun q y =>
    let p := q.2.bltSource r.cmd 0 r.cmd.w y
    (q.1 ++ p.1, p.2)) ([], s)

/-- The runs of bytes that a stretch of k pixels needs read: its source or the strip's, the palette bank, its end bytes. -/
def BltRun.needs (r : BltRun) (k : Nat) : List (Nat × Nat) :=
  let c := r.cmd
  let y := r.rowAt r.row
  let src := if c.op = 0 then []
    else if r.strip = 0 then [c.srcRun (r.colAt k) k y]
    else if r.buf.isEmpty then r.stripNow.map (c.srcRun 0 c.w)
    else []
  let pal := if c.op = 2 ∧ fmtIndexed c.sfmt ∧ !fmtIndexed c.dfmt ∧ !src.isEmpty then [(0x17000000 + c.pal * 0x400, 4)] else []
  src ++ pal ++ (c.edges (r.colAt k) k y).map fun b => (b, 1)

/-- The first access among runs of bytes whose store is off. -/
def Chip.bltDown (s : Chip) (l : List (Nat × Nat)) : Option (Nat × Nat) :=
  l.findSome? fun p => (accessesOf p.1 p.2).find? fun q => !s.storeUp q.1

/-- A read that cannot be served ends in an error response, and with it the command's further work (R247). -/
def Chip.bltReadFails (s : Chip) (r : BltRun) (q : Nat × Nat) : Chip × BltRun :=
  ({ s with resps := s.resps ++ [⟨.own 0x28, .blit 0, .domainOff, false, s.localAddr q.1, q.2, 0⟩] },
    { r with failed := true, outAll := r.outAll + 1 })

/-- Up to n destination bytes issued: stretch after stretch of the rows in the order of work. -/
def Chip.bltIssue (s : Chip) (r : BltRun) (fuel n : Nat) : Chip × BltRun :=
  match fuel with
  | 0 => (s, r)
  | f + 1 =>
    if n = 0 ∨ r.cmd.h ≤ r.row then (s, r)
    else
      let k := r.stretch n
      match s.bltDown (r.needs k) with
      | some q => s.bltReadFails r q
      | none =>
        let y := r.rowAt r.row
        let x := r.colAt k
        let b := if r.strip ≠ 0 ∧ r.buf.isEmpty then s.bltStage r else (r.buf, s)
        let p := if r.strip = 0 then b.2.bltSource r.cmd x k y else (b.1.take k, b.2)
        let w := p.2.bltPut r.cmd x y p.1
        let last := decide (r.cmd.w ≤ r.col + k)
        w.1.bltIssue { r with buf := if r.strip = 0 then [] else b.1.drop k,
                              row := if last then r.row + 1 else r.row, col := if last then 0 else r.col + k,
                              out := NStore.set r.out y (NStore.get 0 r.out y + w.2), outAll := r.outAll + w.2 }
          f (n - (r.cmd.dstRun x k y).2)

/-- The engine issues a burst, once the dead time of the one before is over (R243). -/
def Chip.bltBurst (s : Chip) : Chip :=
  match s.blt.run with
  | some r =>
    if r.failed || r.aborted || decide (r.cmd.h ≤ r.row) || decide (sub64 s.now s.blt.at_ < s.blt.dead) then s
    else
      let q := s.bltIssue r r.cmd.burstBytes r.cmd.burstBytes
      { q.1 with blt := { q.1.blt with run := some q.2, at_ := s.now, dead := r.cmd.dead } }
  | none => s

/-- The rows completed from the first one on, in the order of work (R245). -/
def BltRun.advance (r : BltRun) (fuel : Nat) : BltRun :=
  match fuel with
  | 0 => r
  | f + 1 =>
    if r.rowsDone < r.row ∧ NStore.get 0 r.out (r.rowAt r.rowsDone) = 0 then
      { r with rowsDone := r.rowsDone + 1, out := NStore.del r.out (r.rowAt r.rowsDone) }.advance f
    else r

/-- A response to the engine (R245, R247, R248): a row whose write ends in an error never completes. -/
def Chip.bltRespond (s : Chip) (row : Nat) (write err : Bool) : Chip :=
  match s.blt.run with
  | none => s
  | some r =>
    let r1 := { r with outAll := r.outAll - 1, failed := r.failed || err,
                       out := if write && !err then NStore.set r.out row (NStore.get 0 r.out row - 1) else r.out }
    let r2 := r1.advance (r1.row - r1.rowsDone)
    let t := if r.rowsDone < r2.rowsDone then
        (s.setFld F.bltRow_VALID 0 0 1).setFld F.bltRow_LINE 0 0 (r2.cmd.dy + r2.rowAt (r2.rowsDone - 1))
      else s
    let t := { t with blt := { t.blt with run := some r2 } }
    if r2.aborted ∧ r2.outAll = 0 then (t.bltWmark.stick F.bltStat_ABORTED 0 330).bltDrop else t

/-- The running command completes: its fence, DONE, the count and BLT_DONE, in that order (R246). -/
def Chip.bltDone (s : Chip) : Chip :=
  match s.blt.run with
  | some r =>
    if r.cmd.h ≤ r.row ∧ r.outAll = 0 ∧ !r.failed ∧ !r.aborted then
      let t := s.bltWmark
      let t := if r.cmd.fsig then t.fenceWrite (.own 0x28) r.cmd.fence else t
      (((t.setFld F.bltStat_DONE 0 0 1).bump F.bltDonecnt_COUNT F.bltDonecnt_SAT).raise 328).bltDrop
    else s
  | none => s

/-- A command that met an error ends once its accesses have completed (R247). -/
def Chip.bltError (s : Chip) : Chip :=
  match s.blt.run with
  | some r => if r.failed ∧ r.outAll = 0 ∧ !r.aborted then (s.bltWmark.stick F.bltStat_ERR 0 330).bltDrop else s
  | none => s

/-- BLT_STAT as it reads. -/
def Chip.bltStatWord (s : Chip) : Nat :=
  s.word .bltStat + b2n s.blt.run.isSome * 2 ^ 31 + (s.blt.queue.length + b2n s.blt.run.isSome) * 2 ^ 16

end Sys2Proof.Machine
end

