-- ==== Sys2Proof/Machine/Pins.lean ====
section
/-! DEFINITION. Pins, banks, locking, park, pin events and the serial peripherals
(spec/13_pins_sequencers.md, R407 to R423 and R437). -/

namespace Sys2Proof.Machine

def Chip.psq (s : Chip) (q : Nat) : Psq := NStore.get {} s.psqs q

/-- The inner state of sequencer q changed; a change of a FIFO's fill is dated. -/
def Chip.updPsq (s : Chip) (q : Nat) (f : Psq → Psq) : Chip :=
  let x := s.psq q
  let y := f x
  let z : Psq := { y with txAt := if y.tx.length = x.tx.length then x.txAt else s.now,
                          rxAt := if y.rx.length = x.rx.length then x.rxAt else s.now }
  { s with psqs := NStore.set s.psqs q z }
def Chip.serial (s : Chip) (x : Nat) : Serial := NStore.get {} s.serials x
def Chip.updSerial (s : Chip) (x : Nat) (f : Serial → Serial) : Chip :=
  { s with serials := NStore.set s.serials x (f (s.serial x)) }

/-- A bit of a W1C word set; its change from 0 to 1 raises producer p. -/
def Chip.stickBit (s : Chip) (f : Fd) (i b p : Nat) : Chip :=
  if bit (s.fld f i) b then s else (s.setFld f i 0 (s.fld f i + 2 ^ b)).raise p

/-! ### The pads (R408, R410, R412, R415, R418, R419) -/

/-- Whether the ports of bank b follow their functions: the ports are not parked, the bank's supply is good, and its domain
is on. -/
def Chip.bankFree (s : Chip) (b : Nat) : Bool :=
  !s.on F.pinStat_PARKED && s.on F.pinBank_VIO_OK b && s.domOn (51 + b / 8)

/-- Whether a UART's or SPI master's frame is in progress (R423). -/
def Chip.frameOn (s : Chip) (x : Nat) : Bool := decide (256 * sub64 s.now (s.serial x).at_ < (s.serial x).len)

/-- What UART u does at TXD: the bit of the frame that is in progress, 1 between frames; off, the spec does not say (DESIGN
CHOICE, notes/assumptions/84.md). -/
def Chip.uartLine (s : Chip) (u : Nat) : Pad :=
  let e := s.serial u
  if !s.on F.uartCfg_EN u then .wave
  else if s.frameOn u then
    match e.wire[256 * sub64 s.now e.at_ / s.fld F.uartDiv_DIV u]? with
    | some (.bit b) => .lvl b
    | _ => .lvl true
  else .lvl true

/-- Whether SPI master q drives its chip select low: from its first frame until the transmit FIFO is empty and the last frame
has ended (R423). -/
def Chip.spiSelects (s : Chip) (q : Nat) : Bool :=
  s.on F.spiCfg_EN q && (s.frameOn (16 + q) || ((s.serial (16 + q)).cs && !(s.serial (16 + q)).tx.isEmpty))

/-- The sequencer that owns port p, and the port's place in its group (R412). -/
def Chip.psqOwner (s : Chip) (p : Nat) : Option (Nat × Nat) :=
  ((List.range 64).find? fun q => s.on F.psqCtrl_EN q && decide (s.fld F.psqGroup_BASE q ≤ p ∧
    p ≤ s.fld F.psqGroup_BASE q + s.fld F.psqGroup_COUNTM1 q)).map fun q => (q, p - s.fld F.psqGroup_BASE q)

/-- What the function that FUNC selects does at port p, before OD (Table 13.4). -/
def Chip.funcDrive (s : Chip) (p : Nat) : Pad :=
  match s.fld F.pinCfg_FUNC p with
  | 0 => if bit (s.fld F.pinOe_OE (p / 32)) (p % 32) then .lvl (bit (s.fld F.pinData_DATA (p / 32)) (p % 32)) else .z
  | 1 => match s.psqOwner p with
    | some (q, i) => if bit (s.fld F.psqOev_OEV q) i then .lvl (bit (s.fld F.psqOutv_OUTV q) i) else .z
    | none => .z
  | 2 => .lvl (s.on F.cmpStat_OUT (p % 256))
  | 3 =>
    let u := (p - 768) / 4
    if p % 4 = 0 then s.uartLine u
    else if p % 4 = 2 then .lvl (s.on F.uartCfg_RTSCTS u && decide (8 ≤ (s.serial u).rx.length))
    else .z
  | 4 =>
    let q := (p - 832) / 8
    let target := s.on F.spiCfg_TARGET q
    if 3 ≤ p % 8 then (if target then .z else .lvl !(s.fld F.spiCfg_CS q == p % 8 - 3 && s.spiSelects q))
    else if (p % 8 == 2) == target then .wave else .z
  | 5 => .wave
  | 6 => if s.on F.outCfg_CLKSRC ((p - 912) / 4) ∧ p % 4 < 2 then .z else .wave
  | 7 => if p % 4 = 2 ∨ s.on F.inCfg_CLKSRC ((p - 976) / 4) then .z else .wave
  | 9 => s.syncDrive p
  | 10 => s.parDrive p
  | 11 => .z
  | _ => .wave

/-- The park state of port p (R418). -/
def Chip.parkDrive (s : Chip) (p : Nat) : Pad :=
  match s.fld F.pinCfg_PARK p with
  | 1 => .lvl false
  | 2 => .lvl true
  | _ => .z

/-- What the chip does at the pad of port p: open drain turns a 1 into high impedance (R415). -/
def Chip.padDrive (s : Chip) (p : Nat) : Pad :=
  if s.bankFree (p / 32) then
    match s.funcDrive p with
    | .lvl true => if s.on F.pinCfg_OD p then .z else .lvl true
    | d => d
  else s.parkDrive p

/-- The level at the pad of port p, or none where it is not defined: a floating or contended pad, a waveform, or an
analogue port (R410, R413). -/
def Chip.padLevel (s : Chip) (p : Nat) : Option Bool :=
  if s.fld F.pinCfg_FUNC p = 11 ∧ s.bankFree (p / 32) then none
  else
    match s.padDrive p, Store.get? p s.pads with
    | .lvl v, none => some v
    | .lvl v, some e => if v = e then some v else none
    | .wave, _ => none
    | .z, some e => some e
    | .z, none => match s.fld F.pinCfg_PULL p with
      | 1 => some false
      | 2 => some true
      | _ => none

/-- The levels at the pads of n ports from port p, as a word; an undefined pad gives a free bit. -/
def Chip.pinsWord (s : Chip) (p n : Nat) : Nat × Chip :=
  let l := (List.range n).map fun i => s.padLevel (p + i)
  if l.all fun x => x.isSome then (l.foldr (fun x a => b2n (x == some true) + 2 * a) 0, s)
  else
    let r := s.free n
    (l.zipIdx.foldr (fun x a => (match x.1 with | some v => b2n v | none => b2n (bit r.1 x.2)) + 2 * a) 0, r.2)

/-- The input synchronisers take the levels of every pad at the present tick; an undefined one gives a free bit (R413). The
samples that a filter of 255 tk looks back on are kept. That a pad is seen at the ticks only is the model's (DESIGN CHOICE,
notes/assumptions/82.md). -/
def Chip.samplePads (s : Chip) : Chip :=
  let r := s.pinsWord 0 1024
  { r.2 with samples := ((s.now, (List.range 32).map fun b => r.1 / 2 ^ (32 * b) % 2 ^ 32) :: s.samples).take 260 }

/-- The synchronised levels of n ports from port p: those at the pads 2 tk before the present tick (R413); free where the
synchroniser has not run for so long. -/
def Chip.syncWord (s : Chip) (p n : Nat) : Nat × Chip :=
  match s.samples[1]? with
  | some x => ((List.range n).foldr (fun i a => b2n (sampleBit x (p + i)) + 2 * a) 0, s)
  | none => s.free n

/-- The level of one port. -/
def Chip.pinLevel (s : Chip) (p : Nat) : Bool × Chip :=
  let r := s.pinsWord p 1
  (r.1 == 1, r.2)

/-! ### Writes (R9, R410, R414, R416, R417) -/

/-- Whether Table 13.4 offers function f on port p. -/
def funcOffered (p f : Nat) : Bool :=
  match f with
  | 0 => true
  | 1 => true
  | 2 => true
  | 3 => decide (768 ≤ p ∧ p ≤ 831)
  | 4 => decide (832 ≤ p ∧ p ≤ 895)
  | 5 => decide (896 ≤ p ∧ p ≤ 911)
  | 6 => decide (912 ≤ p ∧ p ≤ 975)
  | 7 => decide (976 ≤ p ∧ p ≤ 1007 ∧ p % 4 ≠ 3)
  | 8 => decide (1008 ≤ p ∧ p ≤ 1011)
  | 9 => decide (16 ≤ p ∧ p ≤ 31)
  | 10 => decide (256 ≤ p ∧ p ≤ 767)
  | 11 => decide (p ≤ 15)
  | _ => false

/-- Whether port p is locked. -/
def Chip.locked (s : Chip) (p : Nat) : Bool := bit (s.fld F.pinLocked_LOCKED (p / 32)) (p % 32)

/-- A write to PIN_CFGp (R9, R410, R417). -/
def Chip.writePinCfg (s : Chip) (p v : Nat) : Chip :=
  if s.locked p then s.stickBit F.pinLockrej_REJ (p / 32) (p % 32) 375
  else
    let t := [F.pinCfg_PARK, F.pinCfg_DRIVE, F.pinCfg_SLOW, F.pinCfg_OD, F.pinCfg_PULL].foldl (fun t f => t.writeFld f p 0 v) s
    let t := if p < 64 then (t.writeFld F.pinCfg_WAKE p 0 v).writeFld F.pinCfg_WAKEPOL p 0 v
      else t.writeFld F.pinCfg_WAKEPOL p 0 v
    let t := if p < 256 then t.writeFld F.pinCfg_TTL p 0 v else t
    if funcOffered p (bits v 3 0) then
      (if s.fld F.pinCfg_FUNC p = bits v 3 0 then t else t.adcNoteFunc p (s.fld F.pinCfg_FUNC p)).writeFld F.pinCfg_FUNC p 0 v
    else t

/-- A write of GO to PIN_UNPARK or of a park (R418, R419). -/
def Chip.setParked (s : Chip) (b : Bool) : Chip := s.setOn F.pinStat_PARKED 0 0 b

/-- Latch bits set, cleared or inverted (R414). -/
def Chip.pinSet (s : Chip) (b v : Nat) : Chip := s.setFld F.pinData_DATA b 0 (Nat.lor (s.fld F.pinData_DATA b) (v % 2 ^ 32))
def Chip.pinClr (s : Chip) (b v : Nat) : Chip :=
  s.setFld F.pinData_DATA b 0 (s.fld F.pinData_DATA b - Nat.land (s.fld F.pinData_DATA b) (v % 2 ^ 32))
def Chip.pinTgl (s : Chip) (b v : Nat) : Chip := s.setFld F.pinData_DATA b 0 (Nat.xor (s.fld F.pinData_DATA b) (v % 2 ^ 32))

/-- A write to PIN_LOCKKEY (R416). -/
def Chip.lockKey (s : Chip) (m : Master) (v : Nat) : Chip :=
  let key := bits v 31 16
  let port := bits v 9 0
  let begun (t : Chip) : Chip := { t with lockSeq := if key = 0xB1C5 then some ⟨port, m, 1⟩ else none }
  let broken := begun (s.stick F.pinStat_LOCK_SEQERR 0 375)
  match s.lockSeq with
  | none => if key = 0xB1C5 then begun s else broken
  | some q =>
    if q.port = port ∧ q.mst.same m ∧ key = (if q.step = 1 then 0x4E3A else 0xB1C5) then
      if q.step = 1 then { s with lockSeq := some { q with step := 2 } }
      else
        let w := s.fld F.pinLocked_LOCKED (port / 32)
        { (if s.locked port then s else s.setFld F.pinLocked_LOCKED (port / 32) 0 (w + 2 ^ (port % 32))) with lockSeq := none }
    else broken

/-- The supply of bank b judged against VSEL (R408). -/
def Chip.vioCheck (s : Chip) (b : Nat) : Chip :=
  let ok := decide (NStore.get 0 s.vio b = s.fld F.pinBank_VSEL b + 1)
  let t := s.setOn F.pinBank_VIO_OK b 0 ok
  if ok then t else t.stick F.pinBank_VIO_ERR b 375

/-- The supply of bank b changes (R408). -/
def Chip.vioChange (s : Chip) (b v : Nat) : Chip := { s with vio := NStore.set s.vio b v }.vioCheck b

/-- A write to PIN_BANKb: VSEL is fixed for B00 to B07, and locked with any port of the bank (Table 13.5, R417). -/
def Chip.writePinBank (s : Chip) (b v : Nat) : Chip :=
  let t := s.w1c F.pinBank_VIO_ERR b 0 v
  if b < 8 ∨ s.fld F.pinLocked_LOCKED b ≠ 0 ∨ t.fld F.pinBank_VSEL b = v % 2 then t
  else (t.setFld F.pinBank_VSEL b 0 v).vioCheck b

/-- PIN_STAT as it reads (Table 13.6). -/
def Chip.pinStatWord (s : Chip) : Nat :=
  s.word .pinStat + b2n ((List.range 32).any fun b => s.on F.pinBank_VIO_ERR b) * 4

/-! ### Edges (R420, R421) -/

/-- Edge detector k, on port p, produces its event for the edge to that level which is due at the present tick, once (R421;
DESIGN CHOICE, notes/assumptions/85.md). -/
def Chip.detect (s : Chip) (k p : Nat) (level : Option Bool) : Chip :=
  if s.on F.pinEv_EN k && s.fld F.pinEv_PORT k == p && s.domOn (51 + p / 32 / 8) && Store.get? k s.evkAt != some s.now then
    match s.edgeAt p (s.fld F.pinEv_FILT k) with
    | some e =>
      if level = some e.2 ∧ edgeIs (s.fld F.pinEv_EDGE k) e.2 then { s.raise (344 + k) with evkAt := NStore.set s.evkAt k s.now } else s
    | none => s
  else s

/-- The outside drives port p to a level, or lets it go. -/
def Chip.drivePad (s : Chip) (p : Nat) (level : Option Bool) : Chip :=
  { s with pads := match level with | some v => NStore.set s.pads p v | none => NStore.del s.pads p }

/-- What happens at port p: without a detector the outside drives it to a level or lets it go; with one, that detector
answers the edge of the port to that level (R421). -/
def Chip.pinEdge (s : Chip) (p : Nat) (level : Option Bool) (k : Option (Fin 16)) : Chip :=
  match k with
  | none => s.drivePad p level
  | some k => s.detect k.1 p level

/-- Whether port p has had an edge whose new level the last 100 samples hold (R420). -/
def Chip.heldEdge (s : Chip) (p : Nat) (rising : Bool) : Bool :=
  decide (100 ≤ s.samples.length) && ((s.samples.take 100).all fun x => sampleBit x p == rising) &&
    (s.samples.drop 100).any fun x => sampleBit x p != rising

/-- A held edge on a wake pin, in a power state that it ends (R420, Table 16.4). -/
def Chip.wakeEdge (s : Chip) (p : Nat) (rising : Bool) : Chip :=
  if s.on F.pinCfg_WAKE p && (s.on F.pinCfg_WAKEPOL p == rising) && s.heldEdge p rising then s.wakeSource 0 p else s

/-! ### Serial peripherals (R422, R423) -/

/-- The fields of a serial peripheral's STAT and CFG by its number. -/
def serialF (u sp i : Fd) (x : Nat) : Fd × Nat := if x < 16 then (u, x) else if x < 24 then (sp, x - 16) else (i, x - 24)

/-- A W1C bit of a serial STAT set. -/
def Chip.serialSet (s : Chip) (x : Nat) (u sp i : Fd) : Chip :=
  let f := serialF u sp i x
  s.setFld f.1 f.2 0 1

/-- Whether a peripheral is on. -/
def Chip.serialEn (s : Chip) (x : Nat) : Bool :=
  let f := serialF F.uartCfg_EN F.spiCfg_EN F.i2cCfg_EN x
  s.on f.1 f.2

/-- A write to DATA (R422). -/
def Chip.serialPush (s : Chip) (x v : Nat) : Chip :=
  if 8 ≤ (s.serial x).tx.length then s.serialSet x F.uartStat_TXOVR F.spiStat_TXOVR F.i2cStat_TXOVR
  else s.updSerial x fun e =>
    { e with tx := e.tx ++ [v % 2 ^ 32], cs := e.cs && (!e.tx.isEmpty || s.frameOn x) }

/-- What a read of DATA returns. -/
def Chip.serialHead (s : Chip) (x : Nat) : Nat := (s.serial x).rx.headD 0

/-- A read of DATA pops a word (R422). -/
def Chip.serialPop (s : Chip) (x : Nat) : Chip := s.updSerial x fun e => { e with rx := e.rx.drop 1 }

/-- A received word, dropped where the FIFO is full. -/
def Chip.serialRecv (s : Chip) (x v : Nat) : Chip :=
  if 8 ≤ (s.serial x).rx.length then s.serialSet x F.uartStat_RXOVR F.spiStat_RXOVR F.i2cStat_RXOVR
  else s.updSerial x fun e => { e with rx := e.rx ++ [v] }

/-- The bits of v from bit 0 up, n of them. -/
def bitsUp (v n : Nat) : List WireSym := (List.range n).map fun i => .bit (bit v i)

/-- The bits of v from bit n - 1 down. -/
def bitsDown (v n : Nat) : List WireSym := (bitsUp v n).reverse

/-- The frame in which UART u sends the character c: a start bit, data bits LSB first, parity, stop bits (R423). -/
def Chip.uartBits (s : Chip) (u c : Nat) : List WireSym :=
  let n := if s.on F.uartCfg_D7 u then 7 else 8
  let odd := (List.range n).foldl (fun a i => a != bit c i) false
  let par := s.fld F.uartCfg_PARITY u
  [.bit false] ++ bitsUp c n ++ (if par = 0 then [] else [.bit (if par = 1 then odd else !odd)]) ++
    (if s.on F.uartCfg_STOP2 u then [.bit true, .bit true] else [.bit true])

/-- UART u begins to send the oldest transmit word, unless a frame is in progress; while RTSCTS is 1 and CTS is high it waits
(R423). -/
def Chip.uartSend (s : Chip) (u : Nat) : Chip :=
  match (s.serial u).tx with
  | [] => s
  | w :: rest =>
    let cts := s.pinLevel (768 + 4 * u + 3)
    let go (t : Chip) : Chip :=
      let l := s.uartBits u w
      t.updSerial u fun e => { e with tx := rest, wire := l, at_ := s.now, len := l.length * s.fld F.uartDiv_DIV u }
    if !s.on F.uartCfg_EN u || s.frameOn u then s
    else if s.on F.uartCfg_RTSCTS u then (if cts.1 then cts.2 else go cts.2)
    else go s

/-- UART u receives a character, whole or with a framing or parity error (R423). -/
def Chip.uartRecv (s : Chip) (u c : Nat) (ok : Bool) : Chip :=
  if s.on F.uartCfg_EN u then
    let t := if ok then s else s.setFld F.uartStat_FRAME u 0 1
    t.serialRecv u (c % (if s.on F.uartCfg_D7 u then 128 else 256))
  else s

/-- The bits that SPI q shifts out for the word w, in order (R423). -/
def Chip.spiBits (s : Chip) (q w : Nat) : List WireSym :=
  let n := 8 * 2 ^ s.fld F.spiCfg_WIDTH q
  if s.on F.spiCfg_LSBF q then bitsUp w n else bitsDown w n

/-- SPI q shifts one frame with the word w at its data input: a master begins the next frame of its FIFO where none is in
progress; a target without a word sends all ones (R423). -/
def Chip.spiFrame (s : Chip) (q w : Nat) : Chip :=
  let x := 16 + q
  let n := 8 * 2 ^ s.fld F.spiCfg_WIDTH q
  let v := w % 2 ^ n
  let target := s.on F.spiCfg_TARGET q
  if !s.on F.spiCfg_EN q then s
  else match (s.serial x).tx with
    | [] =>
      if target then
        ((s.setFld F.spiStat_UNDER q 0 1).updSerial x fun e => { e with wire := s.spiBits q (2 ^ n - 1) }).serialRecv x v
      else s
    | o :: rest =>
      if target then (s.updSerial x fun e => { e with tx := rest, wire := s.spiBits q o }).serialRecv x v
      else if s.frameOn x then s
      else (s.updSerial x fun e =>
        { e with tx := rest, wire := s.spiBits q o, at_ := s.now, len := 512 * n * s.fld F.spiDiv_HALF q, cs := true }).serialRecv x v

/-- I2C i as master performs the byte step of its oldest transmit word: START, the byte sent or received, the answer to a byte
received, STOP; a refusal or lost arbitration empties the FIFO and releases the bus (R423; bit 7 first: PRESUMED,
notes/assumptions/83.md). -/
def Chip.i2cStep (s : Chip) (i : Nat) (ack arb : Bool) (byte : Nat) : Chip :=
  let x := 24 + i
  match (s.serial x).tx with
  | [] => s
  | w :: rest =>
    let begin_ : List WireSym := if bit w 8 then [.start] else []
    let end_ : List WireSym := if bit w 9 then [.stop] else []
    if arb then (s.setFld F.i2cStat_ARB i 0 1).updSerial x fun e => { e with tx := [], wire := begin_ }
    else if bit w 10 then
      (s.updSerial x fun e => { e with tx := rest, wire := begin_ ++ [.bit (bit w 11)] ++ end_ }).serialRecv x byte
    else if ack then s.updSerial x fun e => { e with tx := rest, wire := begin_ ++ bitsDown w 8 ++ end_ }
    else (s.setFld F.i2cStat_NACK i 0 1).updSerial x fun e => { e with tx := [], wire := begin_ ++ bitsDown w 8 }

/-- I2C i performs one byte step; as target it takes part only where the address after the last START was ADDR, and
acknowledges with a 0 (R423). -/
def Chip.i2cByte (s : Chip) (i : Nat) (e : I2cEvent) : Chip :=
  let x := 24 + i
  if !s.on F.i2cCfg_EN i then s
  else if !s.on F.i2cCfg_TARGET i then
    match e with
    | .master ack arb byte => s.i2cStep i ack arb byte.toNat
    | _ => s
  else match e with
    | .master _ _ _ => s
    | .address b =>
      let mine := b.toNat / 2 == s.fld F.i2cCfg_ADDR i
      s.updSerial x fun y => { y with sel := if mine then some (bit b.toNat 0) else none, first := true,
                                      wire := if mine then [.bit false] else [] }
    | .written b =>
      if (s.serial x).sel = some false then
        (s.updSerial x fun y => { y with first := false, wire := [.bit false] }).serialRecv x
          (b.toNat + b2n (s.serial x).first * 256)
      else s
    | .readOut =>
      if (s.serial x).sel ≠ some true then s
      else match (s.serial x).tx with
        | [] => (s.setFld F.i2cStat_UNDER i 0 1).updSerial x fun y => { y with wire := bitsDown 0xFF 8 }
        | w :: rest => s.updSerial x fun y => { y with tx := rest, wire := bitsDown w 8 }
    | .stop => s.updSerial x fun y => { y with sel := none }

/-- TXLVL, RXLVL and BUSY as they read. -/
def Chip.serialLevels (s : Chip) (x : Nat) : Nat :=
  (s.serial x).tx.length * 2 ^ 28 + (s.serial x).rx.length * 2 ^ 24 + b2n (s.serialEn x && (!(s.serial x).tx.isEmpty || s.frameOn x)) * 2 ^ 7

/-- A write to CFG or DIV of a serial peripheral: discarded while it is on, unless it clears EN (Table 13.8). -/
def Chip.writeSerialCfg (s : Chip) (x i v : Nat) (flds : List Fd) (clears : Bool) : Chip :=
  if s.serialEn x && !(clears && !bit v 31) then s else flds.foldl (fun t f => t.writeFld f i 0 v) s

end Sys2Proof.Machine
end

