-- ==== Sys2Proof/Machine/Psq.lean ====
section
/-! DEFINITION. The pin sequencers (spec/13_pins_sequencers.md, R424 to R437). -/

namespace Sys2Proof.Machine

/-- The STATE of a sequencer (Table 13.9). -/
def Chip.psqState (s : Chip) (q : Nat) : Nat := s.fld F.psqStat_STATE q
def Chip.setPsqState (s : Chip) (q v : Nat) : Chip := s.setFld F.psqStat_STATE q 0 v

/-- The present instruction of a sequencer. -/
def Chip.psqInst (s : Chip) (q : Nat) : Nat := s.fld F.psqProg_INST q (s.fld F.psqStat_PC q)

/-- A STAT bit set; its change raises event 375 (R437). -/
def Chip.psqStick (s : Chip) (q : Nat) (f : Fd) : Chip := s.stick f q 375

/-- The program counter moved on, within the 128 instructions. -/
def Chip.psqNext (s : Chip) (q : Nat) : Chip := s.setFld F.psqStat_PC q 0 (s.fld F.psqStat_PC q + 1)

/-- The present instruction ends its wait, if it had one, and the next one is to begin. -/
def Chip.psqDone (s : Chip) (q : Nat) : Chip :=
  ((s.updPsq q fun e => { e with wait := none }).setPsqState q 2).psqNext q

/-- The sequencer waits on its present instruction. -/
def Chip.psqHold (s : Chip) (q : Nat) (w : PsqWait) : Chip :=
  (s.updPsq q fun e => { e with wait := some w }).setPsqState q 3

/-- The sequencer halts on its present instruction (R427, R432). -/
def Chip.psqStopHere (s : Chip) (q : Nat) : Chip := (s.updPsq q fun e => { e with wait := none }).setPsqState q 1

/-- The group pins of a sequencer as a word; pins beyond COUNTM1 read 0 (R427). A timed action samples the pads at its
tick, any other read the synchronisers (R413, R429). -/
def Chip.psqPins (s : Chip) (q : Nat) (timed : Bool) : Nat × Chip :=
  let p := s.fld F.psqGroup_BASE q
  let n := s.fld F.psqGroup_COUNTM1 q + 1
  if timed then s.pinsWord p n else s.syncWord p n

/-- The synchronised level of one group pin. -/
def Chip.psqPin (s : Chip) (q i : Nat) : Bool × Chip :=
  if s.fld F.psqGroup_COUNTM1 q < i then (false, s)
  else
    let r := s.syncWord (s.fld F.psqGroup_BASE q + i) 1
    (r.1 == 1, r.2)

/-- n bits of v put into bits f to f + n - 1 of a 32-bit word, stopping at bit 31. -/
def putBits (old f n v : Nat) : Nat :=
  let mask := (2 ^ n - 1) * 2 ^ f % 2 ^ 32
  (old - Nat.land old mask) + Nat.land (v * 2 ^ f % 2 ^ 32) mask

/-- OUTV or OEV written; pins beyond COUNTM1 keep their bits (R427). -/
def Chip.psqDrivePins (s : Chip) (q : Nat) (f : Fd) (v : Nat) : Chip :=
  let n := s.fld F.psqGroup_COUNTM1 q + 1
  s.setFld f q 0 (putBits (s.fld f q) 0 n (v % 2 ^ n))

/-- SC advanced by n, saturating at 32 (R428). -/
def Chip.psqShifted (s : Chip) (q n : Nat) : Chip := s.setFld F.psqSc_SC q 0 (min 32 (s.fld F.psqSc_SC q + n))

/-- SR loaded with a word, and SC cleared. -/
def Chip.psqLoad (s : Chip) (q v : Nat) : Chip := (s.setFld F.psqSr_SR q 0 v).setFld F.psqSc_SC q 0 0

/-- Whether an instruction is one that Table 13.10 reserves, or holds a reserved field value (R427). -/
def psqReserved (w : Nat) : Bool :=
  let op := bits w 31 28
  let d := bits w 26 24
  decide (11 ≤ op) || (bit w 27 && !([4, 5, 6, 9, 10].contains op)) || (op == 2 && d == 7) || (op == 4 && decide (3 ≤ d)) ||
  (op == 5 && decide (4 ≤ d)) || (op == 6 && (decide (4 ≤ d) || (decide (2 ≤ d) && bits w 23 16 != 0))) ||
  (op == 9 && (decide (5 ≤ d) || bits w 22 20 == 7)) || (op == 10 && bits w 3 0 == 15)

/-- DRIVE (R428). -/
def Chip.psqDrive (s : Chip) (q w : Nat) : Chip :=
  let n := bits w 4 0 + 1
  let f := bits w 20 16
  let sr := s.fld F.psqSr_SR q
  let left := s.on F.psqCtrl_SHDIR q
  let v := if left then sr / 2 ^ (32 - n) else sr % 2 ^ n
  let t := (s.setFld F.psqSr_SR q 0 (if left then sr * 2 ^ n else sr / 2 ^ n)).psqShifted q n
  match bits w 26 24 with
  | 0 => t.psqDrivePins q F.psqOutv_OUTV (putBits (s.fld F.psqOutv_OUTV q) f n v)
  | 1 => t.psqDrivePins q F.psqOev_OEV (putBits (s.fld F.psqOev_OEV q) f n v)
  | _ => t

/-- The bits that SAMPLE takes (Table 13.10). -/
def Chip.psqSampled (s : Chip) (q w : Nat) : Nat × Chip :=
  let n := bits w 4 0 + 1
  match bits w 26 24 with
  | 0 =>
    let r := s.psqPins q (bit w 27)
    (r.1 / 2 ^ bits w 20 16 % 2 ^ n, r.2)
  | 1 => (s.fld F.psqDr_DR q % 2 ^ n, s)
  | 2 => (0, s)
  | _ => (2 ^ n - 1, s)

/-- SAMPLE (R428). -/
def Chip.psqSample (s : Chip) (q w : Nat) : Chip :=
  let n := bits w 4 0 + 1
  let r := s.psqSampled q w
  let sr := s.fld F.psqSr_SR q
  let v := if s.on F.psqCtrl_SHDIR q then Nat.lor (sr * 2 ^ n) r.1 else Nat.lor (sr / 2 ^ n) (r.1 * 2 ^ (32 - n))
  (r.2.setFld F.psqSr_SR q 0 v).psqShifted q n

/-- PUT (Table 13.10). -/
def Chip.psqPut (s : Chip) (q w : Nat) : Chip :=
  let v := bits w 7 0 % 2 ^ (bits w 15 13 + 1)
  match bits w 26 24 with
  | 0 => s.psqDrivePins q F.psqOutv_OUTV (putBits (s.fld F.psqOutv_OUTV q) (bits w 20 16) (bits w 15 13 + 1) v)
  | 1 => s.psqDrivePins q F.psqOev_OEV (putBits (s.fld F.psqOev_OEV q) (bits w 20 16) (bits w 15 13 + 1) v)
  | 2 => s.setFld F.psqLc_LC q 0 (bits w 15 0)
  | _ => s.setFld F.psqDr_DR q 0 (bits w 15 0)

/-- The source of a COPY. -/
def Chip.psqCopySrc (s : Chip) (q c : Nat) (timed : Bool) : Nat × Chip :=
  match c with
  | 0 => (s.fld F.psqDr_DR q, s)
  | 1 => (s.fld F.psqLc_LC q, s)
  | 2 => (s.fld F.psqSr_SR q, s)
  | 3 => s.psqPins q timed
  | 4 => (0, s)
  | 5 => (s.fld F.psqSc_SC q, s)
  | _ => ((s.psq q).cap % 2 ^ 32, s)

/-- COPY (Table 13.10). -/
def Chip.psqCopy (s : Chip) (q w : Nat) : Chip :=
  let r := s.psqCopySrc q (bits w 22 20) (bit w 27)
  match bits w 26 24 with
  | 0 => r.2.setFld F.psqDr_DR q 0 r.1
  | 1 => r.2.setFld F.psqLc_LC q 0 r.1
  | 2 => r.2.psqLoad q r.1
  | 3 => r.2.psqDrivePins q F.psqOutv_OUTV r.1
  | _ => r.2.psqDrivePins q F.psqOev_OEV r.1

/-- SIGNAL (R435, R436). -/
def Chip.psqSignal (s : Chip) (q w : Nat) : Chip := s.raiseHop (360 + bits w 3 0) (s.psq q).hop

/-- The action of an instruction that honours AT. -/
def Chip.psqAct (s : Chip) (q w : Nat) : Chip :=
  match bits w 31 28 with
  | 4 => s.psqDrive q w
  | 5 => s.psqSample q w
  | 6 => s.psqPut q w
  | 9 => s.psqCopy q w
  | _ => s.psqSignal q w

/-- An instruction that honours AT begins: it acts, or waits for its tick (R429, R435). -/
def Chip.psqAt (s : Chip) (q w : Nat) : Chip :=
  if bit w 27 then (s.updPsq q fun e => { e with hop := 0 }).psqHold q (.timed s.now) else (s.psqAct q w).psqDone q

/-- BRANCH (Table 13.10). -/
def Chip.psqBranch (s : Chip) (q w : Nat) : Chip :=
  let lc := s.fld F.psqLc_LC q
  let pin := s.psqPin q (bits w 20 16)
  let r : Bool × Chip := match bits w 26 24 with
    | 0 => (true, s)
    | 1 => if lc = 0 then (false, s) else (lc != 1, s.setFld F.psqLc_LC q 0 (lc - 1))
    | 2 => (pin.1, pin.2)
    | 3 => (!pin.1, pin.2)
    | 4 => (!(s.psq q).tx.isEmpty, s)
    | 5 => (decide ((s.psq q).rx.length < 8), s)
    | 6 => (s.fld F.psqDr_DR q == 0, s)
    | _ => (s.fld F.psqDr_DR q != 0, s)
  if r.1 then r.2.setFld F.psqStat_PC q 0 (bits w 6 0) else r.2.psqNext q

/-- Whether the wait of an AWAIT of kind 0, 1 or 2 is over (R430). -/
def Chip.psqMet (s : Chip) (q w : Nat) : Bool × Chip :=
  match bits w 26 24 with
  | 0 => (reached s.now (s.psq q).tr, s)
  | 1 => s.psqPin q (bits w 20 16)
  | 2 =>
    let r := s.psqPin q (bits w 20 16)
    (!r.1, r.2)
  | _ => (false, s)

/-- AWAIT begins: kind 6 ends at once where TASKPEND is 1, kinds 0 to 2 where their condition holds (R430, R433, R435). -/
def Chip.psqAwait (s : Chip) (q w : Nat) : Chip :=
  if bits w 26 24 = 6 then
    if s.on F.psqStat_TASKPEND q then
      ((s.setFld F.psqStat_TASKPEND q 0 0).updPsq q fun e => { e with hop := e.pendHop }).psqDone q
    else s.psqHold q (.await s.now)
  else
    let t := s.updPsq q fun e => { e with hop := 0 }
    let r := t.psqMet q w
    if r.1 then r.2.psqDone q else r.2.psqHold q (.await s.now)

/-- STAMP (Table 13.10). -/
def Chip.psqStamp (s : Chip) (q w : Nat) : Chip :=
  let e := s.psq q
  let base := match bits w 26 25 with
    | 0 => s.now
    | 1 => e.tr
    | 2 => e.cap
    | _ => e.tr + s.fld F.psqDr_DR q
  (s.updPsq q fun e => { e with tr := (base + bits w 23 0) % 2 ^ 64 }).psqDone q

/-- FETCH (R431). -/
def Chip.psqFetch (s : Chip) (q w : Nat) : Chip :=
  match (s.psq q).tx with
  | v :: rest => ((s.updPsq q fun e => { e with tx := rest }).psqLoad q v).psqDone q
  | [] =>
    if bit w 26 then s.psqHold q .fifo
    else ((s.psqLoad q (s.fld F.psqIdle_IDLE q)).psqStick q F.psqStat_UNDERRUN).psqDone q

/-- DEPOSIT (R431). -/
def Chip.psqDeposit (s : Chip) (q w : Nat) : Chip :=
  if (s.psq q).rx.length < 8 then
    ((s.updPsq q fun e => { e with rx := e.rx ++ [s.fld F.psqSr_SR q] }).psqLoad q 0).psqDone q
  else if bit w 26 then s.psqHold q .fifo
  else ((s.psqLoad q 0).psqStick q F.psqStat_OVERRUN).psqDone q

/-- The instruction at the program counter of a RUNNING sequencer executed, where its operation is op and nothing in it is
reserved; the sequencer's domain is on. -/
def Chip.psqOn (s : Chip) (q op : Nat) (k : Nat → Chip → Chip) : Chip :=
  let w := s.psqInst q
  if s.psqState q = 2 ∧ bits w 31 28 = op ∧ !psqReserved w then k w s else s

/-- A reserved instruction halts the sequencer (R427). -/
def Chip.psqBad (s : Chip) (q : Nat) : Chip :=
  if s.psqState q = 2 ∧ psqReserved (s.psqInst q) then (s.psqStick q F.psqStat_BAD_INST).psqStopHere q else s

/-- The edge that an AWAIT of kind 3, 4 or 5 begun at b waits for, where one of the direction named appears at the present
tick: its instant, not before b (R430). -/
def Chip.psqEdge (s : Chip) (q b : Nat) (rising : Bool) : Option Nat :=
  let w := s.psqInst q
  let pin := bits w 20 16
  if s.fld F.psqGroup_COUNTM1 q < pin then none
  else match s.edgeAt (s.fld F.psqGroup_BASE q + pin) 0 with
    | some e => if e.2 = rising ∧ edgeIs (bits w 26 24 - 2) e.2 ∧ reached e.1 b then some e.1 else none
    | none => none

/-- A wait ends: an edge of the kind awaited and of the direction the command names, recorded to within 1 tk, or, whatever
that direction, a level or TR (R430; DESIGN CHOICE, notes/assumptions/85.md). -/
def Chip.psqAwaitEnd (s : Chip) (q : Nat) (rising : Bool) (off : Nat) : Chip :=
  let w := s.psqInst q
  match (s.psq q).wait with
  | some (.await b) =>
    if s.psqState q ≠ 3 ∨ bits w 26 24 = 6 then s
    else if 3 ≤ bits w 26 24 then
      match s.psqEdge q b rising with
      | some e => (s.updPsq q fun x => { x with cap := nearly e off, tr := (nearly e off + bits w 15 0) % 2 ^ 64 }).psqDone q
      | none => s
    else
      let r := s.psqMet q w
      if r.1 then r.2.psqDone q else r.2
  | _ => s

/-- An AT action takes effect once the count has reached TR and b + 10; LATE where that is later than TR (R429). -/
def Chip.psqTimed (s : Chip) (q : Nat) : Chip :=
  match (s.psq q).wait with
  | some (.timed b) =>
    if s.psqState q = 3 ∧ reached s.now (s.psq q).tr ∧ 10 ≤ sub64 s.now b then
      let t := if reached (b + 9) (s.psq q).tr then s.psqStick q F.psqStat_LATE else s
      (t.psqAct q (s.psqInst q)).psqDone q
    else s
  | _ => s

/-- A blocking FETCH or DEPOSIT ends when a word or room has come (R431). -/
def Chip.psqFifoEnd (s : Chip) (q : Nat) : Chip :=
  if s.psqState q = 3 ∧ (s.psq q).wait = some .fifo then
    if bits (s.psqInst q) 31 28 = 7 then (if (s.psq q).tx.isEmpty then s else s.psqFetch q (s.psqInst q))
    else if (s.psq q).rx.length < 8 then s.psqDeposit q (s.psqInst q) else s
  else s

/-! ### Commands (R426, R432 to R434) -/

/-- HALT: a waiting instruction is abandoned, the program counter on it. -/
def Chip.psqHalt (s : Chip) (q : Nat) : Chip := if 2 ≤ s.psqState q then s.psqStopHere q else s

/-- FLUSH. -/
def Chip.psqFlush (s : Chip) (q : Nat) : Chip :=
  if s.psqState q = 1 then s.updPsq q fun e => { e with tx := [], rx := [] } else s.psqStick q F.psqStat_CFG_ERR

/-- RESTART. -/
def Chip.psqRestart (s : Chip) (q : Nat) : Chip :=
  if s.on F.psqCtrl_EN q then
    if 1023 < s.fld F.psqGroup_BASE q + s.fld F.psqGroup_COUNTM1 q then s.psqStick q F.psqStat_CFG_ERR
    else
      (((s.setFld F.psqStat_PC q 0 (s.fld F.psqCtrl_ENTRY q)).psqLoad q 0).updPsq q fun e => { e with wait := none }).setPsqState q 2
  else s

/-- RESUME. -/
def Chip.psqResume (s : Chip) (q : Nat) : Chip := if s.psqState q = 1 then s.setPsqState q 2 else s

/-- A write to PSQs_CMD: HALT, FLUSH, RESTART, RESUME in that order (R432). -/
def Chip.writePsqCmd (s : Chip) (q v : Nat) : Chip :=
  let t := if bit v 1 then s.psqHalt q else s
  let t := if bit v 3 then t.psqFlush q else t
  let t := if bit v 0 then t.psqRestart q else t
  if bit v 2 then t.psqResume q else t

/-- A write to PSQs_CTRL: EN = 0 acts as HALT and turns the sequencer off (R434); EN = 1 is discarded where the start left
the sequencer without a good unit (R514). -/
def Chip.writePsqCtrl (s : Chip) (q v : Nat) : Chip :=
  if bit v 31 && s.dead.contains (5 * 4096 + q) then s
  else
  let t := s.setWord .psqCtrl q 0 v
  if bit v 31 then (if t.psqState q = 0 then t.setPsqState q 1 else t) else (t.psqStopHere q).setPsqState q 0

/-- A write to program memory, SR, DR, LC or IDLE (R426). -/
def Chip.writePsqData (s : Chip) (f : Fd) (q i v : Nat) : Chip :=
  if s.psqState q ≤ 1 then s.setFld f q i v else s.psqStick q F.psqStat_PROG_REJ

/-- Whether a sequencer waits on an AWAIT. -/
def Psq.awaits (e : Psq) : Bool := match e.wait with | some (.await _) => true | _ => false

/-- A task arrival with its hop count at a sequencer (R433, R435). -/
def Chip.psqTask (s : Chip) (q hop : Nat) : Chip :=
  if !s.on F.psqCtrl_EN q then s
  else if s.psqState q = 3 ∧ (s.psq q).awaits ∧ bits (s.psqInst q) 26 24 = 6 then
    (s.updPsq q fun e => { e with hop := hop + 1 }).psqDone q
  else if s.psqState q = 1 then (s.updPsq q fun e => { e with hop := hop + 1 }).psqRestart q
  else if s.on F.psqStat_TASKPEND q then s.updPsq q fun e => { e with pendHop := max e.pendHop (hop + 1) }
  else (s.setFld F.psqStat_TASKPEND q 0 1).updPsq q fun e => { e with pendHop := hop + 1 }

/-! ### The FIFOs -/

/-- A push into the TX FIFO, discarded where it is full. -/
def Chip.psqPush (s : Chip) (q v : Nat) : Chip :=
  if (s.psq q).tx.length < 8 then s.updPsq q fun e => { e with tx := e.tx ++ [v % 2 ^ 32] } else s

/-- What a pop of the RX FIFO returns. -/
def Chip.psqHead (s : Chip) (q : Nat) : Nat := (s.psq q).rx.headD 0

/-- A pop of the RX FIFO. -/
def Chip.psqPop (s : Chip) (q : Nat) : Chip := s.updPsq q fun e => { e with rx := e.rx.drop 1 }

/-- PSQs_LEVEL as it reads. -/
def Chip.psqLevelWord (s : Chip) (q : Nat) : Nat := (8 - (s.psq q).tx.length) * 2 ^ 8 + (s.psq q).rx.length

/-- A read of PSQs_TR_LO or CAP_LO latches the high part. -/
def Chip.psqReadTr (s : Chip) (q : Nat) : Nat × Chip :=
  ((s.psq q).tr % 2 ^ 32, s.setFld F.psqTrHi_TR q 0 ((s.psq q).tr / 2 ^ 32))
def Chip.psqReadCap (s : Chip) (q : Nat) : Nat × Chip :=
  ((s.psq q).cap % 2 ^ 32, s.setFld F.psqCapHi_CAP q 0 ((s.psq q).cap / 2 ^ 32))

/-- Whether the next instruction of a running sequencer is a timed action due within 2,000 tk (R425, R429). -/
def Chip.psqSoon (s : Chip) (q : Nat) : Bool :=
  let w := s.psqInst q
  s.psqState q == 2 && bit w 27 && [4, 5, 6, 9, 10].contains (bits w 31 28) && !reached ((s.psq q).tr) (s.now + 2000)

/-- A spare sequencer p takes over logical sequencer q between two instructions, with no timed action due within 2,000 tk
(R425). -/
def Chip.psqRotate (s : Chip) (q p : Nat) : Chip :=
  if p < 68 ∧ s.spareFree 5 64 p ∧ (s.psq q).wait = none ∧ !s.psqSoon q then s.moveUnit 5 q p else s

end Sys2Proof.Machine
end

