-- ==== Sys2Proof/Machine/SoundDsp.lean ====
section
/-! DEFINITION. The arithmetic of the audio engine: mix words, ramps, ADPCM, the resampling filter, sines
(spec/07_sound.md, R207, R208, R214 to R221, R224). -/

namespace Sys2Proof.Machine

/-! ### Mix words (R207) -/

/-- Saturated to a 36-bit signed mix word. -/
def satMix (x : Int) : Int := clampI (-(2 ^ 35)) (2 ^ 35 - 1) x

/-- Limited to a 24-bit sample. -/
def clamp24 (x : Int) : Int := clampI (-(2 ^ 23)) (2 ^ 23 - 1) x

/-- A mix word through a 4.12 gain. -/
def gainMul (x : Int) (g : Nat) : Int := satMix (rnd (x * g) 4096)

/-! ### Ramps (R208) -/

/-- A gain that stands still. -/
def Ramp.still (g : Nat) : Ramp := ⟨g, g, 0, 0⟩

/-- The samples that a RAMP field lasts. -/
def rampLen (r : Nat) : Nat := (r * 48 + 4) / 5

/-- The gain at the present sample. -/
def Ramp.now (r : Ramp) : Nat := if r.n ≤ r.i then r.g1 else (r.g0 + rnd (((r.g1 : Int) - r.g0) * r.i) r.n).toNat

/-- The next sample. -/
def Ramp.step (r : Ramp) : Ramp := if r.n ≤ r.i then r else { r with i := r.i + 1 }

/-- Whether the ramp is in progress. -/
def Ramp.busy (r : Ramp) : Bool := decide (r.i < r.n)

/-- A new target taken, from the gain that stands. -/
def Ramp.aim (r : Ramp) (g n : Nat) : Ramp := ⟨r.now, g, 0, n⟩

/-! ### Sines and powers, in fixed point -/

/-- pi times 2^64. -/
def piFix : Nat := 57952155664616982739

/-- The natural logarithm of 2, times 2^64. -/
def ln2Fix : Nat := 12786308645202655660

/-- The sine, times 2^60, of an angle of a, times 2^60, between 0 and pi / 2: the Taylor series in Horner's form. -/
def sinTaylor (a : Int) : Int :=
  let q := a * a / 2 ^ 60
  let h := (List.range 14).foldl (fun (acc : Int) (j : Nat) =>
    let k : Int := 14 - (j : Int)
    (2 ^ 60 : Int) - q * acc / 2 ^ 60 / ((2 * k) * (2 * k + 1))) (2 ^ 60 : Int)
  a * h / 2 ^ 60

/-- The sine, times 2^60, of x / 2^40 turns. -/
def sinTurn (x : Int) : Int :=
  let t := (x % (2 ^ 40 : Nat)).toNat
  let neg := decide (2 ^ 39 ≤ t)
  let u := t % 2 ^ 39
  let w := if 2 ^ 38 ≤ u then 2 ^ 39 - u else u
  let v := sinTaylor ((w * piFix : Nat) / 2 ^ 43 : Nat)
  if neg then -v else v

/-- 2 to the power y / 2^60, times 2^60. -/
def pow2Fix (y : Int) : Int :=
  let a := y * ln2Fix / 2 ^ 64
  (List.range 24).foldl (fun (acc : Int) (j : Nat) =>
    let k : Int := 24 - (j : Int)
    (2 ^ 60 : Int) + a * acc / 2 ^ 60 / k) (2 ^ 60 : Int)

/-! ### The resampling filter (R216) -/

/-- h(m / 256) * 65,536, rounded: h(t) = sinc(t) * sinc(t / 4) for |t| < 4. -/
def sincCoef (m : Int) : Int :=
  if m = 0 then 65536
  else if m ≤ -1024 ∨ 1024 ≤ m then 0
  else
    let num := 4 * sinTurn (m * 2 ^ 31) * sinTurn (m * 2 ^ 29) * 2 ^ 40
    rnd num (piFix * piFix * (m * m).toNat)

/-- The eight coefficients for the fraction f, for j from -3 to 4; the one nearest the position is adjusted so that they
sum to 65,536. -/
def firCoefs (f : Nat) : List Int :=
  let l := (List.range 8).map fun (k : Nat) => sincCoef (256 * ((k : Int) - 3) - f)
  let sum := l.foldl (· + ·) 0
  l.zipIdx.map fun p => if p.2 = (if f < 128 then 3 else 4) then p.1 + (65536 - sum) else p.1

/-! ### ADPCM4 (R215) -/

/-- The step size at an index. -/
def adpcmStep (q : Nat) : Nat := (([64, 76, 91, 108] : List Nat).getD (q % 4) 64 * 2 ^ (q / 4)) / 4

/-- The index change for a code's magnitude. -/
def adpcmAdj (c : Nat) : Int := if c ≤ 1 then -1 else if c ≤ 3 then 0 else if c ≤ 5 then 1 else if c ≤ 7 then 2 else 3

/-- The decoder's state: the two last samples and the step index. -/
structure Adpcm where
  s1 : Int
  s2 : Int
  q : Nat
deriving DecidableEq, Repr, Inhabited

/-- One code decoded with predictor p. -/
def Adpcm.next (d : Adpcm) (p : Nat) (c : Int) : Adpcm :=
  let pred := if p = 0 then d.s1 else if p = 1 then d.s1 + (d.s1 - d.s2) / 2 else 2 * d.s1 - d.s2
  ⟨clamp24 (pred + c * adpcmStep d.q), d.s1, (clampI 0 63 (d.q + adpcmAdj c.natAbs)).toNat⟩

/-- Sample i of a 32-byte block given as a number, low byte first; 0 where P is 3. -/
def adpcmSample (block i : Nat) : Int :=
  let s0 := sx 24 block
  let p := bits block 31 30
  if p = 3 then 0
  else ((List.range (i + 1)).foldl (fun d j => d.next p (sx 4 (bits block (35 + 4 * j) (32 + 4 * j))))
    (⟨s0, s0, bits block 29 24⟩ : Adpcm)).s1

/-! ### The limiter (R224) -/

/-- The gain of the limiter is kept with this many fraction bits (R224 asks for at least 24; notes/assumptions/18.md). -/
def limBits : Nat := 32

/-- r(j) = min(1, THR / |x|), in fixed point. -/
def limRatio (thr : Nat) (x : Int) : Nat :=
  if x.natAbs ≤ thr then 2 ^ limBits else thr * 2 ^ limBits / x.natAbs

/-- The limiter's gain for the oldest of the values x(n) to x(n + A), from the gain before it. -/
def limGain (g thr rel : Nat) (xs : List Int) : Nat :=
  xs.zipIdx.foldl (fun m p =>
    let r := limRatio thr p.1
    min m ((r : Int) + ((g : Int) - r) * p.2 / (p.2 + 1)).toNat) (min (2 ^ limBits) (g + 2 ^ limBits / (rel * 96)))

end Sys2Proof.Machine
end

