-- ==== Sys2Proof/Machine/Sound.lean ====
section
/-! DEFINITION. The audio engine (spec/07_sound.md, R200 to R233). A block's eight samples are computed in one step, from the
registers as they stood at the instant its computation began (R202). -/

namespace Sys2Proof.Machine

/-! ### The engine's data -/

def Chip.voice (s : Chip) (v : Nat) : Voice := NStore.get {} s.snd.voices v
def Chip.updSnd (s : Chip) (f : Sound → Sound) : Chip := { s with snd := f s.snd }
def Chip.updVoice (s : Chip) (v : Nat) (f : Voice → Voice) : Chip :=
  s.updSnd fun d => { d with voices := NStore.set d.voices v (f (NStore.get {} d.voices v)) }

/-- The numbers of slots: output o of voice v, slot j of channel c of effect unit e, slot j of mix bus m, slot j of
output port p, of S/PDIF output p, of DisplayPort head h. -/
def outKey (v o : Nat) : Nat := v * 2 + o
def effKey (e cj : Nat) : Nat := 1024 + e * 8 + cj
def mixKey (m j : Nat) : Nat := 2048 + m * 8 + j
def portKey (p j : Nat) : Nat := 4096 + p * 16 + j
def spdKey (p j : Nat) : Nat := 5120 + p * 16 + j
def dpaKey (h j : Nat) : Nat := 5376 + h * 16 + j

/-- A slot as reset leaves it (Table 7.3, R226). -/
def slotReset (k : Nat) : Slot := { src := if 4096 ≤ k then 0x3F else 0, cur := Ramp.still 0x1000 }

def Chip.slot (s : Chip) (k : Nat) : Slot := NStore.get (slotReset k) s.snd.slots k
def Chip.setSlot (s : Chip) (k : Nat) (x : Slot) : Chip := s.updSnd fun d => { d with slots := NStore.set d.slots k x }

/-- The gains that are no slot's: voice bus b, master gain 100 + m, dry 200 + e, wet 220 + e. -/
def gainReset (k : Nat) : Ramp := Ramp.still (if 220 ≤ k then 0 else 0x1000)
def Chip.gain (s : Chip) (k : Nat) : Ramp := NStore.get (gainReset k) s.snd.gains k
def Chip.setGain (s : Chip) (k : Nat) (r : Ramp) : Chip := s.updSnd fun d => { d with gains := NStore.set d.gains k r }

/-- Whether a slot crossfades. -/
def Slot.fading (x : Slot) : Bool := x.old.isSome

/-- RAMPING of a slot. -/
def Slot.busy (x : Slot) : Bool := x.fading || x.cur.busy

/-- The next sample of a slot: its ramps go on, and a finished crossfade lets the old source go. -/
def Slot.step (x : Slot) : Slot :=
  match x.old with
  | some (o, r) => if r.step.busy then { x with cur := x.cur.step, old := some (o, r.step) }
                   else { x with cur := x.cur.step, old := none }
  | none => { x with cur := x.cur.step }

/-- A bit of AUD_STAT set (R233). -/
def Chip.audStick (s : Chip) (f : Fd) : Chip := s.stick f 0 277

/-- A bit of a unit's STAT set, and the summary bit with it (R233). -/
def Chip.unitStick (s : Chip) (f : Fd) (i : Nat) (summary : Fd) : Chip := (s.setFld f i 0 1).audStick summary

/-- The instant G(n), times 3 (R201). -/
def Chip.graph3 (s : Chip) (n : Int) : Int := 3 * (s.fld64 F.audEpochLo_EPOCH F.audEpochHi_EPOCH : Nat) + n * 31250

/-- Whether the instant a is not before the instant b, both times 3, on the count that wraps. -/
def notBefore3 (a b : Int) : Bool := decide ((a - b) % (3 * 2 ^ 64 : Nat) < (3 * 2 ^ 63 : Nat))

/-- The present instant, times 3, as the instants of block k are compared with it: without TBLOCK the PLLs may have gained
0.01 ppm by then (R201). -/
def Chip.now3 (s : Chip) (k : Nat) : Int := (3 * s.now + if s.on F.audClk_TBLOCK then 0 else k * 250000 / 10 ^ 8 : Nat)

/-- The computation of block k begins at G(8k - 16) (R202). -/
def Chip.blockDue (s : Chip) (k : Nat) : Bool := notBefore3 (s.now3 k) (s.graph3 (8 * k - 16))

/-- Block k leaves at G(8k), within 2 tk (R201). -/
def Chip.sendDue (s : Chip) (k : Nat) : Bool := notBefore3 (s.now3 k + 6) (s.graph3 (8 * k))

/-- The last block whose computation has begun by now, where there is one not yet computed (R202). -/
def Chip.lastDue (s : Chip) : Option Nat :=
  if s.on F.audStat_RUNNING ∧ s.blockDue s.snd.block then
    let d := (s.now3 s.snd.block - s.graph3 (8 * s.snd.block - 16)) % (3 * 2 ^ 64 : Nat)
    some (s.snd.block + d.toNat / 250000)
  else none

/-- The first block that takes what is written now. -/
def Chip.nextTaking (s : Chip) : Nat := match s.lastDue with | some k => k + 1 | none => s.snd.block

/-- The voice, voice-bus, effect, mix-bus and slot registers, which HOLD keeps from the engine (R203). -/
def heldByHold (id : RegId) : Bool :=
  [RegId.vCtrl, .vAddr, .vStart, .vLoop, .vEnd, .vStep, .vEnv0, .vEnv1, .vLfo, .vOut, .vWptr, .vFmnet, .vFm, .audVbus, .effCtrl,
    .effMem, .effMix, .effP, .effIn, .mbCtrl, .mbLim, .mbRel, .mbIn, .outSlot, .spdSlot, .dpaSlot].contains id

/-- The audio registers as the engine would take them at the present instant (R202, R203). -/
def Chip.audRegs (s : Chip) : List (FKey × Nat) :=
  let live := s.flds.filter fun p => p.1.id.block == .aud
  match s.snd.held with
  | none => live
  | some h => h ++ live.filter fun p => !heldByHold p.1.id

/-- What an audio register held is kept for the blocks whose computation has begun, before the register is written
(R202). -/
def Chip.audTake (s : Chip) : Chip :=
  match s.lastDue with
  | some k =>
    if s.snd.taken.any fun p => decide (k ≤ p.1) then s
    else s.updSnd fun d => { d with taken := d.taken ++ [(k, s.audRegs)] }
  | none => s

/-- The registers that block k is computed from (R202). -/
def Chip.regsFor (s : Chip) (k : Nat) : List (FKey × Nat) :=
  match s.snd.taken.find? fun p => decide (k ≤ p.1) with
  | some p => p.2
  | none => s.audRegs

/-! ### Start, stop, commands (R203, R205, R211, R220) -/

/-- The voice goes IDLE; with ENDEV it sets its VEND bit and raises AUD_VEND (R217, R219, R220). -/
def Chip.voiceIdle (s w : Chip) (v : Nat) : Chip :=
  let t := s.setFld F.vStat_STATE v 0 0
  if w.on F.vCtrl_ENDEV v ∧ s.fld F.vStat_STATE v ≠ 0 then
    let w := v / 32
    (t.setFld F.audVend_VEND w 0 (Nat.lor (t.fld F.audVend_VEND w) (2 ^ (v % 32)))).raise 278
  else t

/-- The engine stops: every voice becomes IDLE, and every output sends zero samples (R205). -/
def Chip.audStop (s : Chip) : Chip :=
  let t := (List.range 512).foldl (fun t v => if t.fld F.vStat_STATE v = 0 then t else t.voiceIdle t v) s
  (t.setFld F.audStat_RUNNING 0 0 0).updSnd fun d =>
    { d with stopping := false, taken := [], outs := [], ready := [], sending := [] }

/-- HOLD set keeps the registers as they stand; HOLD cleared lets go of them and of the commands it kept (R203). -/
def Chip.setHold (s : Chip) (b : Bool) : Chip :=
  let t := s.setOn F.audCtrl_HOLD 0 0 b
  if b then if s.on F.audCtrl_HOLD then t else t.updSnd fun d => { d with held := some s.audRegs }
  else t.updSnd fun d =>
    { d with held := none, voices := d.voices.map fun p => (p.1, { p.2 with
        cmds := p.2.cmds.map fun c => if c.held then { c with held := false, from_ := s.nextTaking } else c }) }

/-- The start that a write of RUN = 1 arms: its instant in 1/3 tk, and its first sample (R205). -/
def Chip.startArm (s : Chip) : Nat × Nat :=
  let at3 := 3 * (s.now + 100000)
  let e3 := 3 * s.fld64 F.audEpochLo_EPOCH F.audEpochHi_EPOCH
  if s.on F.audClk_TBLOCK then
    let n := (at3 - e3 + 31249) / 31250
    (e3 + n * 31250, n)
  else (at3, 0)

/-- A write of AUD_CTRL (R203, R205): a refused start sets CFG_ERR and leaves RUN; RUN = 0 stops the engine once the block
in progress has been sent (DEDUCED, notes/assumptions/76.md). -/
def Chip.writeAudCtrl (s : Chip) (v : Nat) : Chip :=
  let t := (s.setFld F.audCtrl_TICKDIV 0 0 (v / 2 ^ 8)).setHold (bit v 1)
  if bit v 0 then
    if (s.on F.audStat_RUNNING ∧ !s.snd.stopping) ∨ s.snd.arm.isSome then t.setFld F.audCtrl_RUN 0 0 1
    else if s.on F.audStat_PLL_LOCK then (t.setFld F.audCtrl_RUN 0 0 1).updSnd fun d => { d with arm := some s.startArm }
    else t.audStick F.audStat_CFG_ERR
  else
    (t.setFld F.audCtrl_RUN 0 0 0).updSnd fun d => { d with arm := none, stopping := s.on F.audStat_RUNNING }

/-- The engine starts at its starting instant; without TBLOCK that instant is written to EPOCH (R205). -/
def Chip.audStart (s : Chip) : Chip :=
  match s.snd.arm with
  | some (at3, n) =>
    if notBefore3 (3 * s.now : Nat) (at3 : Nat) then
      let t := if s.on F.audStat_RUNNING then s.audStop else s
      let t := if t.on F.audClk_TBLOCK then t else t.setFld64 F.audEpochLo_EPOCH F.audEpochHi_EPOCH 0 0 (at3 / 3)
      (t.setFld F.audStat_RUNNING 0 0 1).updSnd fun d =>
        { d with arm := none, block := n / 8, sent := n / 8, ticks := 0, mixes := [] }
    else s
  | none => s

/-- The audio PLLs reach lock (R205, R211). -/
def Chip.audPllLock (s : Chip) : Chip := if s.on F.audClk_PLL_EN then s.setFld F.audStat_PLL_LOCK 0 0 1 else s

/-- A write of AUD_CLK: TBLOCK is kept while the engine runs (Table 7.5). -/
def Chip.writeAudClk (s : Chip) (v : Nat) : Chip :=
  if s.on F.audStat_RUNNING ∧ bit v 1 ≠ s.on F.audClk_TBLOCK then s.audStick F.audStat_CFG_ERR
  else
    let t := s.setWord .audClk 0 0 v
    if bit v 0 then t else t.setFld F.audStat_PLL_LOCK 0 0 0

/-- A write of Vv_CMD: the command replaces one that waits and that no block begun before takes (R202, R203, R220). -/
def Chip.writeVoiceCmd (s : Chip) (v w : Nat) : Chip :=
  let t := if bit w 2 then some (s.fld64 F.vAtLo_T F.vAtHi_T v) else none
  let c : VCmd := ⟨w % 4, t, s.nextTaking, s.on F.audCtrl_HOLD && !bit w 2⟩
  s.updVoice v fun x => { x with cmds := x.cmds.filter (fun y => !y.held && decide (y.from_ < c.from_)) ++ [c] }

/-- A write of a slot: held where the slot crossfades (R209). -/
def Chip.slotWritten (s : Chip) (pend : Fd) (i j k : Nat) : Chip :=
  if (s.slot k).fading then s.setFld pend i j 1 else s

/-- The source and gain of slot k as the registers of w give them, with its ramp field, and where its PEND bit is. -/
def Chip.slotRegs (w : Chip) (k : Nat) : Nat × Nat × Nat × (Fd × Nat × Nat) :=
  if k < 1024 then
    (w.fld F.vOut_EN (k / 2) (k % 2) * 64 + w.fld F.vOut_BUS (k / 2) (k % 2), w.fld F.vOut_GAIN (k / 2) (k % 2),
      w.fld F.vCtrl_RAMP (k / 2), (F.vOut_PEND, k / 2, k % 2))
  else if k < 2048 then
    let e := (k - 1024) / 8
    (w.fld F.effIn_SRC e (k % 8), w.fld F.effIn_GAIN e (k % 8), w.fld F.effCtrl_RAMP e, (F.effIn_PEND, e, k % 8))
  else if k < 4096 then
    let m := (k - 2048) / 8
    (w.fld F.mbIn_SRC m (k % 8), w.fld F.mbIn_GAIN m (k % 8), w.fld F.mbCtrl_RAMP m, (F.mbIn_PEND, m, k % 8))
  else
    let g := if k < 5120 then (F.outSlot_SRC, F.outSlot_RAMP, F.outSlot_PEND, (k - 4096) / 16)
      else if k < 5376 then (F.spdSlot_SRC, F.spdSlot_RAMP, F.spdSlot_PEND, (k - 5120) / 16)
      else (F.dpaSlot_SRC, F.dpaSlot_RAMP, F.dpaSlot_PEND, (k - 5376) / 16)
    (w.fld g.1 g.2.2.2 (k % 16), 0x1000, w.fld g.2.1 g.2.2.2 (k % 16), (g.2.2.1, g.2.2.2, k % 16))

/-- The write that a slot holds is taken once its crossfade has ended (R209). -/
def Chip.heldWriteTaken (s : Chip) (k : Nat) : Chip :=
  let p := (s.slotRegs k).2.2.2
  if (s.slot k).fading then s else s.setFld p.1 p.2.1 p.2.2 0

/-- A slot takes its registers at the start of a block: a new source begins a crossfade, a new gain a ramp; a write that
finds the slot crossfading is held (R208, R209). -/
def Chip.takeSlot (s w : Chip) (k : Nat) : Chip :=
  let r := w.slotRegs k
  let x := s.slot k
  let p := r.2.2.2
  if s.on p.1 p.2.1 p.2.2 || (x.src == r.1 && x.cur.g1 == r.2.1) then s
  else if x.fading then s.setFld p.1 p.2.1 p.2.2 1
  else
    let n := rampLen r.2.2.1
    if x.src = r.1 then s.setSlot k { x with cur := x.cur.aim r.2.1 n }
    else s.setSlot k ⟨r.1, ⟨0, r.2.1, 0, n⟩, some (x.src, x.cur.aim 0 n)⟩

/-- A gain takes its register at the start of a block (R208). -/
def Chip.takeGain (s : Chip) (k g ramp : Nat) : Chip :=
  if (s.gain k).g1 = g then s else s.setGain k ((s.gain k).aim g (rampLen ramp))

/-- The slots in order. -/
def slotKeys : List Nat :=
  (List.range 1024) ++ (List.range 128).map (1024 + ·) ++ (List.range 256).map (2048 + ·) ++
    (List.range 256).map (4096 + ·) ++ (List.range 64).map (5120 + ·) ++ (List.range 128).map (5376 + ·)

/-- Every target taken at the start of a block; the outputs of a voice that stops or has stopped keep their ramp to 0. -/
def Chip.takeTargets (s w : Chip) : Chip :=
  let t := slotKeys.foldl (fun t k =>
    if k < 1024 ∧ (t.fld F.vStat_STATE (k / 2) = 5 ∨ (t.voice (k / 2)).stopped) then t else t.takeSlot w k) s
  let t := (List.range 64).foldl (fun t b => t.takeGain b (w.fld F.audVbus_GAIN b) (w.fld F.audVbus_RAMP b)) t
  let t := (List.range 32).foldl (fun t m => t.takeGain (100 + m) (w.fld F.mbCtrl_GAIN m) (w.fld F.mbCtrl_RAMP m)) t
  (List.range 16).foldl (fun t e =>
    (t.takeGain (200 + e) (w.fld F.effMix_DRY e) (w.fld F.effCtrl_RAMP e)).takeGain (220 + e) (w.fld F.effMix_WET e)
      (w.fld F.effCtrl_RAMP e)) t

/-! ### Voices (R213 to R221, R228) -/

/-- What one source sample gives: its value, a fetch that failed, its address where the store is off, poisoned beats, a
block whose P is 3, and the code units read. -/
structure VX where
  val : Int := 0
  err : Bool := false
  off : Option Nat := none
  bad : List Nat := []
  p3 : Bool := false
  units : List Nat := []
deriving DecidableEq, Repr, Inhabited

/-- The ring size of a stream voice. -/
def Chip.ringSize (w : Chip) (v : Nat) : Nat := 2 ^ (w.fld F.vEnd_END v % 32)

/-- The bytes of a sample of a direct format. -/
def vWidth (src : Nat) : Nat := if src = 1 then 1 else if src = 2 then 2 else 3

/-- A byte offset within a voice's data: in a stream it wraps in the ring. -/
def Chip.vOff (w : Chip) (v o : Nat) : Nat := if w.on F.vCtrl_STREAM v then o % w.ringSize v else o

/-- Source sample i of voice v from the pattern store (R214, R215, R228). -/
def Chip.vFetch (s w : Chip) (v : Nat) (x : Voice) (i : Nat) : VX :=
  let addr (o : Nat) : Nat := x.addr + w.vOff v o
  let bytes : List Nat :=
    if x.src = 4 then (List.range 32).map fun k => addr (i / 56 * 32 + k)
    else (List.range (vWidth x.src)).map fun k => addr (i * vWidth x.src + k)
  if bytes.any fun a => decide (a < 0x08000000 ∨ 0x16000000 ≤ a) then { err := true }
  else if !s.domOn 38 then { err := true, off := bytes.head? }
  else
    let units := (bytes.map fun a => a / 16 * 16).eraseDups
    let bad := units.filter fun u => match Store.get? u s.marks with | none => false | some m => m != .correctable
    let data := bytes.foldr (fun a acc => (Memory.byte s.mem a).toNat + 256 * acc) 0
    if x.src = 4 then
      let b0 := bad.contains (addr (i / 56 * 32) / 16 * 16)
      let val := if b0 ∨ (!bad.isEmpty ∧ 24 ≤ i % 56) then 0 else adpcmSample data (i % 56)
      { val := val, bad := bad.map (· / 16), p3 := bits data 31 30 == 3 && !b0, units := units }
    else
      { val := if bad.isEmpty then sx (8 * vWidth x.src) data * 2 ^ (24 - 8 * vWidth x.src) else 0,
        bad := bad.map (· / 16), units := units }

/-- x(i) with the rules of R216 for indices before the start and after the end. -/
def Chip.vAt (s w : Chip) (v : Nat) (x : Voice) (i : Int) : VX :=
  if w.on F.vCtrl_STREAM v then (if i < 0 then {} else s.vFetch w v x i.toNat)
  else
    let e := w.fld F.vEnd_END v
    if i < x.start then {}
    else if i < e then s.vFetch w v x i.toNat
    else if w.on F.vCtrl_LOOP v then s.vFetch w v x (w.fld F.vLoop_LOOP v + (i.toNat - e))
    else {}

/-- The byte offset at which source sample i is read: an ADPCM4 block's first sample needs its header, so that the
offset is 0 at key-on (R215, R218; DEDUCED, notes/assumptions/77.md). -/
def vByte (src i : Nat) : Nat :=
  if src = 4 then i / 56 * 32 + (if i % 56 = 0 then 0 else 4 + i % 56 / 2) else i * vWidth src

/-- The byte offset just after source sample i. -/
def vByteEnd (src i : Nat) : Nat := if src = 4 then i / 56 * 32 + 4 + i % 56 / 2 + 1 else (i + 1) * vWidth src

/-- Vv_POS as it reads (R218). -/
def Chip.vPos (s : Chip) (v : Nat) : Nat :=
  let x := s.voice v
  if s.on F.vCtrl_STREAM v then vByte x.src (x.phi / 2 ^ 24) % s.ringSize v else x.phi / 2 ^ 24 % 2 ^ 32

/-- Whether every byte of x(i + 4) lies before WPTR in the ring (R218). -/
def Chip.vReady (w : Chip) (v : Nat) (x : Voice) : Bool :=
  let i := x.phi / 2 ^ 24
  let z := w.ringSize v
  let fill := (w.fld F.vWptr_WPTR v % z + z - vByte x.src i % z) % z
  decide (vByteEnd x.src (i + 4) - vByte x.src i ≤ fill)

/-- STEP as the LFO modulates it; the rounding of the product is a free bit (R216, notes/assumptions/18.md). -/
def Chip.vStepNow (s w : Chip) (v : Nat) (x : Voice) : Nat × Chip :=
  let st := min (w.fld F.vStep_STEP v) (16 * 2 ^ 24)
  let d := w.fld F.vLfo_DEPTH v
  if d = 0 ∨ w.fld F.vLfo_RATE v = 0 ∨ x.lam = 0 then (st, s)
  else
    let y := (d : Int) * sinTurn (((x.lam * 2 ^ 40 / 9600000 : Nat)) : Int) / 1200
    let r := s.free 1
    (((st : Int) * pow2Fix y / 2 ^ 60).toNat + r.1, r.2)

/-- One sample of a PCM or ADPCM voice before its envelope, and what its eight source samples met (R216). -/
def Chip.vPcm (s w : Chip) (v : Nat) (x : Voice) : Int × List VX :=
  let i : Nat := x.phi / 2 ^ 24
  let xs := (List.range 8).map fun (k : Nat) => s.vAt w v x ((i : Int) + k - 3)
  let acc := ((firCoefs (bits x.phi 23 16)).zip xs).foldl (fun a p => a + p.1 * p.2.val) 0
  (clamp24 (rnd acc 65536), xs)

/-- The operators of an FM voice, in ascending order: their outputs times 2^60 (R221). -/
def Chip.vFmOps (w : Chip) (v : Nat) (x : Voice) : List Int :=
  (List.range 4).foldl (fun (os : List Int) k =>
    let link (j : Nat) : Bool := w.on (([F.vFmnet_L01, F.vFmnet_L02, F.vFmnet_L03, F.vFmnet_L12, F.vFmnet_L13,
      F.vFmnet_L23] : List Fd).getD (if j = 0 then k - 1 else if j = 1 then k + 1 else 5) F.vFmnet_L01) v
    let m := (List.range k).foldl (fun a j => if link j then a + os.getD j 0 else a) 0
    let m := if w.fld F.vCtrl_FBOP v = k then m + x.ops.getD k 0 * w.fld F.vCtrl_FB v / 16 else m
    let ph : Int := (x.theta.getD k 0 : Nat) + m / 2 ^ 20
    let e : Nat := if w.on F.vFm_ENVF v k then x.env else 4095 * 2 ^ 24
    os ++ [sinTurn ph * w.fld F.vFm_LEVEL v k / 4095 * e / (4095 * 2 ^ 24)]) []

/-- One sample of an FM voice: correct to within one step, which is a free value (R221). -/
def Chip.vFm (s w : Chip) (v : Nat) (x : Voice) : Int × List Int × Chip :=
  let os := w.vFmOps v x
  let sum := os.zipIdx.foldl (fun a p => if bit (w.fld F.vFmnet_CAR v) p.2 then a + p.1 else a) 0
  let r := s.free 2
  let d : Int := if w.fld F.vFmnet_CAR v = 0 then 0 else if r.1 = 0 then -1 else if r.1 = 1 then 1 else 0
  (clamp24 (rnd (8388607 * sum) (2 ^ 60) + d), os, r.2)

/-- KEYON taken by a voice (R213, R214, R220); one that the start left without a good unit refuses it (R514). -/
def Chip.keyOn (s w : Chip) (v : Nat) : Chip :=
  let src := w.fld F.vCtrl_SRC v
  let st := w.fld F.vStart_START v
  let en := w.fld F.vEnd_END v
  let lp := w.fld F.vLoop_LOOP v
  let stream := w.on F.vCtrl_STREAM v
  let bad := decide (src = 0 ∨ 6 ≤ src) || (w.on F.vCtrl_LOOP v && decide (en ≤ lp)) || (!stream && decide (en ≤ st)) ||
    (src == 4 && decide (st % 56 ≠ 0 ∨ lp % 56 ≠ 0 ∨ en % 56 ≠ 0)) || s.dead.contains (4 * 4096 + v)
  if bad then (s.unitStick F.vStat_BAD_SRC v F.audStat_VOICE).voiceIdle w v
  else
    let t := if (s.voice v).stopped ∨ s.fld F.vStat_STATE v = 5 then
        [0, 1].foldl (fun t o => t.setSlot (outKey v o) { t.slot (outKey v o) with
          cur := Ramp.still (w.fld F.vOut_GAIN v o), old := none }) s
      else s
    (t.updVoice v fun x => { x with phi := if stream then 0 else st * 2 ^ 24, lam := 0, src := src,
                                    addr := w.fld F.vAddr_ADDR v * 16, start := if stream then 0 else st,
                                    theta := [0, 0, 0, 0], ops := [0, 0, 0, 0], bad := [], stopped := false }).setFld F.vStat_STATE v 0 1

/-- KEYOFF taken by a voice (R219, R220). -/
def Chip.keyOff (s : Chip) (v : Nat) : Chip :=
  let st := s.fld F.vStat_STATE v
  if 1 ≤ st ∧ st ≤ 3 then (s.updVoice v fun x => { x with relFrom := x.env }).setFld F.vStat_STATE v 0 4 else s

/-- Every gain of a slot ramped to 0 over n samples, the source it leaves too. -/
def Slot.fadeOut (x : Slot) (n : Nat) : Slot :=
  { x with cur := x.cur.aim 0 n, old := x.old.map fun p => (p.1, p.2.aim 0 n) }

/-- STOP taken by a voice (R220). -/
def Chip.voiceStop (s w : Chip) (v : Nat) : Chip :=
  if s.fld F.vStat_STATE v = 0 then s
  else
    let n := rampLen (w.fld F.vCtrl_RAMP v)
    ([0, 1].foldl (fun t o => t.setSlot (outKey v o) ((t.slot (outKey v o)).fadeOut n)) s).setFld F.vStat_STATE v 0 5

/-- The commands of a voice without those that a later one, which block k would take, has replaced. -/
def pruneCmds (k : Nat) (l : List VCmd) : List VCmd :=
  match l with
  | [] => []
  | c :: t => if t.any fun y => decide (y.from_ ≤ k) then pruneCmds k t else c :: t

/-- The command that waits at a voice, taken at sample n where it is due: the first of a block for AT = 0, and for AT = 1
the first whose instant has come, LATE where an earlier block held it (R220). `first` marks the first sample of a block. -/
def Chip.takeCmd (s w : Chip) (v n : Nat) (first : Bool) : Chip :=
  match pruneCmds (n / 8) (s.voice v).cmds with
  | [] => s
  | c :: rest =>
    let reached := fun (t : Nat) (n : Int) => notBefore3 (s.graph3 n) (3 * t : Nat)
    let due : Bool := match c.at_ with
      | none => first
      | some t => reached t n
    if due ∧ !c.held ∧ c.from_ ≤ n / 8 then
      let late : Bool := match c.at_ with | some t => first && reached t (n - 1 : Int) | none => false
      let t := if late then s.unitStick F.vStat_LATE v F.audStat_VOICE else s
      let t := t.updVoice v fun x => { x with cmds := rest }
      match c.op with
      | 0 => t
      | 1 => t.keyOn w v
      | 2 => t.keyOff v
      | _ => t.voiceStop w v
    else s

/-- The stages of the envelope that take no time passed through (R219). -/
def Chip.envInstant (s w : Chip) (v : Nat) : Chip :=
  let full := 4095 * 2 ^ 24
  let t := if s.fld F.vStat_STATE v = 1 ∧ (w.fld F.vEnv0_ATTACK v = 0 ∨ full ≤ (s.voice v).env) then
      (s.updVoice v fun x => { x with env := full }).setFld F.vStat_STATE v 0 2 else s
  let sus := w.fld F.vEnv1_SUSTAIN v * 2 ^ 24
  let t := if t.fld F.vStat_STATE v = 2 ∧ (w.fld F.vEnv0_DECAY v = 0 ∨ (t.voice v).env ≤ sus) then
      t.setFld F.vStat_STATE v 0 3 else t
  let t := if t.fld F.vStat_STATE v = 3 then t.updVoice v fun x => { x with env := sus } else t
  if t.fld F.vStat_STATE v = 4 ∧ (w.fld F.vEnv1_RELEASE v = 0 ∨ (t.voice v).env = 0) then
    (t.updVoice v fun x => { x with env := 0 }).voiceIdle w v else t

/-- The envelope after one sample (R219). -/
def Chip.envStep (s w : Chip) (v : Nat) : Chip :=
  let full := 4095 * 2 ^ 24
  match s.fld F.vStat_STATE v with
  | 1 => s.updVoice v fun x => { x with env := min full (x.env + full / (w.fld F.vEnv0_ATTACK v * 96)) }
  | 2 =>
    let low := w.fld F.vEnv1_SUSTAIN v * 2 ^ 24
    s.updVoice v fun x => { x with env := max low (x.env - (full - low) / (w.fld F.vEnv0_DECAY v * 96)) }
  | 4 => s.updVoice v fun x => { x with env := x.env - max 1 (x.relFrom / (w.fld F.vEnv1_RELEASE v * 96)) }
  | _ => s

/-- What the fetches of a sample met, reported: each poisoned beat when the voice comes to it (R228, R357). -/
def Chip.vReport (s : Chip) (v : Nat) (xs : List VX) : Chip :=
  let units := (xs.flatMap fun x => x.units).eraseDups
  let t := ((units.foldl (fun t u => t.touch u 16) s).checkUnits units).2
  let t : Chip := match xs.findSome? fun x => x.off with | some a => t.logOff (.own 0x40) a | none => t
  let t := if xs.any fun x => x.p3 then t.unitStick F.vStat_BAD_SRC v F.audStat_VOICE else t
  let now := (xs.flatMap fun x => x.bad).eraseDups
  let t := (now.filter fun b => !(t.voice v).bad.contains b).foldl (fun t b =>
    let m := Master.own 0x40
    let a := b * 16
    (((t.logErr 1 m (t.storeOf a) (t.localAddr a)).logErr 2 m (t.storeOf a) (t.localAddr a)).unitStick F.vStat_POISON v
      F.audStat_VOICE).audStick F.audStat_POISON) t
  if now = (t.voice v).bad then t else t.updVoice v fun x => { x with bad := now }

/-- The position after a graph sample: a voice that is not looped goes IDLE at END, a looped one goes back (R216, R217). -/
def Chip.vAdvance (s w : Chip) (v : Nat) : Chip :=
  let x := s.voice v
  let r := s.vStepNow w v x
  let lam := (x.lam + w.fld F.vLfo_RATE v) % 9600000
  let t := r.2.updVoice v fun y => { y with phi := y.phi + r.1, lam := lam }
  if w.on F.vCtrl_STREAM v then t
  else
    let e := w.fld F.vEnd_END v
    let i := (t.voice v).phi / 2 ^ 24
    if i < e then t
    else if w.on F.vCtrl_LOOP v ∧ w.fld F.vLoop_LOOP v < e then
      let d := e - w.fld F.vLoop_LOOP v
      t.updVoice v fun y => { y with phi := y.phi - ((i - e) / d + 1) * d * 2 ^ 24 }
    else t.voiceIdle w v

/-- One sample of an active voice: its value to its outputs, and the voice moved on. -/
def Chip.voiceSample (s w : Chip) (v : Nat) : Int × Chip :=
  let t := s.envInstant w v
  if t.fld F.vStat_STATE v = 0 then (0, t)
  else
    let x := t.voice v
    if x.src = 5 then
      let r := t.vFm w v x
      let st := r.2.2.vStepNow w v x
      let q := st.2.updVoice v fun y =>
        { y with theta := (List.range 4).map fun k => (y.theta.getD k 0 + st.1 * w.fld F.vFm_RATIO v k) % 2 ^ 40,
                 lam := (y.lam + w.fld F.vLfo_RATE v) % 9600000, ops := r.2.1 }
      (r.1, q.envStep w v)
    else if w.on F.vCtrl_STREAM v ∧ !w.vReady v x then (0, (t.unitStick F.vStat_STARVE v F.audStat_VOICE).envStep w v)
    else
      let r := t.vPcm w v x
      let q := t.vReport v r.2
      if r.2.any fun y => y.err then (0, (q.unitStick F.vStat_ADDR_ERR v F.audStat_VOICE).voiceIdle w v)
      else (rnd (r.1 * x.env) (4095 * 2 ^ 24), (q.vAdvance w v).envStep w v)

/-- What a voice output adds to the voice buses: bus and value, for its source and for the one it leaves (R209). -/
def Slot.feeds (x : Slot) (y : Int) : List (Nat × Int) :=
  let one (src : Nat) (r : Ramp) : List (Nat × Int) := if 64 ≤ src then [(src - 64, gainMul y r.now)] else []
  one x.src x.cur ++ (match x.old with | some (o, r) => one o r | none => [])

/-- The two outputs of voice v moved to the next sample. -/
def Chip.voiceOutsStep (s : Chip) (v : Nat) : Chip :=
  [0, 1].foldl (fun t o =>
    if (t.slot (outKey v o)).busy then t.setSlot (outKey v o) (t.slot (outKey v o)).step else t) s

/-- One sample of voice v and its two outputs; the gains of an IDLE voice ramp too (R208, R209). -/
def Chip.voiceRun (s w : Chip) (v : Nat) : List (Nat × Int) × Chip :=
  if s.fld F.vStat_STATE v = 0 then ([], s.voiceOutsStep v)
  else
    let r := s.voiceSample w v
    let o := [0, 1].flatMap fun o => (r.2.slot (outKey v o)).feeds r.1
    let t := r.2.voiceOutsStep v
    let done := t.fld F.vStat_STATE v = 5 ∧ [0, 1].all fun o => !(t.slot (outKey v o)).busy
    (o, if done then (t.updVoice v fun x => { x with stopped := true }).voiceIdle w v else t)

/-! ### Buses, effects, mix buses (R206, R207, R222 to R224, R231) -/

/-- The values of one sample that slots select from. -/
structure AEnv where
  vb : List Int := []
  fx : List Int := []
  mb : List Int := []
  ins : List (Nat × Int) := []
deriving DecidableEq, Repr, Inhabited

/-- The value of a source code (Table 7.2). -/
def AEnv.src (a : AEnv) (c : Nat) : Int :=
  if 0x40 ≤ c ∧ c < 0x80 then a.vb.getD (c - 0x40) 0
  else if 0x80 ≤ c ∧ c < 0xA0 then a.fx.getD (c - 0x80) 0
  else if 0xA0 ≤ c ∧ c < 0xC0 then a.mb.getD (c - 0xA0) 0
  else if 0x100 ≤ c ∧ c < 0x180 then NStore.get 0 a.ins (c - 0x100)
  else 0

/-- What a slot gives for the present sample. -/
def Slot.value (x : Slot) (f : Nat → Int) : Int :=
  gainMul (f x.src) x.cur.now + (match x.old with | some (o, r) => gainMul (f o) r.now | none => 0)

/-- Whether a product of the slot saturates for the present sample (R207). -/
def Slot.clips (x : Slot) (f : Nat → Int) : Bool :=
  let one (v : Int) (g : Nat) : Bool := gainMul v g != rnd (v * g) 4096
  one (f x.src) x.cur.now || (match x.old with | some (o, r) => one (f o) r.now | none => false)

/-- The sum of the slots numbered from k, n of them. -/
def Chip.slotSum (s : Chip) (k n : Nat) (f : Nat → Int) : Int :=
  (List.range n).foldl (fun a j => a + (s.slot (k + j)).value f) 0

/-- Slots k to k + n - 1 moved to the next sample. -/
def Chip.slotsStep (s : Chip) (k n : Nat) : Chip :=
  (List.range n).foldl (fun t j =>
    if (t.slot (k + j)).busy then t.setSlot (k + j) (t.slot (k + j)).step else t) s

/-- A gain moved to the next sample. -/
def Chip.gainStep (s : Chip) (k : Nat) : Chip := if (s.gain k).busy then s.setGain k (s.gain k).step else s

/-- The need of an effect type in samples (Table 7.10). -/
def Chip.effNeed (w : Chip) (e : Nat) : Nat :=
  let p (j : Nat) : Nat := w.fld F.effP_P e j
  match w.fld F.effCtrl_TYPE e with
  | 1 => p 1 + ([1031, 1327, 1523, 1747, 1951, 2161, 2357, 2557] : List Nat).foldl
      (fun a n => a + ((p 3 + 256) * n + 255) / 256) 0
  | 2 => p 0 + p 1
  | 4 => 2 * (p 0 + p 1 + 1)
  | _ => 0

/-- Whether a unit's allocation or need is wrong (R223). -/
def Chip.effBad (w : Chip) (e : Nat) : Bool :=
  decide (1024 < w.fld F.effMem_BASE e + w.fld F.effMem_SIZE e ∨ w.fld F.effMem_SIZE e * 1024 < w.effNeed e)

/-- Whether another unit's allocation overlaps that of unit e. -/
def Chip.effShared (w : Chip) (e : Nat) : Bool :=
  (List.range 16).any fun o => o != e && decide (
    w.fld F.effMem_BASE e < w.fld F.effMem_BASE o + w.fld F.effMem_SIZE o ∧
    w.fld F.effMem_BASE o < w.fld F.effMem_BASE e + w.fld F.effMem_SIZE e)

def Chip.effSt (s : Chip) (e : Nat) : EffSt := NStore.get {} s.snd.effs e
def Chip.updEff (s : Chip) (e : Nat) (f : EffSt → EffSt) : Chip :=
  s.updSnd fun d => { d with effs := NStore.set d.effs e (f (NStore.get {} d.effs e)) }

/-- A unit at the start of a block: a change of TYPE, BASE or SIZE clears its allocation and ramps WET from 0; a change of
a delay crossfades its read tap over RAMP; the inputs of the last block come out (R222, R223). -/
def Chip.effBegin (s w : Chip) (e : Nat) : Chip :=
  let x := s.effSt e
  let n := rampLen (w.fld F.effCtrl_RAMP e)
  let fresh := x.typ != w.fld F.effCtrl_TYPE e || x.base != w.fld F.effMem_BASE e || x.size != w.fld F.effMem_SIZE e
  let tap (y : Slot) (p : Nat) : Slot :=
    if fresh then { src := p, cur := Ramp.still 0x1000 }
    else if y.fading || y.src == p then y
    else ⟨p, ⟨0, 0x1000, 0, n⟩, some (y.src, y.cur.aim 0 n)⟩
  let y : EffSt :=
    { typ := w.fld F.effCtrl_TYPE e
      base := w.fld F.effMem_BASE e
      size := w.fld F.effMem_SIZE e
      tap0 := tap x.tap0 (w.fld F.effP_P e 0)
      tap1 := tap x.tap1 (w.fld F.effP_P e 1)
      line0 := if fresh then [] else x.line0
      line1 := if fresh then [] else x.line1
      in0 := if x.new0.isEmpty then x.in0 else x.new0
      in1 := if x.new1.isEmpty then x.in1 else x.new1 }
  let t := s.updEff e fun _ => y
  let t := if fresh then t.setGain (220 + e) ⟨0, w.fld F.effMix_WET e, 0, n⟩ else t
  if w.effBad e then t.unitStick F.effStat_MEM_ERR e F.audStat_EFF else t

/-- A wet value whose arithmetic the spec does not fix to the step: a free mix word (notes/assumptions/18.md). -/
def Chip.freeWet (s : Chip) : Int × Chip :=
  let r := s.free 36
  (sx 36 r.1, r.2)

/-- The two wet values of a unit for its dry inputs, and its delay lines moved on (R223, Table 7.10). -/
def Chip.effWet (s w : Chip) (e : Nat) (d0 d1 : Int) : Int × Int × Chip :=
  let x := s.effSt e
  if w.effBad e then (0, 0, s)
  else if x.typ = 0 then (d0, d1, s)
  else
    let fb := sx 12 (w.fld F.effP_P e 2)
    let w0 := x.tap0.value fun p => if p = 0 then d0 else x.line0.getD (p - 1) 0
    let w1 := x.tap1.value fun p => if p = 0 then d1 else x.line1.getD (p - 1) 0
    let cross := bit (w.fld F.effP_P e 3) 0
    let put (d f : Int) (l : List Int) : List Int := (clamp24 (d + rnd (fb * f) 2048) :: l).take (x.size * 1024)
    let t := s.updEff e fun y => { y with line0 := put d0 (if cross then w1 else w0) y.line0,
                                          line1 := put d1 (if cross then w0 else w1) y.line1,
                                          tap0 := y.tap0.step, tap1 := y.tap1.step }
    if x.typ = 2 ∧ !w.effShared e then (w0, w1, t)
    else
      let a := t.freeWet
      let b := a.2.freeWet
      (a.1, b.1, b.2)

/-- One sample of unit e at place i of its block: its outputs, from the inputs eight samples ago, and its inputs taken
(R222). -/
def Chip.effRun (s w : Chip) (a : AEnv) (e i : Nat) : AEnv × Chip :=
  let x := s.effSt e
  let d0 := x.in0.getD i 0
  let d1 := x.in1.getD i 0
  let r := s.effWet w e d0 d1
  let dry := (s.gain (200 + e)).now
  let wet := (s.gain (220 + e)).now
  let o0 := satMix (gainMul d0 dry + gainMul r.1 wet)
  let o1 := satMix (gainMul d1 dry + gainMul r.2.1 wet)
  let t := r.2.2
  let n0 := satMix (t.slotSum (effKey e 0) 4 a.src)
  let n1 := satMix (t.slotSum (effKey e 4) 4 a.src)
  let t := ((t.updEff e fun y => { y with new0 := y.new0 ++ [n0], new1 := y.new1 ++ [n1] }).gainStep (200 + e)).gainStep (220 + e)
  ({ a with fx := a.fx ++ [o0, o1] }, t.slotsStep (effKey e 0) 8)

/-- One sample of mix bus m: its sum through the master gain (R207, R224). -/
def Chip.mixRun (s : Chip) (a : AEnv) (m : Nat) : AEnv × Chip :=
  let sum := s.slotSum (mixKey m 0) 8 a.src
  let clip := (List.range 8).any fun j => (s.slot (mixKey m j)).clips a.src
  let g := rnd (satMix sum * (s.gain (100 + m)).now) 4096
  let x := satMix g
  let t := (s.slotsStep (mixKey m 0) 8).gainStep (100 + m)
  let t := if x = g ∧ satMix sum = sum ∧ !clip then t
    else t.updSnd fun d => { d with mixes := NStore.set d.mixes m { (NStore.get ({} : MixSt) d.mixes m) with sat := true } }
  ({ a with mb := a.mb ++ [x] }, t)

/-- The limiter of mix bus m takes a value and gives the limited one of A samples ago (R224). -/
def Chip.limRun (s w : Chip) (m : Nat) (x : Int) : Int × Chip :=
  let st := NStore.get ({} : MixSt) s.snd.mixes m
  let a := 24 * 2 ^ w.fld F.mbLim_LAH m
  let xs := List.replicate (a - st.xs.length) 0 ++ st.xs ++ [x]
  let g := limGain st.g (w.fld F.mbLim_THR m) (w.fld F.mbRel_REL m) xs
  let y := rnd (xs.headD 0 * g) (2 ^ limBits)
  let st' : MixSt := { st with xs := xs.drop 1, g := g, lim := st.lim || decide (g < 2 ^ limBits) }
  (y, s.updSnd fun d => { d with mixes := NStore.set d.mixes m st' })

/-- The DMA channels that a pacing source paces. -/
def Chip.pacedBy (s : Chip) (req : Nat) : List Nat := s.selecting F.dmacCfg_REQSRC req

/-- The fill level of capture queue q (R231). -/
def Chip.cqLevel (s : Chip) (q : Nat) : Nat :=
  let z := 2 ^ s.fld F.cqCtrl_SIZE q
  (s.fld F.cqWptr_WPTR q % z + z - s.fld F.cqRptr_RPTR q % z) % z

/-- AUD_CAPq where the level of queue q has come to a mark that paces DMA: up to the high mark, or down to the low one
(R233, R260). -/
def Chip.cqMarks (t : Chip) (q was : Nat) : Chip :=
  let now := t.cqLevel q
  if (t.pacedBy (0xC0 + q)).any fun c =>
      decide ((was < t.fld F.dmacHi_MARK c ∧ t.fld F.dmacHi_MARK c ≤ now) ∨ (t.fld F.dmacLo_MARK c < was ∧ now ≤ t.fld F.dmacLo_MARK c))
  then t.raise (279 + q) else t

/-- Capture queue q, set up as w says, writes one sample or drops it (R231). -/
def Chip.cqWrite (s w : Chip) (q : Nat) (v : Int) : Chip :=
  let z := 2 ^ s.fld F.cqCtrl_SIZE q
  let p := s.fld F.cqWptr_WPTR q % z
  let a := w.fld F.cqBase_BASE q * 256 + p
  let drop (t : Chip) : Chip := (t.setFld F.cqStat_SLIP q 0 1).bump F.cqSlipcnt_COUNT F.cqSlipcnt_SAT q
  if s.cqLevel q = z - 4 ∨ a < 0x08000000 ∨ 0x16000000 ≤ a then drop s
  else if !s.domOn 38 then drop (s.logOff (.own 0x40) a)
  else (((s.touch a 4).memWrite (.own 0x40) a 4 (tc 32 v) false).setFld F.cqWptr_WPTR q 0 ((p + 4) % z)).cqMarks q (s.cqLevel q)

/-- The read offset of queue q moved (R231, R233). -/
def Chip.setCqRptr (s : Chip) (q v : Nat) : Chip := (s.setFld F.cqRptr_RPTR q 0 v).cqMarks q (s.cqLevel q)

/-- The value of an output slot's source (R226). -/
def outSrc (lim : List Int) (c : Nat) : Int := if c < 32 then lim.getD c 0 else 0

/-- The samples of the input channels: what comes in at a port that runs is not the chip's to say (R230). -/
def Chip.inputs (s w : Chip) : List (Nat × Int) × Chip :=
  (List.range 8).foldl (fun q i =>
    if s.on F.inStat_RUNNING i then
      (List.range (w.fld F.inCfg_SLOTSM1 i + 1)).foldl (fun q j =>
        let r := q.2.free 24
        (q.1 ++ [(16 * i + j, sx 24 r.1)], r.2)) q
    else q) ([], s)

/-- One graph sample n, at place i of its block (Table 7.1). -/
def Chip.audSample (s w : Chip) (n i : Nat) : Chip :=
  let t := (List.range 512).foldl (fun t v => t.takeCmd w v n (i == 0)) s
  let ins := t.inputs w
  let vs := (List.range 512).foldl (fun (q : List (Nat × Int) × Chip) v =>
    let r := q.2.voiceRun w v
    (q.1 ++ r.1, r.2)) ([], ins.2)
  let sums := (List.range 64).map fun b => (vs.1.filter fun p => p.1 == b).foldl (fun a p => a + p.2) 0
  let vb := sums.zipIdx.map fun p => rnd (satMix p.1 * (vs.2.gain p.2).now) 4096
  let sat := (sums.zip vb).zipIdx.filterMap fun p => if satMix p.1.1 = p.1.1 ∧ satMix p.1.2 = p.1.2 then none else some p.2
  let t := (List.range 64).foldl (fun t b => t.gainStep b) vs.2
  let t := t.updSnd fun d => { d with vbSat := d.vbSat ++ sat }
  let e := (List.range 16).foldl (fun (q : AEnv × Chip) e => q.2.effRun w q.1 e i)
    (({ vb := vb.map satMix, ins := ins.1 } : AEnv), t)
  let m := (List.range 32).foldl (fun (q : AEnv × Chip) m => q.2.mixRun q.1 m) e
  let l := (List.range 32).foldl (fun (q : List Int × Chip) k =>
    let r := q.2.limRun w k (m.1.mb.getD k 0)
    (q.1 ++ [r.1], r.2)) (([] : List Int), m.2)
  let t := (List.range 16).foldl (fun t q =>
    if w.on F.cqCtrl_EN q then
      let c := w.fld F.cqCtrl_SRC q
      t.cqWrite w q (if w.on F.cqCtrl_KIND q then NStore.get 0 ins.1 c else l.1.getD (c % 32) 0)
    else t) l.2
  (slotKeys.filter fun k => decide (4096 ≤ k)).foldl (fun t k =>
    let y := (t.slot k).value (outSrc l.1)
    let t := if (t.slot k).src = 0x3F ∧ !(t.slot k).fading then t
      else t.updSnd fun d => { d with outs := NStore.set d.outs k (NStore.get [] d.outs k ++ [clamp24 y]) }
    t.slotsStep k 1) t

/-- The counts and flags of a block that has been computed (R207, R224). -/
def Chip.audTally (s : Chip) : Chip :=
  let t := s.snd.vbSat.eraseDups.foldl (fun t b =>
    ((t.setFld F.audVbusSat_SAT b 0 1).bump F.audVbusSatcnt_COUNT F.audVbusSatcnt_SAT b).audStick F.audStat_SAT) s
  let t := s.snd.mixes.foldl (fun t p =>
    let t := if p.2.sat then
        ((t.setFld F.mbStat_SAT p.1 0 1).bump F.mbSatcnt_COUNT F.mbSatcnt_SAT p.1).audStick F.audStat_SAT else t
    if p.2.lim then t.bump F.mbLimcnt_COUNT F.mbLimcnt_SAT p.1 else t) t
  t.updSnd fun d => { d with vbSat := [], mixes := d.mixes.map fun p => (p.1, { p.2 with sat := false, lim := false }) }

/-- The engine computes the next block, from the instant its computation begins on (R202). -/
def Chip.blockCompute (s : Chip) : Chip :=
  let k := s.snd.block
  if s.on F.audStat_RUNNING ∧ !s.snd.stopping ∧ s.blockDue k then
    let w := { s with flds := s.regsFor k }
    let t := s.updSnd fun d => { d with outs := [], taken := d.taken.filter fun p => decide (k < p.1) }
    let t := (List.range 16).foldl (fun t e => t.effBegin w e) (t.takeTargets w)
    let t := (List.range 8).foldl (fun t i => t.audSample w (8 * k + i) i) t
    t.audTally.updSnd fun d => { d with block := k + 1, ready := d.ready ++ [(k, d.outs)], outs := [] }
  else s

/-! ### Ports (R226 to R230) -/

/-- An audio port by number: OUT 0 to 15, S/PDIF 16 to 19, DisplayPort 20 to 27, IN 28 to 35. -/
def portF (o sp dp i : Fd) (x : Nat) : Fd × Nat :=
  if x < 16 then (o, x) else if x < 20 then (sp, x - 16) else if x < 28 then (dp, x - 20) else (i, x - 28)

/-- A bit of a port's STAT set. -/
def Chip.portStick (s : Chip) (x : Nat) (o sp dp i : Fd) : Chip :=
  let f := portF o sp dp i x
  s.unitStick f.1 f.2 F.audStat_PORT

def Chip.portRunning (s : Chip) (x : Nat) : Bool :=
  let f := portF F.outStat_RUNNING F.spdStat_RUNNING F.dpaStat_RUNNING F.inStat_RUNNING x
  s.on f.1 f.2

/-- n slips counted at a port (R229, R230). -/
def Chip.portSlip (s : Chip) (x n : Nat) : Chip :=
  let c := portF F.outSlipcnt_COUNT F.spdSlipcnt_COUNT F.dpaSlipcnt_COUNT F.inSlipcnt_COUNT x
  let a := portF F.outSlipcnt_SAT F.spdSlipcnt_SAT F.dpaSlipcnt_SAT F.inSlipcnt_SAT x
  (s.bump c.1 a.1 c.2 0 n).portStick x F.outStat_SLIP F.spdStat_SLIP F.dpaStat_SLIP F.inStat_SLIP

/-- The sample rate of a RATE code in Hz (Table 7.14). -/
def rateHz (c : Nat) : Nat := ([32000, 44100, 48000, 88200, 96000, 176400, 192000] : List Nat).getD c 0

/-- Whether a configuration word of an I2S/TDM port is an invalid combination (R227). -/
def i2sInvalid (v : Nat) : Bool :=
  let slots := bits v 19 16 + 1
  let w := 16 + 8 * bits v 25 24
  (decide (bits v 29 28 ≤ 1) && slots != 2) || (bit v 23 && w == 16) ||
  (!bit v 27 && decide (49152000 < rateHz (bits v 22 20) * slots * w))

/-- The configuration fields of a port. -/
def portFields (x : Nat) : List Fd :=
  if x < 16 then [F.outCfg_MODE, F.outCfg_CLKSRC, F.outCfg_MCLK_EN, F.outCfg_SWIDTH, F.outCfg_D24, F.outCfg_RATE, F.outCfg_SLOTSM1]
  else if x < 20 then [F.spdCfg_D24, F.spdCfg_RATE]
  else if x < 28 then [F.dpaCfg_D24, F.dpaCfg_RATE, F.dpaCfg_CH8]
  else [F.inCfg_MODE, F.inCfg_CLKSRC, F.inCfg_MCLK_EN, F.inCfg_SWIDTH, F.inCfg_D24, F.inCfg_RATE, F.inCfg_SLOTSM1]

/-- A write to a port's CFG (R227). -/
def Chip.writePortCfg (s : Chip) (x v : Nat) : Chip :=
  let en := portF F.outCfg_EN F.spdCfg_EN F.dpaCfg_EN F.inCfg_EN x
  let run := portF F.outStat_RUNNING F.spdStat_RUNNING F.dpaStat_RUNNING F.inStat_RUNNING x
  if s.on en.1 en.2 then
    if bit v 31 then s.portStick x F.outStat_CFG_REJ F.spdStat_CFG_REJ F.dpaStat_CFG_REJ F.inStat_CFG_REJ
    else (s.setFld en.1 en.2 0 0).setFld run.1 run.2 0 0
  else
    let t := (portFields x).foldl (fun t f => t.writeFld f en.2 0 v) s
    let cur := (portFields x).foldl (fun a f => a + t.fld f en.2 * 2 ^ f.lo) 0
    if bit v 31 then
      if (x < 16 ∨ 28 ≤ x) ∧ i2sInvalid cur then
        t.portStick x F.outStat_CFG_ERR F.spdStat_CFG_ERR F.dpaStat_CFG_ERR F.inStat_CFG_ERR
      else (t.setFld en.1 en.2 0 1).setFld run.1 run.2 0 1
    else t

/-- A target-mode port without a bit clock for two frame periods (Table 7.14). -/
def Chip.clkLoss (s : Chip) (x : Nat) : Chip :=
  let c := portF F.outCfg_CLKSRC F.outCfg_CLKSRC F.outCfg_CLKSRC F.inCfg_CLKSRC x
  if s.portRunning x ∧ (x < 16 ∨ 28 ≤ x) ∧ s.on c.1 c.2 then
    s.portStick x F.outStat_CLKLOSS F.spdStat_CLKLOSS F.dpaStat_CLKLOSS F.inStat_CLKLOSS
  else s

/-- A rate converter's FIFO reaches empty or full: one slip. Inputs have one, and outputs in target mode (R230). -/
def Chip.rateSlip (s : Chip) (x : Nat) : Chip :=
  if s.portRunning x ∧ (28 ≤ x ∨ (x < 16 ∧ s.on F.outCfg_CLKSRC x)) then s.portSlip x 1 else s

/-- Block k is not complete: every converter repeats its last sample, each repeat a slip, and the block is discarded
(R229). -/
def Chip.blockLate (s : Chip) (k : Nat) : Chip :=
  let u := ((s.audStick F.audStat_LATE).bump F.audLatecnt_COUNT F.audLatecnt_SAT).updSnd fun d =>
    { d with block := k + 1, sending := d.sending.map fun p => (p.1, List.replicate 8 (p.2.getLastD 0)) }
  (List.range 28).foldl (fun u x => if u.portRunning x then u.portSlip x 8 else u) u

/-- The output converters take the next block at its instant: the instant is recorded and AUD_TICK raised (R201, R229, R233); where RUN was
cleared the engine stops instead (R205). -/
def Chip.blockSend (s : Chip) : Chip :=
  if !s.on F.audStat_RUNNING ∨ !s.sendDue s.snd.sent then s
  else if s.snd.stopping then s.audStop
  else
    let k := s.snd.sent
    let t := match s.snd.ready.find? fun p => p.1 == k with
      | some p => s.updSnd fun d => { d with sending := p.2 }
      | none => s.blockLate k
    let tick := decide (s.fld F.audCtrl_TICKDIV ≤ s.snd.ticks)
    let t := t.updSnd fun d => { d with sent := k + 1, ticks := if tick then 0 else d.ticks + 1, bstamp := s.now,
                                        ready := d.ready.filter fun p => decide (k < p.1) }
    if tick then t.raise 276 else t

/-- The eight samples of the block being sent that channel j of output port x takes at 96 kHz: zeros where nothing is
routed to it or the engine stands (R205, R226). A DisplayPort head that does not carry them discards them (Table 7.14). -/
def Chip.portTakes (s : Chip) (x j : Nat) : List Int :=
  let k := if x < 16 then portKey x j else if x < 20 then spdKey (x - 16) j else dpaKey (x - 20) j
  if !s.portRunning x ∨ (20 ≤ x ∧ !s.dpAudioOn (x - 20)) then []
  else NStore.get (List.replicate 8 0) s.snd.sending k

/-- What channel j of output port x sends of that block: a port in master mode at 96 kHz sends the samples themselves; at
another rate or in target mode they pass a converter whose filter the spec does not state (R211, R226, R230). -/
def Chip.portSends (s : Chip) (x j : Nat) : Option (List Int) :=
  let rate := portF F.outCfg_RATE F.spdCfg_RATE F.dpaCfg_RATE F.inCfg_RATE x
  if x < 28 ∧ s.fld rate.1 rate.2 = 4 ∧ !(x < 16 ∧ s.on F.outCfg_CLKSRC x) then some (s.portTakes x j) else none

/-- AUD_STAT as it reads: TB_LOCKED while the engine runs on the locked time base (R201). -/
def Chip.audStatWord (s : Chip) : Nat :=
  s.word .audStat + b2n (s.on F.audStat_RUNNING && s.on F.audClk_TBLOCK && s.on F.tbStat_PLL_LOCK) * 4

/-- A spare voice p replaces voice v between two blocks (R212). -/
def Chip.voiceRotate (s : Chip) (v p : Nat) : Chip :=
  if p < 544 ∧ s.spareFree 4 512 p then s.moveUnit 4 v p else s

/-- Whether slot source code c may be written to a mix slot of bus m, or to a slot of effect unit e (R206). -/
def mixSrcOk (m c : Nat) : Bool :=
  c == 0 || decide ((0x40 ≤ c ∧ c < 0xA0) ∨ (0xA0 ≤ c ∧ c < 0xA0 + m) ∨ (0x100 ≤ c ∧ c < 0x180))
def effSrcOk (e c : Nat) : Bool :=
  c == 0 || decide ((0x40 ≤ c ∧ c < 0x80) ∨ (0x80 ≤ c ∧ c < 0x80 + 2 * e) ∨ (0x100 ≤ c ∧ c < 0x180))

/-- A slot register written: source where the slot offers it, gain, and PEND where it crossfades (R206, R209). -/
def Chip.writeSlot (s : Chip) (src gain pend : Fd) (i j k v : Nat) (ok : Bool) : Chip :=
  let t := if ok then s.writeFld src i j v else s
  (t.setFld gain i j (v / 2 ^ gain.lo)).slotWritten pend i j k

/-- A parameter of an eight-band equaliser as a write of it leaves it: a part whose value Table 7.10 reserves keeps its
previous value (R9; DEDUCED, notes/assumptions/75.md). -/
def eqParam (old v : Nat) : Nat :=
  let typ := if 6 ≤ bits v 31 29 then bits old 31 29 else bits v 31 29
  let freq := if 1920 ≤ bits v 28 18 then bits old 28 18 else bits v 28 18
  let q := if bits v 9 0 = 0 then bits old 9 0 else bits v 9 0
  typ * 2 ^ 29 + freq * 2 ^ 18 + bits v 17 10 * 2 ^ 10 + q

/-- A write of EFFe_Pj (Table 7.10). -/
def Chip.writeEffP (s : Chip) (e j v : Nat) : Chip :=
  s.setFld F.effP_P e j (if s.fld F.effCtrl_TYPE e = 3 then eqParam (s.fld F.effP_P e j) v else v)

end Sys2Proof.Machine
end

