-- ==== Sys2Proof/Machine/Dma.lean ====
section
/-! DEFINITION. DMA (spec/08_blit_dma.md, R250 to R269, R551). The data accesses of a burst go to the fabric one by one;
the reads of a descriptor are taken when they return, and the accesses that finish one are performed in one step
(DESIGN CHOICE, notes/assumptions/23.md). -/

namespace Sys2Proof.Machine

/-- What a channel holds beside its registers. -/
def Chip.chan (s : Chip) (c : Nat) : DmaChan := NStore.get {} s.dma c

def Chip.updChan (s : Chip) (c : Nat) (f : DmaChan → DmaChan) : Chip := { s with dma := NStore.set s.dma c (f (s.chan c)) }

def Chip.dmaState (s : Chip) (c : Nat) : Nat := s.fld F.dmacStat_STATE c

def Chip.setDmaState (s : Chip) (c v : Nat) : Chip := s.setFld F.dmacStat_STATE c 0 v

/-- The channels that have done anything, in ascending order. -/
def Chip.chans (s : Chip) : List Nat := (s.dma.map fun p => p.1)

/-- The channels with a pacing source, started or not. -/
def Chip.pacedChans (s : Chip) : List Nat :=
  s.flds.filterMap fun p => if p.1.id = .dmacCfg ∧ p.1.lo = F.dmacCfg_REQSRC.lo then some p.1.i else none

/-! ### Status bits and events (R269) -/

/-- A bit of DMA_DONEw set for channel c. -/
def Chip.dmaDoneBit (s : Chip) (c : Nat) : Chip :=
  if bit (s.fld F.dmaDone_DONE (c / 32)) (c % 32) then s
  else (s.setFld F.dmaDone_DONE (c / 32) 0 (s.fld F.dmaDone_DONE (c / 32) + 2 ^ (c % 32))).raiseHop (295 + c / 32) (s.chan c).hop

/-- An error bit of DMAc_STAT set, with the channel's DMA_ERRw bit, whether or not the bit was set before. -/
def Chip.dmaErrBit (s : Chip) (f : Fd) (c : Nat) : Chip :=
  let t := s.setFld f c 0 1
  if bit (t.fld F.dmaErr_ERR (c / 32)) (c % 32) then t
  else (t.setFld F.dmaErr_ERR (c / 32) 0 (t.fld F.dmaErr_ERR (c / 32) + 2 ^ (c % 32))).raiseHop 327 (t.chan c).hop

/-! ### Descriptors (R253, R257, R268) -/

def Desc.irq (d : Desc) : Bool := bit d.ctrl 30
def Desc.fsig (d : Desc) : Bool := bit d.ctrl 29
def Desc.cont (d : Desc) : Bool := bit d.ctrl 28
def Desc.last (d : Desc) : Bool := bit d.ctrl 27
def Desc.fence (d : Desc) : Nat := bits d.ctrl 23 16
def Desc.dmode (d : Desc) : Nat := bits d.ctrl 13 12
def Desc.smode (d : Desc) : Nat := bits d.ctrl 9 8
def Desc.srcAddr (d : Desc) : Nat := bits d.ext 7 0 * 2 ^ 32 + d.src
def Desc.dstAddr (d : Desc) : Nat := bits d.ext 15 8 * 2 ^ 32 + d.dst
def Desc.srcWin (d : Desc) : Nat := 2 ^ (bits d.ext 20 16 + 8)
def Desc.dstWin (d : Desc) : Nat := 2 ^ (bits d.ext 28 24 + 8)

/-- A reserved value, or a fixed address or length that is no multiple of 4 (R268). -/
def Desc.bad (d : Desc) : Bool :=
  decide (d.len = 0 ∨ d.smode = 3 ∨ d.dmode = 3 ∨ 18 < bits d.ext 20 16 ∨ 18 < bits d.ext 28 24 ∨
    (d.smode = 1 ∧ (d.srcAddr % 4 ≠ 0 ∨ d.len % 4 ≠ 0)) ∨ (d.dmode = 1 ∧ (d.dstAddr % 4 ≠ 0 ∨ d.len % 4 ≠ 0)))

/-- The address of byte i on one side: bits [39:30] never change (R257). -/
def sideAddr (mode win a i : Nat) : Nat :=
  if mode = 2 then a - a % win + (a + i) % win
  else a / 2 ^ 30 * 2 ^ 30 + (a + i) % 2 ^ 30

/-- The accesses of one side for n bytes from byte o, as (byte of the transfer, address, size) (R257, R258). -/
def sideCut (mode win a : Nat) : Nat → Nat → Nat → List (Nat × Nat × Nat)
  | 0, _, _ => []
  | f + 1, o, n =>
    if n = 0 then []
    else if mode = 1 then (o, a, 4) :: sideCut mode win a f (o + 4) (n - 4)
    else
      let x := sideAddr mode win a o
      let m := if mode = 2 then min n (win - x % win) else n
      let z := if x % 16 = 0 ∧ 16 ≤ m then 16 else if x % 8 = 0 ∧ 8 ≤ m then 8 else if x % 4 = 0 ∧ 4 ≤ m then 4
        else if x % 2 = 0 ∧ 2 ≤ m then 2 else 1
      (o, x, z) :: sideCut mode win a f (o + z) (n - z)

/-- The reads and the writes of n bytes from byte o. -/
def Desc.reads (d : Desc) (o n : Nat) : List (Nat × Nat × Nat) := sideCut d.smode d.srcWin d.srcAddr n o n
def Desc.writes (d : Desc) (o n : Nat) : List (Nat × Nat × Nat) := sideCut d.dmode d.dstWin d.dstAddr n o n

/-- The bytes of the transfer before the destination group of byte o (R266). -/
def Desc.groupStart (d : Desc) (o : Nat) : Nat :=
  if d.dmode = 1 then o / 4 * 4 else o - min o (sideAddr d.dmode d.dstWin d.dstAddr o % 16)

/-! ### Pacing (R259 to R261) -/

/-- A pacing source whose level counts (R255). -/
def dmaPaced (req : Nat) : Bool := decide (0x40 ≤ req)

/-- A source that the channel empties (Table 8.8). -/
def dmaInbound (req : Nat) : Bool :=
  decide ((0x80 ≤ req ∧ req < 0xD1) ∨ (0x100 ≤ req ∧ req < 0x200 ∧ req % 2 = 1))

/-- A source that is a FIFO register. -/
def dmaFifo (req : Nat) : Bool := decide (0x40 ≤ req ∧ req < 0xC0 ∨ 0xD0 ≤ req ∧ req < 0x200)

/-- The bytes a pacing source holds, and its capacity (Table 8.8, Table 13.7, R397). -/
def Chip.dmaLevel (s : Chip) (req : Nat) : Nat × Nat :=
  let ser := fun (x : Nat) => if req % 2 = 0 then 4 * (NStore.get ({} : Serial) s.serials x).tx.length
    else 4 * (NStore.get ({} : Serial) s.serials x).rx.length
  if req < 0x40 then (0, 0)
  else if req < 0x80 then (4 * (NStore.get ({} : Psq) s.psqs (req - 0x40)).tx.length, 32)
  else if req < 0xC0 then (4 * (NStore.get ({} : Psq) s.psqs (req - 0x80)).rx.length, 32)
  else if req < 0xD0 then (s.cqLevel (req - 0xC0), 2 ^ s.fld F.cqCtrl_SIZE (req - 0xC0) - 4)
  else if req = 0xD0 then (4 * s.adc.fifo.length, 128)
  else if req < 0x120 then (ser ((req - 0x100) / 2), 32)
  else if req < 0x130 then (ser (16 + (req - 0x120) / 2), 32)
  else if req < 0x140 then (ser (24 + (req - 0x130) / 2), 32)
  else if req < 0x200 then (0, 0)
  else
    let v := req - 0x200
    let z := s.ringSize v
    ((s.fld F.vWptr_WPTR v % z + z - s.vPos v % z) % z, z - 16)

/-- The bytes a burst of channel c has reserved and not yet moved (R260): for a pointer source the bursts without their
update, for a FIFO the accesses not yet performed. -/
def Chip.dmaReserved (s : Chip) (c req : Nat) : Nat :=
  let x := s.chan c
  let mine := fun (a : Access) => match a.owner with
    | .dmaRead k _ => k == c && dmaInbound req
    | .dmaWrite k _ => k == c && !dmaInbound req
    | _ => false
  if dmaFifo req then
    ((s.issueQ ++ s.held).filter mine).foldl (fun n a => n + a.size) 0 +
      (if dmaInbound req then 0 else (x.bursts.filter fun b => !b.written).foldl (fun n b => n + b.n) 0)
  else ((x.bursts.filter fun b => !b.upd).foldl (fun n b => n + b.n) 0) + x.ptrs.foldl (fun n p => n + p.2) 0

/-- The level that R260 compares. -/
def Chip.dmaFill (s : Chip) (c : Nat) : Nat :=
  let req := s.fld F.dmacCfg_REQSRC c
  if dmaInbound req then (s.dmaLevel req).1 - s.dmaReserved c req else (s.dmaLevel req).1 + s.dmaReserved c req

/-- The present request of a channel after its level has moved, and with it ACTIVE or WAIT_REQ (R260, Table 8.6). -/
def Chip.dmaRequest (s : Chip) (c : Nat) : Chip :=
  let req := s.fld F.dmacCfg_REQSRC c
  let lvl := s.dmaFill c
  let old := s.on F.dmacStat_REQ c
  let now := if req = 1 then decide (0 < (s.chan c).grants)
    else if !dmaPaced req then false
    else if dmaInbound req then
      (if s.fld F.dmacHi_MARK c ≤ lvl then true else if lvl ≤ s.fld F.dmacLo_MARK c then false else old)
    else (if lvl ≤ s.fld F.dmacLo_MARK c then true else if s.fld F.dmacHi_MARK c ≤ lvl then false else old)
  let t := if now = old then s else s.setOn F.dmacStat_REQ c 0 now
  let want := if now || decide (req = 0) then 2 else 3
  if (t.dmaState c = 2 ∨ t.dmaState c = 3) ∧ (t.chan c).desc.isSome ∧ t.dmaState c ≠ want then t.setDmaState c want else t

/-- Every paced channel's request after the levels have moved. -/
def Chip.dmaLevels (s : Chip) : Chip := (s.chans ++ s.pacedChans).foldl (fun t c => t.dmaRequest c) s

/-! ### Commands (R255, R263, R264, R551) -/

/-- The descriptor read begun (R551). -/
def Chip.dmaFetch (s : Chip) (c : Nat) : Chip :=
  ((s.updChan c fun x => { x with desc := none, reading := true, haltHeld := false, fail := none, poison := false,
                                  bad := false, stop := 0, bursts := [], ptrs := [] }).setDmaState c 2).setFld F.dmacPos_POS c 0 0

/-- START (R255, R263). -/
def Chip.dmaStart (s : Chip) (c : Nat) : Chip :=
  let req := s.fld F.dmacCfg_REQSRC c
  if s.dmaState c = 0 then
    let marks := dmaPaced req && decide (s.fld F.dmacHi_MARK c ≤ s.fld F.dmacLo_MARK c)
    let taken := dmaPaced req && (s.pacedBy req).any fun d => d != c && s.dmaState d != 0
    if marks || taken then s.dmaErrBit F.dmacStat_CFG_ERR c else s.dmaFetch c
  else if s.dmaState c = 1 then s.dmaFetch c
  else s

/-- The channel idle. -/
def Chip.dmaIdle (s : Chip) (c : Nat) : Chip :=
  (s.updChan c fun x => { x with desc := none, reading := false, haltHeld := false, stop := 0, hop := 0 }).setDmaState c 0

/-- HALTING ends when nothing is outstanding and no error is to be finished. -/
def Chip.dmaSettle (s : Chip) (c : Nat) : Chip :=
  let x := s.chan c
  if s.dmaState c = 4 ∧ x.bursts.isEmpty ∧ x.ptrs.isEmpty ∧ x.fail.isNone then s.setDmaState c 5 else s

/-- HALT taken, before the channel looks whether anything is outstanding (R255, R551). -/
def Chip.dmaHalting (s : Chip) (c : Nat) : Chip :=
  let x := s.chan c
  if x.reading ∧ s.dmaState c = 2 then s.updChan c fun x => { x with haltHeld := true }
  else if (s.dmaState c = 2 ∨ s.dmaState c = 3) ∧ x.desc.isSome then s.setDmaState c 4
  else s

/-- HALT: with nothing outstanding the channel is HALTED at once. -/
def Chip.dmaHalt (s : Chip) (c : Nat) : Chip := (s.dmaHalting c).dmaSettle c

/-- RESUME (R255). -/
def Chip.dmaResume (s : Chip) (c : Nat) : Chip :=
  let x := s.chan c
  if s.dmaState c ≠ 5 then s
  else if x.desc.isSome then (s.setDmaState c 2).dmaRequest c
  else if x.stop = 2 then s.dmaIdle c
  else s.dmaFetch c

/-- ABORT (R255, R551). -/
def Chip.dmaAbort (s : Chip) (c : Nat) : Chip :=
  let x := s.chan c
  let st := s.dmaState c
  if x.reading ∧ st = 2 then s.setDmaState c 6
  else if (2 ≤ st ∧ st ≤ 5) ∧ x.desc.isSome then s.setDmaState c 6
  else if st = 1 ∨ (st = 5 ∧ x.stop = 3) then s.dmaIdle c
  else s

/-- A write to DMAc_CMD (R255): HALT, RESUME, START, each on the state that the one before left; a RESUME or START after
a HALT finds the channel HALTING. -/
def Chip.writeDmaCmd (s : Chip) (c v : Nat) : Chip :=
  if bit v 3 then s.dmaAbort c
  else
    let t := if bit v 1 then s.dmaHalting c else s
    let t := if bit v 2 then t.dmaResume c else t
    (if bit v 0 then t.dmaStart c else t).dmaSettle c

/-- A write to DMA_BELL. -/
def Chip.writeDmaBell (s : Chip) (v : Nat) : Chip := s.dmaStart (bits v 9 0)

/-- An arrival at task input t with its hop count (R264, Table 12.11). -/
def Chip.dmaTaskIn (s : Chip) (t hop : Nat) : Chip :=
  if !s.on F.dmaTask_EN t then s
  else
    let c := s.fld F.dmaTask_CHAN t
    let st := s.dmaState c
    if (st = 2 ∨ st = 3) ∧ s.fld F.dmacCfg_REQSRC c = 1 then
      (s.updChan c fun x => { x with grants := min 255 (x.grants + 1), hop := max x.hop (hop + 1) }).dmaRequest c
    else if st = 0 then
      let u := (s.updChan c fun x => { x with hop := hop + 1 }).dmaStart c
      if u.dmaState c = 0 then u.updChan c fun x => { x with hop := 0 } else u
    else s.dmaStart c

/-! ### Descriptor reads (R254, R268, R551) -/

/-- A channel HALTED under R268. -/
def Chip.dmaBadRead (s : Chip) (f : Fd) (c : Nat) : Chip :=
  ((s.dmaErrBit f c).updChan c fun x => { x with reading := false, haltHeld := false, desc := none, stop := 3 }).setDmaState c 5

/-- One half of a descriptor read at its bank: its four words, the poison, and the state after the check. -/
def Chip.dmaHalf (s : Chip) (a : Nat) : Nat × Bool × Chip :=
  let r := s.memRead a 16
  let note (k : Nat) (t : Chip) := t.logErr k (.own 0x20) (s.storeOf a) (s.localAddr a)
  (r.1, r.2.1, if r.2.1 then note 2 (note 1 r.2.2) else r.2.2)

/-- The read of channel c's descriptor returns. -/
def Chip.dmaDescReturn (s : Chip) (c : Nat) : Chip :=
  let x := s.chan c
  if !x.reading then s
  else
    let a := s.fld F.dmacDesc_ADDR c * 32
    if a < 0x08000000 ∨ 0x16000000 ≤ a then s.dmaBadRead F.dmacStat_DESC_ADDR c
    else if !s.storeUp a then
      (s.logOff (.own 0x20) a).dmaBadRead F.dmacStat_DESC_ADDR c
    else if s.heldByRepair a 32 then s
    else
      let h0 := s.dmaHalf a
      if h0.2.1 then h0.2.2.dmaBadRead F.dmacStat_DESC_POISON c
      else if !bit h0.1 31 then
        let t := h0.2.2.updChan c fun x => { x with reading := false, haltHeld := false }
        if s.dmaState c = 6 then t.dmaIdle c else t.setDmaState c 1
      else
        let h1 := h0.2.2.dmaHalf (a + 16)
        if h1.2.1 then h1.2.2.dmaBadRead F.dmacStat_DESC_POISON c
        else if s.dmaState c = 6 then h1.2.2.dmaIdle c
        else
          let d : Desc := { addr := a, ctrl := bits h0.1 31 0, len := bits h0.1 58 32, src := bits h0.1 95 64,
                            ext := bits h0.1 127 96, dst := bits h1.1 31 0, next := bits h1.1 61 37 }
          let t := h1.2.2.updChan c fun x => { x with reading := false, haltHeld := false, desc := some d, bad := d.bad }
          if x.haltHeld then t.setDmaState c 5 else (t.setDmaState c 2).dmaRequest c

/-! ### Bursts (R250, R251, R258, R261) -/

/-- The bytes of the buffer that bursts have reserved. -/
def Chip.dmaUse (s : Chip) : Nat := s.dma.foldl (fun n p => n + p.2.bursts.foldl (fun m b => m + b.left) 0) 0

/-- The channels with bursts outstanding. -/
def Chip.dmaInflight (s : Chip) : Nat := (s.dma.filter fun p => !p.2.bursts.isEmpty).length

/-- The bytes that channel c's next burst would move; 0 where it cannot start one (R251, R261). -/
def Chip.dmaSize (s : Chip) (c : Nat) : Nat :=
  let x := s.chan c
  let req := s.fld F.dmacCfg_REQSRC c
  match x.desc with
  | none => 0
  | some d =>
    if s.dmaState c ≠ 2 ∨ x.fail.isSome ∨ x.bad ∨ s.fld F.dmacCfg_MAXOUTM1 c + 1 ≤ x.bursts.length ∨
        (req ≠ 0 ∧ !s.on F.dmacStat_REQ c) ∨ (x.bursts.isEmpty ∧ 64 ≤ s.dmaInflight) then 0
    else
      let n := min ((s.fld F.dmacCfg_BURSTM1 c + 1) * 16) (d.len - s.fld F.dmacPos_POS c)
      let lv := s.dmaLevel req
      let n := if dmaPaced req then min n (if dmaInbound req then s.dmaFill c else lv.2 - s.dmaFill c) else n
      let n := if dmaFifo req then n / 4 * 4 else n
      if s.dmaUse + n ≤ 0x40000 then n else 0

/-- The channel whose burst starts next: of the highest PRIO, in round robin. -/
def Chip.dmaPick (s : Chip) : Option Nat :=
  let el := s.chans.filter fun c => s.dmaSize c != 0
  let p := el.foldl (fun m c => max m (s.fld F.dmacCfg_PRIO c)) 0
  let el := el.filter fun c => s.fld F.dmacCfg_PRIO c == p
  match Store.get? p s.dmaRr with
  | none => el.head?
  | some l => match el.find? fun c => decide (l < c) with
    | some c => some c
    | none => el.head?

/-- A burst begins: its space is reserved and its reads go to the fabric. -/
def Chip.dmaBurst (s : Chip) : Chip :=
  if !s.domOn 45 then s
  else
    match s.dmaPick with
    | none => s
    | some c =>
      match (s.chan c).desc with
      | none => s
      | some d =>
        let n := s.dmaSize c
        let o := s.fld F.dmacPos_POS c
        let q := (s.chan c).next
        let rs := d.reads o n
        let acc := rs.zipIdx.map fun (p : (Nat × Nat × Nat) × Nat) =>
          ({ mst := .own 0x20, owner := .dmaRead c (q * 4096 + p.2), write := false, addr := p.1.2.1, size := p.1.2.2,
             data := 0, poison := false } : Access)
        let b : DmaBurst := { seq := q, off := o, n := n, rd := rs.length, left := n }
        let t := s.updChan c fun x => { x with bursts := x.bursts ++ [b], next := q + 1,
                                               grants := if s.fld F.dmacCfg_REQSRC c = 1 then x.grants - 1 else x.grants }
        ({ t with issueQ := t.issueQ ++ acc, dmaRr := NStore.set t.dmaRr (s.fld F.dmacCfg_PRIO c) c }.setFld
          F.dmacPos_POS c 0 (o + n)).dmaRequest c

/-! ### Responses (R262, R266, R267) -/

/-- A failure at byte o: the earliest one in transfer order counts. -/
def Chip.dmaFail (s : Chip) (c o code : Nat) : Chip :=
  let t := s.updChan c fun x => { x with fail := match x.fail with
    | none => some (o, code)
    | some (p, k) => if o < p then some (o, code) else some (p, k) }
  if t.dmaState c = 2 ∨ t.dmaState c = 3 ∨ t.dmaState c = 5 then t.setDmaState c 4 else t

/-- Whether an address lies in a package's registers: on another chip or this one, not in host memory (Table 1.3). -/
def Chip.inRegs (s : Chip) (a : Nat) : Bool :=
  decide (0x3C000000 ≤ a % 2 ^ 30) && !(s.on F.hstObcfg_OBEN && a / 2 ^ 30 == s.fld F.hstObcfg_OBCHIP)

/-- Whether the transfer is free of errors before byte e, where a burst ends (R262). -/
def DmaChan.clean (x : DmaChan) (e : Nat) : Bool :=
  match x.fail with
  | none => true
  | some (o, _) => decide (e ≤ o)

/-- A burst leaves the channel with its last response; a voice's pointer update waits from then on, unless the burst or
an earlier one has met an error (R262). -/
def Chip.dmaRetire (s : Chip) (c : Nat) : Chip :=
  match (s.chan c).bursts with
  | [] => s
  | b :: rest =>
    if b.written ∧ b.wr = 0 then
      let ptr := decide (0x200 ≤ s.fld F.dmacCfg_REQSRC c) && (s.chan c).clean (b.off + b.n)
      ((s.updChan c fun x => { x with bursts := rest, ptrs := if ptr then x.ptrs ++ [(b.off + b.n, b.n)] else x.ptrs }).dmaSettle c).dmaRequest c
    else s

/-- The oldest bursts of a list whose reads have all returned. -/
def readWhole (l : List DmaBurst) : List DmaBurst := l.takeWhile fun b => b.rd == 0

/-- A capture queue's pointer updates wait from the last read response of their burst on, in burst order (R262). -/
def Chip.dmaReadPtrs (s : Chip) (c : Nat) : Chip :=
  let req := s.fld F.dmacCfg_REQSRC c
  if 0xC0 ≤ req ∧ req < 0xD0 then
    s.updChan c fun x =>
      let go := (readWhole x.bursts).filter fun b => !b.upd && x.clean (b.off + b.n)
      { x with ptrs := x.ptrs ++ go.map (fun b => (b.off + b.n, b.n)),
               bursts := x.bursts.map fun b => { b with upd := b.upd || go.any fun g => g.seq == b.seq } }
  else s

/-- The bursts that are complete leave, oldest first. -/
def Chip.dmaRetireAll (s : Chip) (c : Nat) : Chip := (List.range (s.chan c).bursts.length).foldl (fun t _ => t.dmaRetire c) s

/-- The writes of a burst go to the fabric when its last read has returned: none of a byte read with an error, and none
of poison bound for registers, which fails as a read (R267). -/
def Chip.dmaIssueWrites (s : Chip) (c : Nat) (b : DmaBurst) : Chip :=
  match (s.chan c).desc with
  | none => s
  | some d =>
    let ws := (d.writes b.off b.n).zipIdx
    let drop := fun (w : Nat × Nat × Nat) => rangesMeet b.bad w.1 w.2.2 && s.inRegs w.2.1
    let lost := ws.filter fun p => drop p.1
    let go := ws.filter fun p => !drop p.1 && !rangesMeet b.err p.1.1 p.1.2.2
    let pz := ws.any fun p => rangesMeet b.bad p.1.1 p.1.2.2
    let acc := go.map fun (p : (Nat × Nat × Nat) × Nat) =>
      ({ mst := .own 0x21, owner := .dmaWrite c (b.seq * 4096 + p.2), write := true, addr := p.1.2.1, size := p.1.2.2,
         data := b.data / 2 ^ (8 * (p.1.1 - b.off)) % 2 ^ (8 * p.1.2.2),
         poison := rangesMeet b.bad p.1.1 p.1.2.2 } : Access)
    let left := go.foldl (fun n p => n + p.1.2.2) 0
    let t := s.updChan c fun x => { x with poison := x.poison || pz, bursts := x.bursts.map fun y =>
      if y.seq = b.seq then { b with written := true, wr := go.length, left := left } else y }
    let t := lost.foldl (fun t p => (t.logErr 2 (.own 0x21) 31 p.1.2.1).dmaFail c p.1.1 1) t
    ({ t with issueQ := t.issueQ ++ acc }).dmaRetireAll c

/-- The response to a read of a burst. -/
def Chip.dmaReadResp (s : Chip) (c sq : Nat) (kind : RespKind) (data : Nat) : Chip :=
  let x := s.chan c
  match x.desc, x.bursts.find? fun b => b.seq == sq / 4096 with
  | some d, some b =>
    match (d.reads b.off b.n)[sq % 4096]? with
    | none => s
    | some r =>
      let good := kind = .okay ∨ kind = .poison
      let y : DmaBurst :=
        { b with
          rd := b.rd - 1
          data := if good then b.data + data * 2 ^ (8 * (r.1 - b.off)) else b.data
          bad := if kind = .poison then b.bad ++ [(r.1, r.2.2)] else b.bad
          err := if good then b.err else b.err ++ [(r.1, r.2.2)] }
      let t := s.updChan c fun x => { x with bursts := x.bursts.map fun z => if z.seq = b.seq then y else z }
      let t := if good then t else t.dmaFail c r.1 1
      if y.rd = 0 then (t.dmaIssueWrites c y).dmaReadPtrs c else t
  | _, _ => s

/-- The response to a write of a burst. -/
def Chip.dmaWriteResp (s : Chip) (c sq : Nat) (kind : RespKind) : Chip :=
  let x := s.chan c
  match x.desc, x.bursts.find? fun b => b.seq == sq / 4096 with
  | some d, some b =>
    match (d.writes b.off b.n)[sq % 4096]? with
    | none => s
    | some w =>
      let t := s.updChan c fun x => { x with bursts := x.bursts.map fun z =>
        if z.seq = b.seq then { z with wr := z.wr - 1, left := z.left - w.2.2 } else z }
      let t := if kind = .okay ∨ kind = .poison then t else t.dmaFail c w.1 2
      t.dmaRetireAll c
  | _, _ => s

/-- A voice's WPTR or a capture queue's RPTR advanced by n bytes, as the write engine's register write (R262). -/
def Chip.dmaAdvance (s : Chip) (req n : Nat) : Chip :=
  if 0x200 ≤ req then
    if s.domOn 42 then
      s.audTake.setFld F.vWptr_WPTR (req - 0x200) 0 ((s.fld F.vWptr_WPTR (req - 0x200) + n) % s.ringSize (req - 0x200))
    else s.logErr 5 (.own 0x21) 31 (s.localAddr (RegId.vWptr.row.base + (req - 0x200) * RegId.vWptr.row.s1))
  else if s.domOn 44 then
    s.audTake.setCqRptr (req - 0xC0) ((s.fld F.cqRptr_RPTR (req - 0xC0) + n) % 2 ^ s.fld F.cqCtrl_SIZE (req - 0xC0))
  else s.logErr 5 (.own 0x21) 31 (s.localAddr (RegId.cqRptr.row.base + (req - 0xC0) * RegId.cqRptr.row.s1))

/-- A pointer update of channel c (R262); a burst that has met an error by now makes none. -/
def Chip.dmaPointer (s : Chip) (c : Nat) : Chip :=
  match (s.chan c).ptrs with
  | [] => s
  | p :: rest =>
    let t := s.updChan c fun x => { x with ptrs := rest }
    let t := if (s.chan c).clean p.1 then t.dmaAdvance (s.fld F.dmacCfg_REQSRC c) p.2 else t
    (t.dmaSettle c).dmaRequest c

/-! ### The end of a descriptor (R256, R265, R266, R268) -/

/-- The status word: its CODE, POISON and BYTES_OK. -/
def Chip.dmaStatus (s : Chip) (c : Nat) (d : Desc) : Nat × Nat :=
  let x := s.chan c
  match x.fail with
  | some (o, k) => (k, d.groupStart o)
  | none => if x.bad then (3, 0) else if s.dmaState c = 6 then (4, s.fld F.dmacPos_POS c) else (0, d.len)

/-- Whether channel c has a descriptor to finish: nothing is outstanding, and it is done, failed, bad or aborted. -/
def Chip.dmaDue (s : Chip) (c : Nat) (d : Desc) : Bool :=
  let x := s.chan c
  let st := s.dmaState c
  x.bursts.isEmpty && x.ptrs.isEmpty &&
    decide (st = 6 ∨ (st = 4 ∧ x.fail.isSome) ∨ ((st = 2 ∨ st = 3) ∧ (x.bad ∨ s.fld F.dmacPos_POS c = d.len)))

/-- One 32-bit write by the write engine to the descriptor. -/
def Chip.dmaPut (s : Chip) (a v : Nat) : Chip :=
  if s.storeUp a then s.memWrite (.own 0x21) a 4 v false else s.logOff (.own 0x21) a

/-- Whether the write engine's writes to a descriptor have to wait: for a bank that is being drained (R367), or behind an
earlier write of the engine to their page (R353). -/
def Chip.dmaPutWaits (s : Chip) (a : Nat) : Bool :=
  let w : Access := { mst := .own 0x21, owner := .none, write := true, addr := s.localAddr a, size := 4, data := 0, poison := false }
  s.heldByRepair a 32 || (s.issueQ ++ s.held).any fun b => b.holdsBack w

/-- Channel c finishes its descriptor: STATUS, CTRL with OWN = 0, the fence, DONE; then IDLE, HALTED or the next one. -/
def Chip.dmaFinish (s : Chip) (c : Nat) : Chip :=
  match (s.chan c).desc with
  | none => s
  | some d =>
    if !s.dmaDue c d ∨ s.dmaPutWaits d.addr then s
    else
      let st := s.dmaStatus c d
      let pz := (s.chan c).poison
      let t := s.dmaPut (d.addr + 0x1C) (st.1 * 2 ^ 28 + b2n pz * 2 ^ 27 + st.2)
      let t := t.dmaPut d.addr (d.ctrl % 2 ^ 31)
      let t := if d.fsig then t.fenceWrite (.own 0x21) d.fence else t
      let t := (t.setFld F.dmacStat_DONE c 0 1).bump F.dmacDonecnt_COUNT F.dmacDonecnt_SAT c
      let t := if d.irq then t.dmaDoneBit c else t
      let t := if st.1 = 0 then t else t.dmaErrBit F.dmacStat_ERR c
      let t := if pz then t.setFld F.dmacStat_POISON c 0 1 else t
      let t := t.setFld F.dmacDesc_ADDR c 0 d.next
      if s.dmaState c = 6 then t.dmaIdle c
      else if st.1 ≠ 0 ∧ !d.cont then
        (t.updChan c fun x => { x with desc := none, stop := if d.last then 2 else 1 }).setDmaState c 5
      else if d.last then t.dmaIdle c
      else t.dmaFetch c

/-- A write to DMAc_CFG, HI, LO or DESC (R252). -/
def Chip.writeDmaCfg (s : Chip) (fs : List Fd) (c v : Nat) : Chip :=
  if s.dmaState c = 0 ∨ s.dmaState c = 5 then fs.foldl (fun t f => t.writeFld f c 0 v) s else s.dmaErrBit F.dmacStat_CFG_REJ c

/-- DMA_STAT as it reads; a part of a KiB counts as the model's free bit says (Table 8.4 gives no rounding). -/
def Chip.dmaStatWord (s : Chip) : Nat × Chip :=
  let k := s.dmaUse / 1024
  if s.dmaUse % 1024 = 0 then (k * 256 + s.dmaInflight, s)
  else ((k + (s.free 1).1) * 256 + s.dmaInflight, (s.free 1).2)

end Sys2Proof.Machine
end

