-- ==== Sys2Proof/Machine/Stores.lean ====
section
/-! DEFINITION. The patrol, the error log and the repairs of the stores (spec/11_fabric_stores.md, R358 to R373). -/

namespace Sys2Proof.Machine

/-! ### Patrol and error log (R362, R364, R366) -/

/-- The patrol reads the beat at local address a of a stacked store and handles any error (R362). -/
def Chip.scrub (s : Chip) (a : Nat) : Chip :=
  let u := a / 16 * 16
  if !s.on F.fabCtrl_SCRUB_EN ∨ 0x17000000 ≤ u ∨ !s.domOn 41 ∨ !s.storeUp u then s
  else
    let t := (s.checkUnit u).2
    if Store.get? u s.marks = some .uncorrectable then t.logErr 3 (.own 0x50) (s.storeOf u) (s.localAddr u) else t

/-- The oldest error record leaves the log (R364). -/
def Chip.writeElogPop (s : Chip) (v : Nat) : Chip := if bit v 0 then { s with elog := s.elog.drop 1 } else s

/-- Word i of the oldest error record (Table 11.4). -/
def Chip.elogWord (s : Chip) (i : Nat) : Nat :=
  match s.elog with
  | [] => 0
  | r :: _ =>
    match i with
    | 0 => r.kind * 2 ^ 28 + r.master * 2 ^ 16 + r.chip * 2 ^ 6 + r.store
    | 1 => r.addr % 2 ^ 32
    | 2 => r.addr / 2 ^ 32 % 2 ^ 8
    | _ => r.time

/-- FAB_ELOG_LEVEL: the counter and the records held. -/
def Chip.elogLevelWord (s : Chip) : Nat := s.word .fabElogLevel + s.elog.length

/-- The error hour of store st ends and is forgotten (R366). -/
def Chip.ceHourEnd (s : Chip) (st : Nat) : Chip :=
  match Store.get? st s.ceHours with
  | none => s
  | some (b, _) => if 3600000000000 ≤ sub64 s.tb.toNat b then { s with ceHours := NStore.del s.ceHours st } else s

/-- A write to FAB_STAT; clearing CE_HIGH begins every store's hours anew (R366). -/
def Chip.writeFabStat (s : Chip) (v : Nat) : Chip :=
  let t := [F.fabStat_ELOG_OVF, F.fabStat_SPARE_FAIL, F.fabStat_SPARE_DONE, F.fabStat_CE_HIGH, F.fabStat_UE].foldl
    (fun t f => t.w1c f 0 0 v) s
  if bit v 1 && s.on F.fabStat_CE_HIGH then { t with ceHours := [] } else t

/-! ### Repairs (R367 to R371) -/

/-- The spare physical pattern banks. -/
def Chip.bankSpares (s : Chip) : List Nat :=
  (List.range 30).filter fun p => !s.unusable.contains (2 * 4096 + p) && (List.range 28).all fun b => s.fld F.fabMap_PHYS b != p

/-- A refused repair command (R369, R371). -/
def Chip.spareFail (s : Chip) (reason : Nat) : Chip :=
  (s.setFld F.fabSpareStat_REASON 0 0 reason).stick F.fabStat_SPARE_FAIL 0 342

/-- A replacement begun: BUSY, in phase COPY. -/
def Chip.spareBegin (s : Chip) (r : Repair) : Chip :=
  { (((s.setFld F.fabSpareStat_BUSY 0 0 1).setFld F.fabSpareStat_PHASE 0 0 1).setFld F.fabSpareStat_PROGRESS 0 0 0) with
    repair := some r }

/-- A write to FAB_SPARE_CMD (R367, R371); a refused one is discarded whole (R369). -/
def Chip.writeSpareCmd (s : Chip) (v : Nat) : Chip :=
  let t := (s.writeFld F.fabSpareCmd_ROW 0 0 v).writeFld F.fabSpareCmd_STORE 0 0 v
  let st := bits v 5 0
  if !bit v 31 then t
  else if s.on F.fabSpareStat_BUSY then s.spareFail 1
  else if st < 28 then
    match s.bankSpares with
    | [] => s.spareFail 2
    | p :: _ => t.spareBegin ⟨st, 0, p, false⟩
  else if 32 ≤ st ∧ st < 48 then
    if 82 ≤ s.fld F.fabFsrow_USED (st - 32) then s.spareFail 2 else t.spareBegin ⟨st, bits v 27 16, 0, false⟩
  else s.spareFail 3

/-- The copy to the spare ends: each beat was read and checked on the way (R367); new accesses are held from here. -/
def Chip.copyDone (s : Chip) : Chip :=
  match s.repair with
  | none => s
  | some r =>
    if s.fld F.fabSpareStat_PHASE ≠ 1 then s
    else
      let us := (s.marks.map fun p => p.1).filter r.covers
      let t := (s.checkUnits us).2
      (t.setFld F.fabSpareStat_PROGRESS 0 0 255).setFld F.fabSpareStat_PHASE 0 0 (if r.store < 28 then 2 else 3)

/-- The repair is over; the held accesses are released. -/
def Chip.spareEnd (s : Chip) : Chip :=
  let t := { s with repair := none, issueQ := s.held ++ s.issueQ, held := [] }
  (((t.setFld F.fabSpareStat_BUSY 0 0 0).setFld F.fabSpareStat_PHASE 0 0 0)).stick F.fabStat_SPARE_DONE 0 342

/-- The bank is fenced and the map switched to the spare; a replaced bank is given up, a rotated one is to be tested
(R367, R505). -/
def Chip.drainDone (s : Chip) : Chip :=
  match s.repair with
  | none => s
  | some r =>
    if s.fld F.fabSpareStat_PHASE ≠ 2 then s
    else
      let old := s.fld F.fabMap_PHYS r.store
      let t := s.setFld F.fabMap_PHYS r.store 0 r.spare
      ({ t with unusable := t.unusable ++ [2 * 4096 + old] }).spareEnd

/-- Whether n bytes from offset o of a frame store touch its bank of the parity b (R351). -/
def touchesBank (o n b : Nat) : Bool := decide (257 ≤ n ∨ o / 256 % 2 = b ∨ (o + n - 1) / 256 % 2 = b)

/-- Whether a course write-back of head h to its bank of parity b is in flight: one is from the composing of a course that is
not abandoned until its seal (R114, R371). -/
def Chip.writeBackInFlight (s : Chip) (h b : Nat) : Bool :=
  match (s.comp h).bufs with
  | [] => false
  | c :: _ =>
    let n := s.fld F.shHtime_HA h * s.fsBytes h
    c.gone.isNone && (List.range c.lines.length).any fun i =>
      touchesBank ((s.frm h c.frame).base + (c.y0 + i) * s.pitch h) n b

/-- Whether a beam line of a running head begins in the present tick. -/
def Chip.atLineStart (s : Chip) (h : Nat) : Bool :=
  let y := (s.beamNow h).2
  s.lineStart h y || s.lineStart h ((y + 1) % max 1 (s.fld F.shVtime_VT h))

/-- At the start of a beam line of the owning head with no write-back to the bank in flight, or at once where the head is not
scanning, a frame-store row switches to its spare (R371). -/
def Chip.rowSwitch (s : Chip) : Chip :=
  match s.repair with
  | none => s
  | some r =>
    let b := r.store - 32
    let h := b / 2
    let now := !s.on F.shStat_RUNNING h || (s.atLineStart h && !s.writeBackInFlight h (b % 2))
    if s.fld F.fabSpareStat_PHASE = 3 ∧ now then
      (s.setFld F.fabFsrow_USED b 0 (s.fld F.fabFsrow_USED b + 1)).spareEnd
    else s

/-- FAB_SPARE_STAT as it reads. How far a copy has reached is not stated, but it never goes back (R368). -/
def Chip.spareStatWord (s : Chip) : Nat × Chip :=
  if s.fld F.fabSpareStat_PHASE = 1 then
    let p := s.fld F.fabSpareStat_PROGRESS
    let t := (s.free 8).2.setFld F.fabSpareStat_PROGRESS 0 0 (p + (s.free 8).1 % (256 - p))
    (t.word .fabSpareStat, t)
  else (s.word .fabSpareStat, s)

end Sys2Proof.Machine
end

