-- ==== Sys2Proof/Machine/Links.lean ====
section
/-! DEFINITION. The lintel links and the canvas (spec/14_lintel_canvas.md, R438 to R462): packets, retry, routes, remote
accesses, broadcast and time alignment. Every access travels in a packet of its own, and the requests of one package take
their tags in order (DESIGN CHOICE, notes/assumptions/28.md). -/

namespace Sys2Proof.Machine

def Chip.link (s : Chip) (l : Nat) : Link := NStore.get {} s.links l
def Chip.updLink (s : Chip) (l : Nat) (f : Link → Link) : Chip := { s with links := NStore.set s.links l (f (s.link l)) }
def Chip.updNet (s : Chip) (f : Net → Net) : Chip := { s with net := f s.net }

/-- A W1C bit of LNKl_STAT set (R462). -/
def Chip.linkStick (s : Chip) (f : Fd) (l : Nat) : Chip := s.stick f l (376 + l)

/-- A W1C bit of LNK_STAT set (R462). -/
def Chip.netStick (s : Chip) (f : Fd) : Chip := s.stick f 0 376

/-! ### The canvas and its routes (R446, R447, R449) -/

def Chip.lnkW (s : Chip) : Nat := s.fld F.lnkCfg_WM1 + 1
def Chip.lnkH (s : Chip) : Nat := if s.fld F.lnkCfg_TOPO = 2 then s.fld F.lnkCfg_HM1 + 1 else 1
def Chip.lnkWraps (s : Chip) : Bool := decide (1 ≤ s.fld F.lnkCfg_TOPO)

/-- Whether a chip number names a package of the canvas. -/
def Chip.inCanvas (s : Chip) (d : Nat) : Bool := s.fld F.lnkCfg_ROLE != 0 && decide (d < s.lnkW * s.lnkH)

/-- The failed edges along one ring, as the position each leaves in its + direction. -/
def Chip.ringDowns (s : Chip) (dim line : Nat) : List Nat :=
  s.net.downs.filterMap fun e =>
    let c := e / 2
    if e % 2 ≠ dim then none
    else if dim = 0 then (if c / s.lnkW = line then some (c % s.lnkW) else none)
    else (if c % s.lnkW = line then some (c / s.lnkW) else none)

/-- How a ring is crossed from a to b: none where it cannot be, else no hop or the direction (true is +) and the hops. -/
def ringPath (w : Nat) (wraps : Bool) (downs : List Nat) (a b : Nat) : Option (Option (Bool × Nat)) :=
  if a = b then some none
  else
    let p := (b + w - a) % w
    let m := w - p
    let badP := downs.any fun e => decide ((e + w - a) % w < p)
    let badM := downs.any fun e => decide ((a + 2 * w - 1 - e) % w < m)
    let plus := if wraps then decide (p ≤ m) else decide (a < b)
    let bad := if plus then badP else badM
    let alt := if plus then badM else badP
    if !bad then some (some (plus, if plus then p else m))
    else if wraps ∧ !alt then some (some (!plus, if plus then m else p))
    else none

/-- The path to package d: along x, then along y. -/
def Chip.pathOf (s : Chip) (d : Nat) : Option (Option (Bool × Nat) × Option (Bool × Nat)) :=
  if !s.net.filled ∨ !s.inCanvas d then none
  else
    let w := s.lnkW
    let c := s.chipNo
    match ringPath w s.lnkWraps (s.ringDowns 0 (c / w)) (c % w) (d % w),
          ringPath s.lnkH s.lnkWraps (s.ringDowns 1 (d % w)) (c / w) (d / w) with
    | some x, some y => some (x, y)
    | _, _ => none

/-- The link towards package d: 4 for this package itself, none where it is not reachable (Table 14.7). -/
def Chip.routeOf (s : Chip) (d : Nat) : Option Nat :=
  if d = s.chipNo then (if s.net.filled ∨ s.fld F.lnkCfg_ROLE = 0 then some 4 else none)
  else match s.pathOf d with
    | some (some (p, _), _) => some (if p then 0 else 1)
    | some (none, some (p, _)) => some (if p then 2 else 3)
    | _ => none

/-- The hops to package d. -/
def Chip.hopsTo (s : Chip) (d : Nat) : Nat :=
  match s.pathOf d with
  | some (x, y) => (x.map fun p => p.2).getD 0 + (y.map fun p => p.2).getD 0
  | none => 0

/-- LNK_ROUTEd as it reads. -/
def Chip.routeWord (s : Chip) (d : Nat) : Nat :=
  match s.routeOf d with
  | some l => 2 ^ 31 + l
  | none => 0

/-- The package that link l of package c leads to (Table 14.4). -/
def Chip.peerOf (s : Chip) (c l : Nat) : Nat :=
  let w := s.lnkW
  let h := s.lnkH
  let x := c % w
  let y := c / w
  match l with
  | 0 => y * w + (x + 1) % w
  | 1 => y * w + (x + w - 1) % w
  | 2 => (y + 1) % h * w + x
  | _ => (y + h - 1) % h * w + x

/-- The edge that link l of package c is (links 1 and 3 run against it). -/
def Chip.edgeOf (s : Chip) (c l : Nat) : Nat :=
  match l with
  | 0 => c * 2
  | 1 => s.peerOf c 1 * 2
  | 2 => c * 2 + 1
  | _ => s.peerOf c 3 * 2 + 1

/-- Whether link l leaves this package over the wrap of its ring (R448). -/
def Chip.isWrap (s : Chip) (l : Nat) : Bool :=
  let w := s.lnkW
  let x := s.chipNo % w
  let y := s.chipNo / w
  s.lnkWraps && (match l with
    | 0 => x + 1 == w
    | 1 => x == 0
    | 2 => y + 1 == s.lnkH
    | _ => y == 0)

/-- The parent (R453): the next hop to the root, with its fields of LNK_PARENT. -/
def Chip.setParent (s : Chip) : Chip :=
  let root := s.fld F.lnkCfg_ROOT
  match s.routeOf root with
  | some l =>
    if l = 4 ∨ s.fld F.lnkCfg_ROLE ≠ 1 then s.setFld F.lnkParent_VALID 0 0 0
    else (((s.setFld F.lnkParent_VALID 0 0 1).setFld F.lnkParent_LINK 0 0 l).setFld F.lnkParent_HOPS 0 0 (s.hopsTo root)).setFld
      F.lnkParent_CHIP 0 0 (s.peerOf s.chipNo l)
  | none => s.setFld F.lnkParent_VALID 0 0 0

/-! ### Sending (R442 to R444, R448) -/

/-- The bytes of a packet: header, payload padded to 8, trailer (R439); a read request carries no payload. -/
def Packet.bytes (p : Packet) : Nat := 24 + (if p.typ = 0 then 0 else (p.len + 7) / 8 * 8)

/-- The check sum of a packet: CRC-32C over its header, its payload and bytes 0 to 3 of its trailer (Table 14.2). -/
def Packet.crcOf (p : Packet) : Nat :=
  let hdr := p.typ * 2 ^ 12 + p.vl * 2 ^ 10 + p.cls * 2 ^ 9 + p.len + p.seq * 2 ^ 16 + p.dst * 2 ^ 32 + p.src * 2 ^ 48 +
    p.master * 2 ^ 64 + p.resp * 2 ^ 72 + p.tag * 2 ^ 80 + p.addr * 2 ^ 96
  crcEnd (crcBytes (crcBytes (crcBytes 0xFFFFFFFF hdr 16) p.data (p.bytes - 24)) p.pmask 4)

/-- A packet as it is sent with sequence number n. -/
def Packet.stamp (p : Packet) (n : Nat) : Packet := { p with seq := n, crc := { p with seq := n }.crcOf }

/-- The credits a packet takes (R442). -/
def Packet.credits (p : Packet) : Nat := (p.bytes + 63) / 64

/-- The credits of a virtual lane (Table 14.3). -/
def vlCredits (vl : Nat) : Nat := if vl = 2 then 512 else if vl = 3 then 32 else 256

/-- One pass over the packets that wait at link l: each that has credits, room, and no waiting packet of its lane before
it, takes its sequence number and enters the replay buffer. -/
def Link.pump (x : Link) (now : Nat) : List Packet → List Nat → Link
  | [], _ => x
  | p :: ps, blocked =>
    let used := NStore.get 0 x.spent p.vl
    let room := x.replay.foldl (fun n q => n + q.bytes) 0 + p.bytes
    if blocked.contains p.vl ∨ vlCredits p.vl < used + p.credits ∨ 32768 < room then
      { x with wait := x.wait ++ [p] }.pump now ps (p.vl :: blocked)
    else
      { x with replay := x.replay ++ [p.stamp x.next], next := (x.next + 1) % 4096,
               since := if x.replay.isEmpty then now else x.since,
               spent := NStore.put0 x.spent p.vl (used + p.credits) }.pump now ps blocked

/-- The receive buffer of the link that packet p came over is free of it: its credits go back in a CREDIT block (R442). -/
def Chip.bufFree (s : Chip) (p : Packet) : Chip :=
  if 4 ≤ p.inl then s
  else s.updLink p.inl fun x => { x with held := NStore.put0 x.held p.vl (NStore.get 0 x.held p.vl - p.credits),
                                         sent := x.sent ++ [.credit p.vl p.credits] }

/-- Link l sends what it can. -/
def Chip.linkPump (s : Chip) (l : Nat) : Chip :=
  if s.fld F.lnklStat_STATE l ≠ 2 then s
  else
    let t := s.updLink l fun x => { x with wait := [] }.pump s.now x.wait []
    ((t.link l).replay.drop (s.link l).replay.length).foldl (fun t p => t.bufFree p) t

/-- A packet given to link l. -/
def Chip.linkPush (s : Chip) (l : Nat) (p : Packet) : Chip :=
  (s.updLink l fun x => { x with wait := x.wait ++ [if s.isWrap l then { p with cls := 1 } else p] }).linkPump l

/-- A packet sent towards its destination; where no link leads there it is dropped. -/
def Chip.sendTo (s : Chip) (p : Packet) : Chip :=
  match s.routeOf p.dst with
  | some l => if l < 4 then s.linkPush l p else s.bufFree p
  | none => s.bufFree p

/-- A TALIGN or LINKCTL packet to package d. Table 14.2 gives their header, no table their payload: its length and bytes are
free values (notes/assumptions/79.md). -/
def Chip.ctlPacket (s : Chip) (typ d : Nat) : Packet × Chip :=
  let (n, s) := s.free 9
  let (v, s) := s.free 2048
  ({ typ := typ, vl := 3, cls := 0, len := n % 257, seq := 0, dst := d, src := s.chipNo, master := 0, resp := 0, tag := 0,
     addr := 0, data := v % 2 ^ (8 * (n % 257)), pmask := 0 }, s)

/-- A TALIGN packet sent over link l to its peer (R453). -/
def Chip.talignSend (s : Chip) (l : Nat) : Chip :=
  let (p, s) := s.ctlPacket 6 (s.peerOf s.chipNo l)
  s.linkPush l p

/-- A LINKCTL packet sent to package d (R449, R455). -/
def Chip.linkctlSend (s : Chip) (d : Nat) : Chip :=
  let (p, s) := s.ctlPacket 7 d
  s.sendTo p

/-- A LINKCTL packet to every other package of the canvas. -/
def Chip.linkctlAll (s : Chip) : Chip :=
  ((List.range (s.lnkW * s.lnkH)).filter fun d => d != s.chipNo).foldl (fun t d => t.linkctlSend d) s

/-- A response entered for its master. -/
def Chip.respond (s : Chip) (a : Access) (k : RespKind) (data : Nat) : Chip :=
  { s with resps := s.resps ++ [⟨a.mst, a.owner, k, a.write, a.addr, a.size, data⟩] }

/-- Whether an access is a tee write or the fence write that follows it, which the links issue on their own account on
virtual lane 2 (R451). -/
def Access.ofTee (a : Access) : Bool :=
  match a.owner with
  | .tee _ _ | .teeFence => true
  | _ => false

/-- The identity an access carries on the wire: a tee's is that of its link (R451). -/
def Access.wireId (a : Access) (l : Nat) : Nat := if a.ofTee then 0x60 + l else a.mst.idNo

/-- The request packet of an access. -/
def Chip.reqPacket (s : Chip) (a : Access) (typ tag dst l : Nat) : Packet :=
  { typ := typ, vl := if a.ofTee then 2 else 0, cls := 0, len := a.size, seq := 0, dst := dst,
    src := s.chipNo, master := a.wireId l, resp := 0, tag := tag, addr := a.addr % 2 ^ 30,
    data := if a.write then a.data else 0, pmask := b2n a.poison, cuts := [a.size] }

/-- A request entered with its tag. -/
def Chip.newReq (s : Chip) (a : Access) (dst need : Nat) : Chip :=
  s.updNet fun n => { n with reqs := n.reqs ++ [⟨n.nextTag, a, dst, s.now, need, .okay⟩],
                             nextTag := (n.nextTag + 1) % 65536 }

/-- An access to another package sent (R22, R449, R450). -/
def Chip.remoteSend (s : Chip) (a : Access) : Chip :=
  let d := a.addr / 2 ^ 30
  if !s.inCanvas d ∨ !s.net.filled then s.respond a .decode 0
  else if s.net.moved.contains d then s.updNet fun n => { n with wait := n.wait ++ [a] }
  else match s.routeOf d with
    | none => s.respond a .link 0
    | some l =>
      if 4 ≤ l then s.respond a .decode 0
      else (s.newReq a d 1).linkPush l (s.reqPacket a (b2n a.write) s.net.nextTag d l)

/-- Requests held for a destination go on once every earlier one has ended (R449). -/
def Chip.netRelease (s : Chip) : Chip :=
  let free := s.net.moved.filter fun d => !s.net.reqs.any fun r => r.dst == d
  if free.isEmpty then s
  else
    let go := s.net.wait.filter fun a => free.contains (a.addr / 2 ^ 30)
    let t := s.updNet fun n => { n with moved := n.moved.filter fun d => !free.contains d,
                                        wait := n.wait.filter fun a => !free.contains (a.addr / 2 ^ 30) }
    go.foldl (fun t a => t.remoteSend a) t

/-- One response to a request: the first error stands; with the last one the access ends (R450, R452). -/
def Chip.reqResp (s : Chip) (tag : Nat) (k : RespKind) (data : Nat) : Chip :=
  match s.net.reqs.find? fun r => r.tag == tag with
  | none => s
  | some r =>
    let k' := if r.kind = .okay then k else r.kind
    if 1 < r.need then
      s.updNet fun n => { n with reqs := n.reqs.map fun q => if q.tag = tag then { q with need := q.need - 1, kind := k' } else q }
    else
      ((s.updNet fun n => { n with reqs := n.reqs.filter fun q => q.tag != tag }).respond r.acc k' data).netRelease

/-! ### Broadcast (R452) -/

/-- The links over which a broadcast goes on from this package: `fromL` is the link it came over, 4 at its sender. -/
def Chip.bcastLinks (s : Chip) (src fromL : Nat) : List Nat :=
  let w := s.lnkW
  let h := s.lnkH
  let wr := s.lnkWraps
  let more := fun (len a b : Nat) (plus : Bool) =>
    if wr then
      (if plus then decide ((b + len - a) % len < len / 2) else decide ((a + len - b) % len < (len - 1) / 2))
    else (if plus then decide (b + 1 < len) else decide (0 < b))
  let sx := src % w
  let sy := src / w
  let x := s.chipNo % w
  let y := s.chipNo / w
  let xs := (if (fromL = 4 ∨ fromL = 1) ∧ 1 < w ∧ more w sx x true then [0] else []) ++
    (if (fromL = 4 ∨ fromL = 0) ∧ 1 < w ∧ more w sx x false then [1] else [])
  let ys := (if fromL ≠ 2 ∧ 1 < h ∧ more h sy y true then [2] else []) ++
    (if fromL ≠ 3 ∧ 1 < h ∧ more h sy y false then [3] else [])
  xs ++ ys

/-- An access whose chip number is BCCHIP while BCEN is 1: a read has no meaning, a write goes to every package and, where
BCSELF is 1, to this one. -/
def Chip.bcastSend (s : Chip) (a : Access) : Chip :=
  if !a.write then s.respond a .decode 0
  else
    let others := if s.inCanvas s.chipNo ∧ s.net.filled then s.lnkW * s.lnkH - 1 else 0
    let self := s.on F.lnkBcast_BCSELF
    let tag := s.net.nextTag
    if others = 0 ∧ !self then s.respond a .okay 0
    else
      let t := s.newReq a (a.addr / 2 ^ 30) (others + b2n self)
      let t := (if others = 0 then [] else s.bcastLinks s.chipNo 4).foldl
        (fun t l => t.linkPush l (s.reqPacket a 4 tag (a.addr / 2 ^ 30) l)) t
      if self then
        { t with issueQ := t.issueQ ++ [{ a with owner := .bcast tag, addr := s.chipNo * 2 ^ 30 + a.addr % 2 ^ 30 }] }
      else t

/-! ### Receiving (R440, R443, R447, R450, R451) -/

/-- The response packet of a request that came over a link. -/
def Chip.jobAnswer (s : Chip) (j : LinkJob) : Chip :=
  let typ := if j.typ = 0 then 2 else if j.typ = 1 then 3 else 5
  s.sendTo { typ := typ, vl := 1, cls := 0, len := if j.typ = 0 then j.len else 0, seq := 0, dst := j.src, src := s.chipNo,
             master := j.master, resp := j.resp, tag := j.tag, addr := j.addr, data := j.data, pmask := j.pmask }

/-- The response code of a packet (Table 14.2). -/
def RespKind.packetCode : RespKind → Nat
  | .okay => 0
  | .poison => 0
  | .decode => 1
  | _ => 2

/-- A job with one more of its accesses answered, at byte off. -/
def LinkJob.answered (j : LinkJob) (off : Nat) (k : RespKind) (data : Nat) : LinkJob :=
  { j with left := j.left - 1
           data := if j.typ = 0 then j.data + data * 2 ^ (8 * off) else 0
           resp := if j.resp = 0 then k.packetCode else j.resp
           pmask := if k = .poison ∧ !bit j.pmask ((j.addr % 16 + off) / 16) then j.pmask + 2 ^ ((j.addr % 16 + off) / 16)
             else j.pmask }

/-- The response to an access of a job. -/
def Chip.jobResp (s : Chip) (job : Nat) (k : RespKind) (addr data : Nat) : Chip :=
  match Store.get? job s.net.jobs with
  | none => s
  | some j =>
    let x := j.answered (addr % 2 ^ 30 - j.addr) k data
    if x.left = 0 then (s.updNet fun q => { q with jobs := NStore.del q.jobs job }).jobAnswer x
    else s.updNet fun q => { q with jobs := NStore.set q.jobs job x }

/-- Accesses of the sizes given, one after another from address a. -/
def cutsAt (a : Nat) : List Nat → List (Nat × Nat)
  | [] => []
  | n :: t => (a, n) :: cutsAt (a + n) t

/-- The accesses of a packet's run (R440): those it was made of, in ascending order; the largest natural ones where the
packet's record of them is not one of its run. -/
def Packet.accesses (p : Packet) : List (Nat × Nat) :=
  if p.cuts.foldl (· + ·) 0 = p.len ∧ ((cutsAt p.addr p.cuts).all fun c => decide (c.2 ∈ [1, 2, 4, 8, 16] ∧ c.1 % c.2 = 0)) = true
  then cutsAt p.addr p.cuts
  else accessesOf p.addr p.len

/-- The accesses of a request that came over link l, performed here under the sender's identity pair. -/
def Chip.startJob (s : Chip) (l : Nat) (p : Packet) : Chip :=
  let cuts := p.accesses
  let job := s.net.nextJob
  let j : LinkJob := { typ := p.typ, src := p.src, master := p.master, tag := p.tag, addr := p.addr, len := p.len,
                       left := cuts.length, data := 0, pmask := 0, resp := 0 }
  if cuts.isEmpty then s.jobAnswer j
  else
    let accs := cuts.zipIdx.map fun (c : (Nat × Nat) × Nat) =>
      ({ mst := .remote l p.src p.master, owner := .link job c.2, write := p.typ != 0,
         addr := s.chipNo * 2 ^ 30 + c.1.1, size := c.1.2,
         data := if p.typ = 0 then 0 else p.data / 2 ^ (8 * (c.1.1 - p.addr)) % 2 ^ (8 * c.1.2),
         poison := p.typ != 0 && bit p.pmask ((p.addr % 16 + (c.1.1 - p.addr)) / 16) } : Access)
    { (s.updNet fun n => { n with jobs := NStore.set n.jobs job j, nextJob := job + 1 }) with issueQ := s.issueQ ++ accs }

/-- A packet that came over link l as it goes on over link o, in the buffer class R448 gives. -/
def Packet.onward (p : Packet) (l o : Nat) : Packet := { p with cls := if o / 2 = l / 2 then p.cls else 0 }

/-- A packet for another package goes on in the order received; it leaves the receive buffer when it is sent. -/
def Chip.forward (s : Chip) (l : Nat) (p : Packet) : Chip :=
  match s.routeOf p.dst with
  | some o => if o < 4 then s.linkPush o (p.onward l o) else s.bufFree p
  | none => s.bufFree p

/-- A broadcast over each of the links it goes on over; the first that is sent frees the receive buffer. -/
def Chip.bcastOn (s : Chip) (l : Nat) (p : Packet) : Chip :=
  match s.bcastLinks p.src l with
  | [] => s.bufFree p
  | o :: os => os.foldl (fun t o => t.linkPush o ({ p with inl := 4 }.onward l o)) (s.linkPush o (p.onward l o))

/-- Whether a TALIGN packet that came over link l is the answer to one of this package's: the link leads to its parent. -/
def Chip.fromParent (s : Chip) (l : Nat) : Bool := s.on F.lnkParent_VALID && s.fld F.lnkParent_LINK == l

/-- An accepted packet acted on. A TALIGN packet that is no answer is answered; what an answer or a LINKCTL packet says comes
with the commands TALIGN, ROUTE_NOTICE, LATE_JOIN and START_UP. -/
def Chip.acceptPacket (s : Chip) (l : Nat) (p : Packet) : Chip :=
  if p.typ = 4 then (s.startJob l p).bcastOn l p
  else if p.dst ≠ s.chipNo then s.forward l p
  else
    let t := s.bufFree p
    if p.typ ≤ 1 then t.startJob l p
    else if p.typ = 2 ∨ p.typ = 3 ∨ p.typ = 5 then
      let k := if p.resp = 1 then RespKind.decode else if p.resp ≠ 0 then .target else if p.pmask ≠ 0 then .poison else .okay
      t.reqResp p.tag k (if p.typ = 2 ∧ p.resp = 0 then p.data else 0)
    else if p.typ = 6 ∧ !s.fromParent l then t.talignSend l
    else t

/-- A packet taken into the receive buffer of its virtual lane, and acknowledged at once (R442, R443). -/
def Link.take (x : Link) (p : Packet) : Link :=
  { x with expect := (x.expect + 1) % 4096, nakSent := false, sent := x.sent ++ [.ack p.seq],
           held := NStore.put0 x.held p.vl (NStore.get 0 x.held p.vl + p.credits) }

/-- A packet discarded: the first one of a gap sends NAK with the number expected (R443). -/
def Link.refuse (x : Link) : Link :=
  if x.nakSent then x else { x with nakSent := true, sent := x.sent ++ [.nak x.expect] }

/-- A packet received on link l; `good` says that every one of its blocks has a good sync header and that no control block of
a reserved type came with it (R439, R443). -/
def Chip.packetReceive (s : Chip) (l : Nat) (p : Packet) (good : Bool) : Chip :=
  let x := s.link l
  if s.fld F.lnklStat_STATE l ≠ 2 then s
  else
    let ahead := (p.seq + 4096 - x.expect) % 4096
    if !good ∨ p.crc ≠ p.crcOf ∨ 8 ≤ p.typ ∨ (0 < ahead ∧ ahead < 2048) then
      ((s.bump F.lnklCrccnt_COUNT F.lnklCrccnt_SAT l).linkStick F.lnklStat_CRC l).updLink l fun x => x.refuse
    else if ahead = 0 then (s.updLink l fun x => x.take p).acceptPacket l { p with inl := l }
    else s

/-! ### Retry and training (R442 to R445) -/

/-- An ACK on link l covers every packet up to number n. -/
def Chip.linkAck (s : Chip) (l n : Nat) : Chip :=
  let x := s.link l
  if x.replay.any fun p => p.seq == n then
    (s.updLink l fun x => { x with replay := (x.replay.dropWhile fun p => p.seq != n).drop 1, resends := 0, since := s.now }).linkPump l
  else s

/-- Every unacknowledged packet is sent again, unless the oldest has been resent RETRYMAX times: then the link retrains. -/
def Chip.resend (s : Chip) (l : Nat) : Chip :=
  let x := s.link l
  if x.replay.isEmpty ∨ s.fld F.lnklStat_STATE l ≠ 2 then s
  else if s.fld F.lnklCtrl_RETRYMAX l ≤ x.resends then s.setFld F.lnklStat_STATE l 0 3
  else ((s.bump F.lnklRetrycnt_COUNT F.lnklRetrycnt_SAT l 0 x.replay.length).linkStick F.lnklStat_RETRY l).updLink l
    fun x => { x with resends := x.resends + 1, since := s.now }

/-- A NAK on link l. -/
def Chip.linkNak (s : Chip) (l : Nat) : Chip := s.resend l

/-- No ACK has arrived for 10 µs. -/
def Chip.ackTimeout (s : Chip) (l : Nat) : Chip :=
  if 10000 ≤ sub64 s.now (s.link l).since then s.resend l else s

/-- A CREDIT block returns n credits to a virtual lane. -/
def Chip.linkCredit (s : Chip) (l vl n : Nat) : Chip :=
  (s.updLink l fun x => { x with spent := NStore.put0 x.spent vl (NStore.get 0 x.spent vl - n) }).linkPump l

/-- Routes recomputed with an edge failed: a destination whose path changes holds new requests while it has old ones. -/
def Chip.failEdge (s : Chip) (e : Nat) : Chip :=
  if s.net.downs.contains e then s
  else
    let t := s.updNet fun n => { n with downs := n.downs ++ [e] }
    let ds := (List.range (s.lnkW * s.lnkH)).filter fun d => s.pathOf d != t.pathOf d
    if ds.isEmpty then t
    else
      let t := t.updNet fun n => { n with moved := (n.moved ++ ds.filter fun d => n.reqs.any fun r => r.dst == d).eraseDups }
      let u := (t.netStick F.lnkStat_REROUTE).setParent
      if u.fld F.lnkParent_CHIP = s.fld F.lnkParent_CHIP ∧ u.fld F.lnkParent_LINK = s.fld F.lnkParent_LINK ∧
          u.fld F.lnkParent_VALID = s.fld F.lnkParent_VALID then u
      else
        let u := u.updNet fun n => { n with thetas := [] }
        if u.on F.lnkStat_ALIGNED then (u.setFld F.lnkStat_ALIGNED 0 0 0).netStick F.lnkStat_ALIGN_LOST else u

/-- A route notice: link l of package c has gone DOWN (R449). -/
def Chip.routeNotice (s : Chip) (c l : Nat) : Chip := if s.inCanvas c then s.failEdge (s.edgeOf c l) else s

/-- A packet that still waits at a link that has gone DOWN: a request of this package is held as a new one or takes the new
route, another package's traffic and a response take the new route at once (R449). -/
def Chip.reroute (s : Chip) (l : Nat) (p : Packet) : Chip :=
  if p.src = s.chipNo ∧ p.typ ≤ 1 then
    match s.net.reqs.find? fun r => r.tag == p.tag with
    | some r => ((s.updNet fun n => { n with reqs := n.reqs.filter fun q => q.tag != p.tag }).netRelease).remoteSend r.acc
    | none => s
  else s.sendTo { p with cls := if s.isWrap l then 0 else p.cls }

/-- The link enters DOWN: its replay buffer is discarded, the routes change, and a route notice goes to every package; a
broadcast that waits for it is dropped. -/
def Chip.linkDown (s : Chip) (l : Nat) : Chip :=
  let t := (((s.setFld F.lnklStat_STATE l 0 4).updLink l fun x => { x with replay := [], resends := 0, wait := [] }).linkStick
    F.lnklStat_DOWN l).failEdge (s.edgeOf s.chipNo l)
  let t := if s.net.filled then t.linkctlAll else t
  (s.link l).wait.foldl (fun t p => if p.typ = 4 then t.bufFree p else t.reroute l p) t

/-- The physical lane that serves logical lane j of link l (Table 16.6). -/
def Chip.laneOf (s : Chip) (l j : Nat) : Nat := NStore.get (5 * l + j) s.phys (6 * 4096 + 4 * l + j) - 5 * l

/-- LANES of a link at width w: the physical lanes of its first w logical lanes. -/
def Chip.laneMask (s : Chip) (l w : Nat) : Nat := (List.range w).foldl (fun m j => m + 2 ^ s.laneOf l j) 0

/-- The logical lanes that link l trains with: all four, or the two or the one that the start left good (R445, R514). -/
def Chip.lanesUp (s : Chip) (l : Nat) : List Nat :=
  let js := (List.range 4).filter fun j => !s.dead.contains (6 * 4096 + 4 * l + j)
  js.take (if js.length = 4 then 4 else if 2 ≤ js.length then 2 else 1)

/-- A training of link l ends: good with the peer's chip number, or failed (R444, R447). -/
def Chip.retrain (s : Chip) (l : Nat) (good : Bool) (peer : Nat) : Chip :=
  let st := s.fld F.lnklStat_STATE l
  if st ≠ 1 ∧ st ≠ 3 then s
  else if !good then
    let t := s.updLink l fun x => { x with fails := x.fails + 1 }
    if (s.link l).fails + 1 < 3 then t else (t.updLink l fun x => { x with fails := 0 }).linkDown l
  else
    let js := s.lanesUp l
    let w := if st = 1 then js.length else s.fld F.lnklStat_WIDTH l
    let t := ((s.setFld F.lnklStat_WIDTH l 0 w).setFld F.lnklStat_LANES l 0
      (if st = 1 then js.foldl (fun m j => m + 2 ^ s.laneOf l j) 0 else s.fld F.lnklStat_LANES l)).updLink l
      fun x => { x with fails := 0, resends := 0, spent := [], since := s.now }
    if st = 1 then
      let t := (t.setFld F.lnklPeer_VALID l 0 1).setFld F.lnklPeer_CHIP l 0 peer
      if peer = s.peerOf s.chipNo l then (t.setFld F.lnklStat_STATE l 0 2).linkPump l
      else
        let t := ((t.setFld F.lnklStat_STATE l 0 4).linkStick F.lnklStat_PEER_ERR l).failEdge (s.edgeOf s.chipNo l)
        if s.net.filled then t.linkctlAll else t
    else ((t.setFld F.lnklStat_STATE l 0 2).linkStick F.lnklStat_RETRAINED l).linkPump l

/-- Physical lane p of link l fails (R445): the spare takes its place, or the link narrows to the lanes that remain. -/
def Chip.laneSpare (s : Chip) (l p : Nat) : Chip :=
  if s.fld F.lnklStat_STATE l ≠ 2 ∨ !bit (s.fld F.lnklStat_LANES l) p ∨ !s.on F.lnklCtrl_SPARE_EN l then s
  else
    let t := s.updLink l fun x => { x with bad := x.bad ++ [p] }
    let w := s.fld F.lnklStat_WIDTH l
    let js := (List.range 4).filter fun j => s.laneOf l j == p
    let spares := (List.range 5).filter fun q => !(t.link l).bad.contains q && (List.range 4).all fun j => s.laneOf l j != q
    match js, spares with
    | j :: _, q :: _ =>
      let t := { t with phys := NStore.set t.phys (6 * 4096 + 4 * l + j) (5 * l + q),
                        unusable := t.unusable ++ [6 * 4096 + 5 * l + p] }
      ((t.setFld F.lnklStat_LANES l 0 (t.laneMask l w)).linkStick F.lnklStat_SPARED l).resend l
    | _, _ =>
      let good := (List.range 5).filter fun q => bit (s.fld F.lnklStat_LANES l) q && q != p
      let w' := if 2 ≤ good.length ∧ 2 < w then 2 else 1
      let t := t.setFld F.lnklStat_STATE l 0 3
      if good.isEmpty ∨ w = 1 then t
      else ((t.setFld F.lnklStat_WIDTH l 0 w').setFld F.lnklStat_LANES l 0
        ((good.take w').foldl (fun m q => m + 2 ^ q) 0)).linkStick F.lnklStat_WIDTH_DN l

/-- A write to LNKl_CTRL; a standalone package enables no link (R446). -/
def Chip.writeLinkCtrl (s : Chip) (l v : Nat) : Chip :=
  let t := [F.lnklCtrl_EN, F.lnklCtrl_SPARE_EN, F.lnklCtrl_RETRYMAX, F.lnklCtrl_LANETHR].foldl (fun t f => t.writeFld f l 0 v) s
  let st := s.fld F.lnklStat_STATE l
  if !t.on F.lnklCtrl_EN l ∨ s.fld F.lnkCfg_ROLE = 0 then
    (if st = 0 then t else ((t.setFld F.lnklStat_STATE l 0 0).setFld F.lnklStat_WIDTH l 0 0).setFld F.lnklStat_LANES l 0 0)
  else if st = 0 then t.setFld F.lnklStat_STATE l 0 1
  else if bit v 30 ∧ st = 2 then t.setFld F.lnklStat_STATE l 0 3
  else t

/-- A remote request unanswered for 1 ms ends (R450). -/
def Chip.reqTimeout (s : Chip) (tag : Nat) : Chip :=
  match s.net.reqs.find? fun r => r.tag == tag with
  | none => s
  | some r =>
    if sub64 s.now r.at_ < 1000000 then s
    else
      ((s.updNet fun n => { n with reqs := n.reqs.filter fun q => q.tag != tag }).respond r.acc .link 0).netRelease

/-! ### Time alignment (R453 to R458) -/

/-- 16 times the mean of the last 8 measurements of the offset in 1/16 tk; none before there are 8. -/
def Net.sum (n : Net) : Option Int := if n.thetas.length = 8 then some (n.thetas.foldl (· + ·) 0) else none

/-- The difference of two instants of a count that wraps. -/
def diff64 (a b : Nat) : Int := sx 64 (sub64 a b)

/-- A measurement on link l from the four instants of an exchange, in 1/16 tk; `up` where the parent is ALIGNED (R453,
R454). -/
def Chip.measure (s : Chip) (l : Nat) (t1 t2 t3 t4 : Nat) (up : Bool) : Chip :=
    let d : Int := (diff64 t4 t1 - diff64 t3 t2) / 2
    let t := s.setFld F.lnklDelay_DELAY l 0 (tc 32 d)
    if s.fld F.lnkCfg_ROLE ≠ 1 ∨ !s.on F.lnkParent_VALID ∨ s.fld F.lnkParent_LINK ≠ l then t
    else
      let th : Int := diff64 t2 t1 - diff64 t4 t3 - sx 32 (s.fld F.lnklAsym_ASYM l)
      let t := t.updNet fun n => { n with thetas := (th :: n.thetas).take 8 }
      match t.net.sum with
      | none => t
      | some m =>
        let t := t.setFld F.lnkTerr_THETA 0 0 (tc 32 (clampI (-(2 ^ 31)) (2 ^ 31 - 1) (m / 16)))
        let t := if 0 ≤ m then t.updNet fun n => { n with ahead := false } else t
        if t.net.ahead then t
        else if -32 ≤ m ∧ m ≤ 32 then (if up ∧ s.on F.lnkStat_FORMED then t.setFld F.lnkStat_ALIGNED 0 0 1 else t)
        else if (m < -256 ∨ 256 < m) ∧ s.on F.lnkStat_ALIGNED then
          (t.setFld F.lnkStat_ALIGNED 0 0 0).netStick F.lnkStat_ALIGN_LOST
        else t

/-- One exchange of TALIGN packets on link l: this package's own packet is sent, and unless either end moved a tick meanwhile
(`adj`) the exchange is a measurement (R453). -/
def Chip.talign (s : Chip) (l : Nat) (t1 t2 t3 t4 : Nat) (adj up : Bool) : Chip :=
  if s.fld F.lnkCfg_ROLE = 0 ∨ s.fld F.lnklStat_STATE l ≠ 2 then s
  else
    let t := s.talignSend l
    if adj then t else t.measure l t1 t2 t3 t4 up

/-- The tick at which a member moves its count towards its parent's: an added tick advances the count by 2, a withheld one
leaves it, at most once in 10,000 tk; within 1 tk it only trims its PLL (R376, R454). -/
def Chip.tickAdjust (s : Chip) : Chip :=
  let due := match s.net.adjAt with
    | none => true
    | some a => decide (10000 ≤ sub64 s.now a)
  if s.fld F.lnkCfg_ROLE ≠ 1 ∨ !s.on F.lnkStat_FORMED ∨ !due then s
  else match s.net.sum with
    | none => s
    | some m =>
      let t := s.samplePads.updNet fun n => { n with adjAt := some s.now }
      if 256 < m then { t with skipped := some ((s.now + 1) % 2 ^ 64) }.advance 2
      else if m < -256 ∨ (s.net.ahead ∧ m < 0) then t
      else s

/-- A package reports after formation, its parent's count being c: it loads that count, or steers back where it is ahead
(R455, R456). -/
def Chip.lateJoin (s : Chip) (c : Nat) : Chip :=
  if s.fld F.lnkCfg_ROLE ≠ 1 ∨ s.on F.lnkStat_FORMED then s
  else
    let t := s.setFld F.lnkStat_FORMED 0 0 1
    if reached c s.now then { t with tb := BitVec.ofNat 64 c } else (t.netStick F.lnkStat_AHEAD).updNet fun n => { n with ahead := true }

end Sys2Proof.Machine
end

