-- ==== Sys2Proof/Machine/Power.lean ====
section
/-! DEFINITION. Power domains and states, temperature, VCORE (spec/16_power_assay_spares.md, R485 to R503). -/

namespace Sys2Proof.Machine

def Chip.updPsm (s : Chip) (f : Psm → Psm) : Chip := { s with psm := f s.psm }

/-- A W1C bit of PSM_STAT set (R503). -/
def Chip.psmStick (s : Chip) (f : Fd) : Chip := s.stick f 0 380

/-- Several domains switched. -/
def Chip.setDoms (s : Chip) (ds : List Nat) (on : Bool) : Chip := ds.foldl (fun t d => t.setDom d on) s

/-- The domains that are on. -/
def Chip.domsOn (s : Chip) : List Nat := (List.range 66).filter fun d => s.domOn d

/-! ### Register domains (R13, Table 16.1) -/

/-- The power domain that answers register (id, i, j), none for the always-on blocks and the canvas registers
(DEDUCED, notes/assumptions/32.md, for the blocks Table 16.1 does not name). -/
def Chip.regDomain (s : Chip) (id : RegId) (i : Nat) : Option Nat :=
  let b := id.row.base
  if b < 0x3C180000 then none
  else if b < 0x3C200000 then some 65
  else if b < 0x3C300000 then some 41
  else if b < 0x3C400000 then some 49
  else if b < 0x3C500000 then some 50
  else if b < 0x3C510000 then none
  else if b < 0x3C700000 then some 47
  else if b < 0x3C740000 then (match id with
    | .pinCfg => some (51 + i / 256)
    | .pinBank | .pinSet | .pinClr | .pinTgl | .pinData | .pinOe | .pinIn | .pinLocked | .pinLockrej => some (51 + i / 8)
    | _ => none)
  else if b < 0x3C780000 then some 59
  else if b < 0x3C800000 then some (55 + s.physOf 5 i / 17)
  else if b < 0x3C900000 then some 45
  else if b < 0x3CA00000 then some 46
  else if b < 0x3D500000 then some 37
  else if b < 0x3E000000 then some (29 + i)
  else if b < 0x3E800000 then (match id with
    | .vCtrl | .vAddr | .vStart | .vLoop | .vEnd | .vStep | .vEnv0 | .vEnv1 | .vOut | .vLfo | .vCmd | .vStat | .vPos
    | .vWptr | .vAtLo | .vAtHi | .vLevel | .vFmnet | .vFm => some 42
    | .effCtrl | .effMem | .effMix | .effStat | .effP | .effIn => some 43
    | _ => some 44)
  else if b < 0x3F000000 then (match id with
    | .lnkCfg | .lnkBcast | .lnkStat | .lnkTerr | .lnkParent | .lnkFormtmo | .lnkRoute => none
    | _ => some (60 + i))
  else if b < 0x3F800000 then none
  else some 48

/-! ### Tolerances and conditions (R488 to R490) -/

/-- The active tolerances (R489). -/
def Chip.tolerances (s : Chip) : List Nat :=
  (if s.on F.hstLtol_EN then [s.fld F.hstLtol_US] else []) ++
  (if s.on F.psmMbxltol_VALID then [s.fld F.psmMbxltol_US] else []) ++
  ((List.range 8).filter fun k => s.on F.psmCoreLtol_EN k).map fun k => s.fld F.psmCoreLtol_US k

/-- The effective tolerance in µs: the smallest active one, 0 where none is. -/
def Chip.effTol (s : Chip) : Nat :=
  match s.tolerances with
  | [] => 0
  | t :: ts => ts.foldl min t

/-- PSM_LTOL_EFF as it reads. -/
def Chip.ltolWord (s : Chip) : Nat := b2n s.tolerances.isEmpty * 2 ^ 31 + s.effTol

/-- The exit latency of a state in µs (Table 16.2). -/
def Chip.exitLat (s : Chip) (n : Nat) : Nat :=
  match n with
  | 0 => 0
  | 1 => 2
  | 2 => 40
  | 3 => 800
  | _ => s.fld F.psmS4lat_US

/-- Whether the blit engine has work. -/
def Chip.bltBusy (s : Chip) : Bool := s.blt.run.isSome || !s.blt.queue.isEmpty

/-- Whether every core in service is ASLEEP, which every state deeper than S0 asks for. -/
def Chip.coresAsleep (s : Chip) : Bool :=
  (List.range 8).all fun k => s.coreState k == 4 || s.psm.forced.contains (s.physOf 0 k)

/-- The conditions of Table 16.3 that fail for state n, by their bit of PSM_BLOCK. A core in service is one whose physical
unit is not forced off. -/
def Chip.blockMask (s : Chip) (n : Nat) : Nat :=
  let core := s.coresAsleep
  let head := (List.range 8).all fun h => !s.on F.shStat_RUNNING h ||
    (s.fld F.shOut_OUTSEL h == 1 && s.on F.shDpcfg_PSR_EN h && (s.head h).sinkPsr)
  let seq := (List.range 64).all fun q => decide (s.fld F.psqStat_STATE q < 2)
  let dma := s.chans.all fun c => !([2, 3, 4, 6].contains (s.dmaState c))
  let ser := (List.range 32).all fun x => !(s.serialEn x && !(s.serial x).tx.isEmpty)
  let adc := !s.on F.adcStat_BUSY && s.fld F.adcCtrl_TRIG != 2
  let b := fun (k lo : Nat) (ok : Bool) => if lo ≤ n ∧ !ok then 2 ^ k else 0
  b 0 1 core + b 1 2 head + b 2 2 (!s.on F.audStat_RUNNING) + b 3 2 (!s.bltBusy) +
    b 4 2 (s.asy.queue.isEmpty && !s.on F.asyStat_BUSY) + b 5 3 seq + b 6 3 dma + b 7 3 (ser && adc) +
    b 8 3 (s.fld F.lnkCfg_ROLE == 0) + b 9 4 (!s.pcie.up || (NStore.get 0 s.pcie.dstate 0 != 0 && NStore.get 0 s.pcie.dstate 1 != 0)) +
    b 10 2 (!s.on F.psmStat_SUSP) + b 11 1 (decide (n ≤ s.fld F.psmCtrl_MAXSTATE)) +
    b 12 1 (decide (s.exitLat n ≤ s.effTol))

/-- PSM_BLOCK as it reads: the next deeper state's failing conditions. -/
def Chip.blockWord (s : Chip) : Nat := if s.fld F.psmStat_STATE < 4 then s.blockMask (s.fld F.psmStat_STATE + 1) else 0

/-- At each tick: since when the conditions of each deeper state hold (R489; DESIGN CHOICE, notes/assumptions/33.md: a break
is seen where it lasts to a tick). -/
def Chip.noteCalm (s : Chip) : Chip :=
  s.updPsm fun p => { p with calm :=
    if !s.coresAsleep then []
    else ([1, 2, 3, 4].filter fun n => s.blockMask n == 0).map fun n => (n, NStore.get s.now p.calm n) }

/-- Whether the conditions of state n hold and have held for ENTRY_DLY without a break (R489). -/
def Chip.ripe (s : Chip) (n : Nat) : Bool :=
  s.blockMask n == 0 && (match Store.get? n s.psm.calm with
    | some t => decide (s.fld F.psmCtrl_ENTRY_DLY * 1000 ≤ sub64 s.now t)
    | none => false)

/-- The deepest state whose conditions have held for ENTRY_DLY. -/
def Chip.deepest (s : Chip) : Nat := [1, 2, 3, 4].foldl (fun d n => if s.ripe n then n else d) 0

/-! ### Entry, wake and exit (R491 to R496) -/

/-- A core in WAITING for GATE_DLY µs is gated where the effective tolerance allows it (R491). -/
def Chip.coreGate (s : Chip) (k : Nat) : Chip :=
  let d := s.fld F.psmCtrl_GATE_DLY
  if s.coreState k = 3 ∧ d ≠ 0 ∧ 2 ≤ s.effTol ∧ d * 1000 ≤ sub64 s.now (s.core k).waitSince then
    (s.setDom (s.physOf 0 k) false).setCoreState k 4
  else s

/-- The domains that a state turns off (Table 16.2). -/
def stateDoms (n : Nat) : List Nat :=
  match n with
  | 2 => List.range 38 ++ [42, 43, 44, 46, 65]
  | 3 => (List.range 66).filter fun d => d != 64
  | 4 => List.range 66
  | _ => []

/-- The running heads. -/
def Chip.runningHeads (s : Chip) : List Nat := (List.range 8).filter fun h => s.on F.shStat_RUNNING h

/-- The exponent of a VOUT_MODE byte, negated, where it reports linear mode with an exponent from -8 to -14 (R529). -/
def linearExp (b : Nat) : Option Nat := if b / 32 = 0 ∧ 18 ≤ b ∧ b ≤ 24 then some (32 - b) else none

/-- VOUT_COMMAND for a request of mv millivolts in linear mode with exponent -n (R529). -/
def voutCommand (mv n : Nat) : Nat := (mv * 2 ^ n * 2 + 1000) / 2000 % 65536

/-- A request sent to the regulator as VOUT_COMMAND, once its mode is known. -/
def Chip.sendVout (s : Chip) (mv : Nat) : Chip :=
  match s.psm.vexp with
  | some n => s.updPsm fun p => { p with vout := p.vout ++ [(p.pmbAddr, voutCommand mv n)] }
  | none => s

/-- A new request: PSM_VCORE shows it, and it is sent (R500). -/
def Chip.askVcore (s : Chip) (mv : Nat) : Chip := (s.setFld F.psmVcore_REQ 0 0 mv).sendVout mv

/-- VMIN requested over PMBus, the value of the last run kept (R501). -/
def Chip.askLeast (s : Chip) : Chip :=
  let t := if s.fld F.psmStat_STATE ≤ 2 then s.updPsm fun p => { p with runV := s.fld F.psmVcore_REQ } else s
  if s.psm.noAvs then t.setFld F.psmVcore_REQ 0 0 0 else t.askVcore (s.fld F.psmVlim_VMIN)

/-- An entry to the deepest state whose conditions have held for ENTRY_DLY: S2 to S4 first put every running head into
self-refresh, and are complete when none runs (R489, R492). -/
def Chip.stateEntry (s : Chip) : Chip :=
  let n := s.deepest
  if !s.on F.psmCtrl_AUTO ∨ n ≤ s.fld F.psmStat_STATE ∨ s.psm.leaving then s
  else if n = 1 then s.setFld F.psmStat_STATE 0 0 1
  else if !s.runningHeads.isEmpty then
    let t := s.runningHeads.foldl (fun t h => t.psrEnter h) (s.setFld F.psmStat_TARGET 0 0 n)
    t.updPsm fun p => { p with heads := (p.heads ++ s.runningHeads).eraseDups }
  else
    let saved := if s.fld F.psmStat_STATE ≤ 1 then s.domsOn else s.psm.saved
    let t := s.updPsm fun p => { p with saved := saved }
    let t := t.setDoms (stateDoms n) false
    let t := if 3 ≤ n then t.askLeast else t
    (t.setFld F.psmStat_STATE 0 0 n).setFld F.psmStat_TARGET 0 0 0

/-- A wake source is served: an entry under way is abandoned (R492), or the exit begins (R493). -/
def Chip.wake (s : Chip) : Chip :=
  match s.wakes with
  | [] => s
  | (c, p, at_) :: rest =>
    let t := { s with wakes := rest }
    if s.psm.leaving ∨ s.psm.tripped then t
    else
      let t := t.updPsm fun q => { q with leaving := true, quiet := false, cause := c, port := p, at_ := at_ }
      if s.fld F.psmStat_TARGET ≠ 0 then (t.setFld F.psmStat_TARGET 0 0 0).psmStick F.psmStat_ENTRY_ABORT
      else if s.fld F.psmStat_STATE = 4 then
        { t with boot := { t.boot with due := some 2, zero := true } }
      else t

/-- What the end of S3 does besides powering its domains: the last run value is requested again, and the compare channels
whose value has passed are judged, late (R495, R501). -/
def Chip.retainBack (s : Chip) : Chip :=
  if s.fld F.psmStat_STATE < 3 then s
  else
    (List.range 256).foldl (fun t c =>
      if t.on F.cmpStat_ARMED c ∧ (t.cmpDue c).isSome then
        (match t.cmpJudge c t.now with
        | some _ => t.cmpFire c true
        | none => t)
      else t) (s.askVcore s.psm.runV)

/-- The units of an exited state work again: the domains it had turned off, and the heads it had put into self-refresh. -/
def Chip.unitsBack (s : Chip) : Chip :=
  let t := s.setDoms (s.psm.saved.filter fun d => !s.psm.forced.contains d) true
  let t := (s.psm.heads.foldl (fun t h => t.psrExit h) t).retainBack
  t.updPsm fun p => { p with saved := [], heads := [] }

/-- An exit completes (R493, R495, R497): from S4 after its start-up. -/
def Chip.stateExit (s : Chip) : Chip :=
  if !s.psm.leaving ∨ s.boot.due.isSome then s
  else
    let p := s.psm
    let t := if s.fld F.psmStat_STATE = 4 then s else s.unitsBack
    let t := (t.setFld F.psmStat_STATE 0 0 0).updPsm fun q => { q with leaving := false, quiet := false }
    if p.quiet then t
    else
      let t := t.setFld F.psmWakecause_CAUSE 0 0 (Nat.lor (t.fld F.psmWakecause_CAUSE) (2 ^ p.cause))
      let t := if p.cause = 0 then t.setFld F.psmWakecause_PORT 0 0 p.port else t
      ((t.updPsm fun q => { q with waket := p.at_ }).setFld F.psmStat_SUSP 0 0 1).raise 380

/-- A tolerance below the present exit latency moves the device to the deepest state that fits (R494): from S1 to S0 the
sleeping cores come back to WAITING; from S4 by a start-up. -/
def Chip.toleranceChange (s : Chip) : Chip :=
  let st := s.fld F.psmStat_STATE
  if s.exitLat st ≤ s.effTol ∨ st = 0 ∨ s.psm.leaving ∨ s.psm.tripped then s
  else if st = 1 then
    let t := (List.range 8).foldl (fun t k => if t.coreState k = 4 then (t.setDom (t.physOf 0 k) true).enterWaiting k else t) s
    t.setFld F.psmStat_STATE 0 0 0
  else if st = 4 then
    { (s.updPsm fun q => { q with leaving := true, quiet := true }) with boot := { s.boot with due := some 2, zero := true } }
  else
    let fit := (List.range st).foldl (fun d n => if s.exitLat n ≤ s.effTol then n else d) 0
    if fit = 2 then
      let on := s.psm.saved.filter fun d => !(stateDoms 2).contains d && !s.psm.forced.contains d
      ((s.setDoms on true).retainBack).setFld F.psmStat_STATE 0 0 2
    else
      let t := s.unitsBack
      let t := if fit = 0 then
          (List.range 8).foldl (fun t k => if t.coreState k = 4 then (t.setDom (t.physOf 0 k) true).enterWaiting k else t) t
        else (List.range 8).foldl (fun t k => if t.coreState k = 4 then t.setDom (t.physOf 0 k) false else t) t
      t.setFld F.psmStat_STATE 0 0 fit

/-- The alarm reaches its instant (Table 16.5). -/
def Chip.alarm (s : Chip) : Chip :=
  if s.on F.psmAlarmCtrl_EN ∧ reached s.now (s.fld64 F.psmAlarmLo_T F.psmAlarmHi_T) then
    ((s.setFld F.psmAlarmCtrl_EN 0 0 0).setFld F.psmAlarmCtrl_FIRED 0 0 1).wakeSource 1 0
  else s

/-- A write to PSM_WAKE. -/
def Chip.writePsmWake (s : Chip) (v : Nat) : Chip := if bit v 0 then s.wakeSource 4 0 else s

/-- A write to PSM_CTRL; REARM clears SUSP (R493). -/
def Chip.writePsmCtrl (s : Chip) (v : Nat) : Chip :=
  let t := [F.psmCtrl_AUTO, F.psmCtrl_MAXSTATE, F.psmCtrl_ENTRY_DLY, F.psmCtrl_GATE_DLY].foldl (fun t f => t.writeFld f 0 0 v) s
  if bit v 30 then t.setFld F.psmStat_SUSP 0 0 0 else t

/-- A write to PSM_VLIM: discarded where a limit lies outside 550 to 900 or VMIN above VMAX. -/
def Chip.writeVlim (s : Chip) (v : Nat) : Chip :=
  let hi := bits v 31 16
  let lo := bits v 15 0
  if 550 ≤ lo ∧ lo ≤ hi ∧ hi ≤ 900 then (s.setFld F.psmVlim_VMAX 0 0 hi).setFld F.psmVlim_VMIN 0 0 lo else s

/-! ### A domain forced off (R486) -/

/-- The register fields that outlive their block's domain: the timeout flags (R343), the park state of every pad (R418), and the
locks with the configuration and the bank supply of every locked port (R417). -/
def Chip.keptOff (s : Chip) (k : FKey) : Bool :=
  match k.id with
  | .mbxChStat => k.lo == F.mbxChStat_TMO.lo
  | .pinCfg => k.lo == F.pinCfg_PARK.lo || k.lo == F.pinCfg_PULL.lo || s.locked k.i
  | .pinLocked => true
  | .pinBank => k.lo == F.pinBank_VSEL.lo && s.fld F.pinLocked_LOCKED k.i != 0
  | _ => false

/-- The state of a domain's units lost: its registers at their reset values, its stores and engines empty. A store's
contents then read as bytes that nothing has written (DESIGN CHOICE, notes/assumptions/3.md). -/
def Chip.loseDomain (s : Chip) (d : Nat) : Chip :=
  let t := { s with flds := s.flds.filter fun p => s.regDomain p.1.id p.1.i != some d || s.keptOff p.1 }
  let drop := fun (lo hi : Nat) (t : Chip) =>
    { t with mem := t.mem.filter fun c => !(decide (lo ≤ c.1 ∧ c.1 < hi))
             marks := t.marks.filter fun c => !(decide (lo ≤ c.1 ∧ c.1 < hi)) }
  if d < 9 then
    (match s.servedBy 0 8 d with
    | some k => (({ t with cores := NStore.del t.cores k }.setFld F.coreStat_PC k 0 0).setFld F.intcPri_PRI k 0 0).setCoreState k 0
    | none => t)
  else if 29 ≤ d ∧ d < 37 then { t with heads := NStore.del t.heads (d - 29), lpes := NStore.del t.lpes (d - 29) }
  else match d with
    | 37 => drop 0x17000000 0x17210000 { t with comps := [], lineCopies := [], liveDirty := [], regions := [] }
    | 38 => drop 0x08000000 0x16000000 t
    | 39 => drop 0 0x08000000 t
    | 40 => drop 0x16000000 0x17000000 ((List.range 8).foldl (fun t h => t.dropIngot h) t)
    | 41 => { t with elog := [], ceHours := [], repair := none }
    | 42 => t.updSnd fun x => { x with voices := [] }
    | 43 => t.updSnd fun x => { x with effs := [] }
    | 44 => { t with snd := {} }
    | 45 => { t with dma := [], dmaRr := [] }
    | 46 => { t with blt := {} }
    | 47 => { t with cmps := [], intvs := [], caps := [], evq := [] }
    | 48 => { t with adc := {} }
    | 50 => { t with mbx := [], stages := [] }
    | 55 | 56 | 57 | 58 => { t with psqs := t.psqs.filter fun p => 55 + s.physOf 5 p.1 / 17 != d }
    | 59 => { t with serials := [] }
    | 60 | 61 | 62 | 63 => { t with links := NStore.del t.links (d - 60) }
    | 64 => { t with pcie := { t.pcie with up := false } }
    | 65 => { t with asy := {} }
    | _ => t

/-- A write to PSM_DOMOFF: the domain is off until a cold or keystone reset (R486). -/
def Chip.writeDomoff (s : Chip) (v : Nat) : Chip :=
  let d := bits v 6 0
  if bit v 31 ∧ d < 66 then
    ((s.loseDomain d).setDom d false).updPsm fun p => { p with forced := (p.forced ++ [d]).eraseDups }
  else s

/-! ### Temperature (R498) -/

/-- A reading of the hottest sensor, in 0.25 °C. -/
def Chip.takeTemp (s : Chip) (tj : Int) : Chip := (s.setFld F.psmTemp_VALID 0 0 1).setFld F.psmTemp_TJ 0 0 (tc 16 tj)

/-- A junction of 110 °C or more. -/
def Chip.thermHi (s : Chip) (tj : Int) : Chip :=
  let t := s.takeTemp tj
  if 440 ≤ tj then t.psmStick F.psmStat_THERM_HI else t

/-- A junction of 120 °C or more: the pads park, the switched domains go off, VMIN is requested, STATE stands at 4. -/
def Chip.thermTrip (s : Chip) (tj : Int) : Chip :=
  let t := s.takeTemp tj
  if 480 ≤ tj then
    let t := ((t.psmStick F.psmStat_THERM_HI).psmStick F.psmStat_THERM_TRIP).setParked true
    let t := (t.setDoms (List.range 66) false).askLeast
    ((t.setFld F.psmStat_STATE 0 0 4).setFld F.psmStat_TARGET 0 0 0).updPsm
      fun p => { p with tripped := true, leaving := false, saved := [], heads := [] }
  else t

/-- After a trip, a junction of 100 °C or less: the device starts as on exit from S4 (R497), or as a reset asked for
meanwhile does. -/
def Chip.thermRecover (s : Chip) (tj : Int) : Chip :=
  let t := s.takeTemp tj
  if tj ≤ 400 ∧ s.psm.tripped then
    let asked := s.boot.due.isSome
    { (t.updPsm fun p => { p with tripped := false, leaving := !asked, quiet := !asked }) with
      boot := { t.boot with due := if asked then t.boot.due else some 2, zero := true } }
  else t

/-! ### VCORE (R499 to R502) -/

/-- One period of the pace law with the 16 readings, and whether PMBus acknowledged the request it sends: a change, or one
that was not acknowledged before, which stands (R501; DEDUCED, notes/assumptions/56.md). -/
def Chip.avsPeriod (s : Chip) (paces : List Nat) (ack : Bool) : Chip :=
  let t := (List.range 16).foldl (fun t m => t.setFld F.psmPace_PACE m 0 (paces.getD m 0)) s
  if !s.on F.psmAvs_AVS_EN ∨ s.psm.noAvs ∨ 3 ≤ s.fld F.psmStat_STATE ∨ paces.isEmpty then t
  else
    let m := (List.range 16).foldl (fun a k => min a (t.fld F.psmPace_PACE k)) 0xFFFF
    let g := s.fld F.psmPaceref_G
    let mg := s.fld F.psmAvs_MARGIN
    let hy := s.fld F.psmAvs_HYST
    let req := s.fld F.psmVcore_REQ
    let vmax := s.fld F.psmVlim_VMAX
    let sl := s.psm.slow
    let r := if m * 400 < g * (400 + mg) then (min vmax (req + 10), 0)
      else if g * (400 + mg + hy) < m * 400 then
        (if sl + 1 = 10 then (max (s.fld F.psmVlim_VMIN) (req - 5), 0) else (req, sl + 1))
      else (req, 0)
    let t := t.updPsm fun p => { p with slow := r.2 }
    let t := if r.1 = req ∧ !s.psm.unacked then t else t.askVcore r.1
    let t := if r.1 = req ∧ !s.psm.unacked then t
      else if ack then t.updPsm fun p => { p with unacked := false }
      else (t.psmStick F.psmStat_PMB_ERR).updPsm fun p => { p with unacked := true }
    if t.fld F.psmVcore_REQ = vmax ∧ m < g then t.psmStick F.psmStat_PACE_LOW else t

/-- The WEAR readings of the 16 monitors, in ppm, saturating. -/
def Chip.wearRefresh (s : Chip) (wears : List Nat) : Chip :=
  (List.range 16).foldl (fun t m => match wears[m]? with
    | some w => t.setFld F.psmPace_WEAR m 0 (min w 0xFFFF)
    | none => t) s

end Sys2Proof.Machine
end

