-- ==== Sys2Proof/Machine/Assay.lean ====
section
/-! DEFINITION. Assay, spares and the change queue of the repair ledger (spec/16_power_assay_spares.md, R504 to R518). -/

namespace Sys2Proof.Machine

def Chip.updAsy (s : Chip) (f : Asy → Asy) : Chip := { s with asy := f s.asy }

/-- A W1C bit of ASY_STAT set; FAIL, RESULT, LGR and QFULL raise event 381 (R515). -/
def Chip.asyStick (s : Chip) (f : Fd) : Chip := s.stick f 0 381

/-! ### Units and spares (Table 16.6) -/

/-- The logical and physical units of a class of rotations. -/
def classSize (cls : Nat) : Nat × Nat :=
  match cls with
  | 0 => (8, 9)
  | 1 => (16, 20)
  | 2 => (28, 30)
  | 4 => (512, 544)
  | 5 => (64, 68)
  | 6 => (16, 20)
  | _ => (0, 0)

/-- The physical unit that serves logical unit i. -/
def Chip.unitOf (s : Chip) (cls i : Nat) : Nat :=
  if cls = 2 then s.fld F.fabMap_PHYS i else if cls = 6 then 5 * (i / 4) + s.laneOf (i / 4) (i % 4) else s.physOf cls i

/-- The logical unit that physical unit p serves. -/
def Chip.unitServing (s : Chip) (cls p : Nat) : Option Nat :=
  (List.range (classSize cls).1).find? fun i => s.unitOf cls i == p

/-- The free spares of a class; for a lintel lane, those of link l. -/
def Chip.freeSpares (s : Chip) (cls l : Nat) : List Nat :=
  (List.range (classSize cls).2).filter fun p =>
    (s.unitServing cls p).isNone && !s.unusable.contains (cls * 4096 + p) && (cls != 6 || p / 5 == l)

/-- ASY_SPARES as it reads. -/
def Chip.sparesWord (s : Chip) : Nat :=
  let n := fun c => (s.freeSpares c 0).length
  let links := ((List.range 4).filter fun l => !(s.freeSpares 6 l).isEmpty).length
  links * 2 ^ 24 + n 5 * 2 ^ 20 + n 4 * 2 ^ 12 + n 2 * 2 ^ 8 + n 1 * 2 ^ 4 + n 0

/-! ### Results and changes (R513) -/

/-- A change queued for the ledger, unless 32 are held. -/
def Chip.queueChange (s : Chip) (e : LgrEnt) : Chip :=
  if s.asy.changes.length < 32 then
    (s.updAsy fun a => { a with changes := a.changes ++ [{ e with time := s.now }] }).asyStick F.asyStat_LGR
  else s.bump F.asyLgrLevel_OVF F.asyLgrLevel_SAT

/-- A result entered, unless 16 are held. -/
def Chip.enterResult (s : Chip) (code cls index phys detail : Nat) : Chip :=
  if s.asy.results.length < 16 then
    (s.updAsy fun a => { a with results := a.results ++ [⟨code, cls, index, phys, s.now % 2 ^ 32, detail⟩] }).asyStick F.asyStat_RESULT
  else s

/-- Word i of the oldest result (Table 16.10). -/
def Chip.resWord (s : Chip) (i : Nat) : Nat :=
  match s.asy.results with
  | [] => 0
  | r :: _ => if i = 0 then r.code * 2 ^ 28 + r.cls * 2 ^ 24 + r.index * 2 ^ 12 + r.phys % 2 ^ 10
    else if i = 1 then r.time else r.detail

/-- The first 28 bytes of an entry (Table 16.11). -/
def LgrEnt.body (e : LgrEnt) : Nat :=
  e.kind + e.cls * 2 ^ 8 + e.index * 2 ^ 16 + e.phys * 2 ^ 32 + e.arg * 2 ^ 48 + e.time * 2 ^ 64 + e.value * 2 ^ 128

/-- The 32 bytes of an entry, with its CRC. -/
def LgrEnt.image (e : LgrEnt) : Nat := e.body + crcEnd (crcBytes 0xFFFFFFFF e.body 28) * 2 ^ 224

/-- Word i of the oldest change. -/
def Chip.lgrWord (s : Chip) (i : Nat) : Nat :=
  match s.asy.changes with
  | [] => 0
  | e :: _ => e.image / 2 ^ (32 * i) % 2 ^ 32

def Chip.writeResPop (s : Chip) (v : Nat) : Chip :=
  if bit v 0 then s.updAsy fun a => { a with results := a.results.drop 1 } else s

def Chip.writeLgrPop (s : Chip) (v : Nat) : Chip :=
  if bit v 0 then s.updAsy fun a => { a with changes := a.changes.drop 1 } else s

/-- ASY_LGR_LEVEL and ASY_STAT as they read. -/
def Chip.lgrLevelWord (s : Chip) : Nat := s.word .asyLgrLevel + s.asy.changes.length
def Chip.asyStatWord (s : Chip) : Nat := s.word .asyStat + s.asy.queue.length * 2 ^ 24

/-! ### Requests (R504, R506, R511) -/

/-- The domain of a unit under test, where it has one of its own: on while it is tested, then off unless a unit in service
lies in it (R485). -/
def Chip.asyPower (s : Chip) (cls p : Nat) (on : Bool) : Chip :=
  let idle := fun c q => (s.unitServing c q).isNone || s.unusable.contains (c * 4096 + q)
  let d := if cls = 0 then some p else if cls = 1 then some (9 + p) else if cls = 5 then some (55 + p / 17) else none
  let free := if cls = 5 then (List.range 17).all fun i => idle 5 (p / 17 * 17 + i) else idle cls p
  match d with
  | none => s
  | some d => if free ∧ !s.psm.forced.contains d then s.setDom d on else s

/-- ABORT: the queue is emptied and the running request ends with ABORTED; its unit stays where it now serves, and a
released unit is a spare again. -/
def Chip.asyAbort (s : Chip) : Chip :=
  let t := (s.updAsy fun a => { a with queue := [] }).setFld F.asyStat_ASSAY_WAIT 0 0 0
  if !s.on F.asyStat_BUSY then t
  else
    let p := s.asy.phys.getD 0
    let cls := s.fld F.asyStat_CLASS
    let t := (t.setFld F.asyStat_BUSY 0 0 0).updAsy fun a => { a with phys := none, logical := none, marked := false }
    let t := if cls = 2 ∧ s.repair.any (fun r => r.rot) then
        { ((t.setFld F.fabSpareStat_BUSY 0 0 0).setFld F.fabSpareStat_PHASE 0 0 0) with
          repair := none, issueQ := s.held ++ s.issueQ, held := [] }
      else if s.asy.marked then { t with unusable := t.unusable.filter fun x => x != cls * 4096 + p } else t
    (t.asyPower cls p false).enterResult 5 cls (s.fld F.asyStat_INDEX) p 0

/-- A write to ASY_REQ (R506). -/
def Chip.writeAsyReq (s : Chip) (v : Nat) : Chip :=
  let t := if bit v 30 then s.asyAbort else s
  if !bit v 31 then t
  else if 8 ≤ t.asy.queue.length then t.asyStick F.asyStat_QFULL
  else t.updAsy fun a => { a with queue := a.queue ++ [(bits v 23 20, bits v 11 0)] }

/-- Whether an INDEX names a unit of its class (Table 16.6). -/
def indexOk (cls idx : Nat) : Bool :=
  let i := idx % 2048
  let ph := decide (2048 ≤ idx)
  match cls with
  | 3 => decide (i < 16) && !ph
  | 7 => decide (i < 256)
  | 8 => decide (i < 66) && !ph
  | 9 => decide (i < 1) && !ph
  | _ => decide (i < (if ph then (classSize cls).2 else (classSize cls).1))

/-- Whether ingot block b lies in an allocation of a head. -/
def Chip.ingotUsed (s : Chip) (b : Nat) : Bool :=
  (List.range 8).any fun h =>
    let a := (s.comp h).act
    decide (a.ingotSize ≠ 0 ∧ a.ingotBase ≤ b ∧ b < a.ingotBase + a.ingotSize)

/-- The head of the queue taken off and begun on physical unit p. -/
def Chip.asyBegin (s : Chip) (cls idx p : Nat) : Chip :=
  (((((s.asyPower cls p true).setFld F.asyStat_BUSY 0 0 1).setFld F.asyStat_ASSAY_WAIT 0 0 0).setFld F.asyStat_CLASS 0 0 cls).setFld
    F.asyStat_INDEX 0 0 idx).updAsy fun a => { a with queue := a.queue.drop 1, phys := some p, marked := false }

/-- The head of the queue refused. -/
def Chip.asyRefuse (s : Chip) (code cls idx : Nat) : Chip :=
  ((s.setFld F.asyStat_ASSAY_WAIT 0 0 0).updAsy fun a => { a with queue := a.queue.drop 1 }).enterResult code cls idx 0 0

/-- Whether lane j is between two courses of the head it composes for (R111). -/
def Chip.laneBetween (s : Chip) (j : Nat) : Bool :=
  (List.range 8).all fun h => !((s.comp h).composing && (s.lanesOf h).contains j)

/-- The spare lane p takes the place of logical lane j between two courses (R111). -/
def Chip.laneRotate (s : Chip) (j p : Nat) : Chip :=
  if p < 20 ∧ s.spareFree 1 16 p ∧ s.laneBetween j then
    let old := s.physOf 1 j
    ((s.moveUnit 1 j p).setDom (9 + p) (s.domOn (9 + old))).setDom (9 + old) false
  else s

/-- A logical unit moved to spare p by the rule its class names, where it may be moved now (R505). -/
def Chip.rotate (s : Chip) (cls i p : Nat) : Chip :=
  match cls with
  | 0 => s.coreRotate i p
  | 1 => s.laneRotate i p
  | 4 => s.voiceRotate i p
  | 5 => s.psqRotate i p
  | 6 =>
    let t := s.moveUnit 6 i p
    (t.setFld F.lnklStat_LANES (i / 4) 0 (t.laneMask (i / 4) (s.fld F.lnklStat_WIDTH (i / 4)))).resend (i / 4)
  | _ => s

/-- The head request starts, once a spare is free and the unit may move (R505 to R508, R511). -/
def Chip.asyRun (s : Chip) : Chip :=
  match s.asy.queue with
  | [] => s
  | (cls, idx) :: _ =>
    let maint := s.on F.asyStat_MAINT
    let wait := s.setFld F.asyStat_ASSAY_WAIT 0 0 1
    if s.on F.asyStat_BUSY then s
    else if !indexOk cls idx then s.asyRefuse 4 cls idx
    else if (cls = 8 ∨ cls = 9) ∧ !maint then s.asyRefuse 3 cls idx
    else if idx < 2048 ∧ (cls = 0 ∨ cls = 1 ∨ cls = 4 ∨ cls = 5) ∧ s.dead.contains (cls * 4096 + idx) then s.asyRefuse 4 cls idx
    else
      let i := idx % 2048
      let logical := if cls = 3 ∨ 7 ≤ cls then some i else if 2048 ≤ idx then
          (s.unitServing cls i).filter fun l => !s.dead.contains (cls * 4096 + l) else some i
      match logical with
      | none => s.asyBegin cls idx i
      | some l =>
        if cls = 7 then (if s.ingotUsed l ∧ !maint then wait else s.asyBegin cls idx l)
        else if cls = 3 then (if 82 ≤ s.fld F.fabFsrow_USED l ∧ !maint then wait else s.asyBegin cls idx l)
        else if 8 ≤ cls then s.asyBegin cls idx l
        else if maint then s.asyBegin cls idx (s.unitOf cls l)
        else
          match s.freeSpares cls (l / 4) with
          | [] => wait
          | p :: _ =>
            let old := s.unitOf cls l
            if cls = 2 then
              (if s.on F.fabSpareStat_BUSY then wait else ((s.spareBegin ⟨l, 0, p, true⟩).asyBegin cls idx old).updAsy fun a =>
                { a with logical := some l, marked := true })
            else
              let t := s.rotate cls l p
              if t.unitOf cls l = p then
                ((({ t with unusable := t.unusable ++ [cls * 4096 + old] }).queueChange ⟨2, cls, l, p, 0, 0, 0⟩).asyBegin cls idx old).updAsy
                  fun a => { a with marked := true }
              else s

/-- The unit that a class 0 to 7 request tested is good or bad: on a pass, one that a rotation released is a free spare
(R505, R507, R513, R514). -/
def Chip.asyJudge (s : Chip) (cls p : Nat) (good rot : Bool) : Chip :=
  let key := cls * 4096 + p
  if good then (if rot then { s with unusable := s.unusable.filter fun x => x != key } else s)
  else
    let t := { s with unusable := (s.unusable ++ [key]).eraseDups }
    let t := if cls = 7 then { t with retired := (t.retired ++ [p]).eraseDups } else t
    let t := (t.asyStick F.asyStat_FAIL).queueChange ⟨1, cls, 0, p, 0, 0, 0⟩
    if 7 ≤ cls ∨ (t.unitServing cls p).isSome then t.setFld F.asyStat_DEGRADED 0 0 1 else t

/-- The rows of a frame-store bank that failed stay on their spare rows, each with a ROW change (R507). -/
def Chip.asyRows (s : Chip) (b : Nat) (rows : List Nat) : Chip :=
  rows.foldl (fun t r =>
    let u := t.fld F.fabFsrow_USED b
    if 82 ≤ u then t.setFld F.asyStat_DEGRADED 0 0 1
    else (t.setFld F.fabFsrow_USED b 0 (u + 1)).queueChange ⟨3, 3, b, r, u, 0, 0⟩) s

/-- The running assay ends with a code of Table 16.8 and its detail; `rows` are the failed rows of a frame-store bank. A
pattern-bank rotation must first have switched (R505, R506, R513). -/
def Chip.asyResult (s : Chip) (code detail : Nat) (rows : List Nat) : Chip :=
  let cls := s.fld F.asyStat_CLASS
  let idx := s.fld F.asyStat_INDEX
  match s.asy.phys with
  | none => s
  | some p =>
    if !s.on F.asyStat_BUSY ∨ s.repair.any (fun r => r.rot) then s
    else
      let t := (s.setFld F.asyStat_BUSY 0 0 0).updAsy fun a => { a with phys := none, logical := none, marked := false }
      let good := decide (code = 0)
      let t := match s.asy.logical with
        | some l => t.queueChange ⟨2, 2, l, s.fld F.fabMap_PHYS l, 0, 0, 0⟩
        | none => t
      let t := if cls = 3 then (if good then t else (t.asyStick F.asyStat_FAIL).asyRows p rows)
        else if 8 ≤ cls then (if good then t else (t.asyStick F.asyStat_FAIL).setFld F.asyStat_DEGRADED 0 0 1)
        else t.asyJudge cls p good s.asy.marked
      (t.asyPower cls p false).enterResult code cls idx p detail

/-! ### Maintenance (R509) -/

/-- A write to ASY_MAINT. -/
def Chip.writeMaint (s : Chip) (m : Master) (v : Nat) : Chip :=
  if bit v 0 ∧ bits v 31 16 = 0x3D7C ∧ (m = .own 0x11 ∨ m = .own 0x18) then
    let t := (List.range 8).foldl (fun t k => t.coreHalt k) s
    let t := (List.range 8).foldl (fun t h => if t.on F.shCtrl_RUN h then t.setFld F.shCtrl_RUN h 0 0 else t) t
    let t := t.writeAudCtrl (t.word .audCtrl % 2 ^ 32 - b2n (t.on F.audCtrl_RUN) * 2 ^ F.audCtrl_RUN.lo)
    let t := t.chans.foldl (fun t c => t.dmaHalt c) t
    let t := (List.range 64).foldl (fun t q => t.psqHalt q) t
    (t.setParked true).setFld F.asyStat_MAINT 0 0 1
  else s.setFld F.asyStat_DENY 0 0 1

end Sys2Proof.Machine
end

