-- ==== Sys2Proof/Machine/Events.lean ====
section
/-! DEFINITION. The event fabric: delivery, gating and flags (spec/12_time_events_measurement.md, R399 to R406), and the
vectors that events send to the host (spec/15_keystone_start.md, R482). -/

namespace Sys2Proof.Machine

def Chip.updPcie (s : Chip) (f : Pcie → Pcie) : Chip := { s with pcie := f s.pcie }

/-! ### MSI-X (R482) -/

/-- Whether vector v of function f is masked in the MSI-X table; the mask bit resets to 1. -/
def Chip.vecMasked (s : Chip) (f v : Nat) : Bool := bit (NStore.get 1 s.pcie.table (f * 256 + v * 4 + 3)) 0

/-- Vector v of function f sent, or its pending bit set while it is masked or MSI-X is disabled. -/
def Chip.sendVector (s : Chip) (f v : Nat) : Chip :=
  if s.vecMasked f v ∨ NStore.get 0 s.pcie.msixEn f = 0 then
    s.updPcie fun p => { p with pend := if p.pend.contains (f * 64 + v) then p.pend else p.pend ++ [f * 64 + v] }
  else s.updPcie fun p => { p with sent := p.sent ++ [.msix f v] }

/-- A vector whose pending bit is set and that may now be sent, sent once. -/
def Chip.flushVector (s : Chip) (f v : Nat) : Chip :=
  if s.pcie.pend.contains (f * 64 + v) ∧ !s.vecMasked f v ∧ NStore.get 0 s.pcie.msixEn f ≠ 0 then
    s.updPcie fun p => { p with pend := p.pend.filter fun x => x != f * 64 + v, sent := p.sent ++ [.msix f v] }
  else s

/-- The vectors that follow producer p. -/
def Chip.hostEvent (s : Chip) (p : Nat) : Chip :=
  (List.range 64).foldl (fun t v =>
    let t := if s.on F.hstF0vec_EN v ∧ s.fld F.hstF0vec_SRC v = p then t.sendVector 0 v else t
    if s.on F.hstF1vec_EN v ∧ s.fld F.hstF1vec_SRC v = p then t.sendVector 1 v else t) s

/-! ### Task inputs (R400, R403 to R405) -/

/-- What an execution of task input t does, with its hop count (Table 12.10); a counter's start is discarded where its STOP
is delivered at the same instant (R388). -/
def Chip.taskRun (s : Chip) (t hop : Nat) (stopped : Bool) : Chip :=
  if t < 64 then s.dmaTaskIn t hop
  else if t = 64 then (if s.fld F.adcCtrl_TRIG = 1 then s.adcStart (some hop) else s)
  else
    let u := s.raiseSource t
    if t < 128 then u
    else if t < 192 then (if stopped then u else u.intTask (t - 128))
    else if t < 256 then u.intStop (t - 192)
    else if t < 320 then u.captureTask (t - 256) hop
    else if t < 384 then u.psqTask (t - 320) hop
    else u

/-- Whether task input t lets an arrival pass, with the flags as they stood before the instant (R404). -/
def Chip.gatePass (s : Chip) (t : Nat) : Bool :=
  s.on F.evfTask_EN t &&
    (!s.on F.evfTask_GATE t || s.on F.evfFlag_VAL (s.fld F.evfTask_GFLAG t) != s.on F.evfTask_GINV t)

/-- Whether task input t is executed at an instant with n arrivals. -/
def Chip.taskRuns (s : Chip) (t n : Nat) : Bool :=
  if s.on F.evfTask_COUNT t then decide (0 < s.fld F.evfTstat_PEND t + n) else decide (0 < n)

/-- The arrivals of one instant at task input t, by their hop counts. -/
def Chip.taskInstant (s : Chip) (t : Nat) (hops : List Nat) (stopped : Bool) : Chip :=
  let top := hops.foldl max 0
  if s.on F.evfTask_COUNT t then
    let pend := s.fld F.evfTstat_PEND t
    let n := min hops.length (255 - pend)
    let top := (hops.take n).foldl max 0
    let lost := hops.length - n
    let hop := if pend = 0 then top else max top (NStore.get 0 s.evHops t)
    let u := if lost = 0 then s else s.bump F.evfTstat_MERGE F.evfTstat_SAT t 0 lost
    if pend + n = 0 then u
    else { (u.setFld F.evfTstat_PEND t 0 (pend + n - 1)) with evHops := NStore.put0 u.evHops t hop }.taskRun t hop stopped
  else if hops.isEmpty then s
  else (if hops.length = 1 then s else s.bump F.evfTstat_MERGE F.evfTstat_SAT t 0 (hops.length - 1)).taskRun t top stopped

/-- The task inputs in count mode with executions waiting. -/
def Chip.countWaiting (s : Chip) : List Nat :=
  s.flds.filterMap fun p => if p.1.id = .evfTstat ∧ p.1.lo = F.evfTstat_PEND.lo ∧ p.2 ≠ 0 then some p.1.i else none

/-- The instant at which an event is delivered: the first multiple of 4 at or after 4 tk past its production (R401). -/
def Arrival.dueAt (a : Arrival) : Nat := (a.at_ + 7) / 4 * 4

/-- Whether that instant has come, on the count that wraps. -/
def Arrival.due (a : Arrival) (now : Nat) : Bool := decide (a.dueAt - a.at_ ≤ sub64 now a.at_)

/-- A fabric instant: every event now due is delivered to its task inputs and flags, and the consumers act (R401). -/
def Chip.deliver (s : Chip) : Chip :=
  let now := s.now / 4 * 4
  if s.evAt = some now ∨ !s.domOn 47 then s
  else
    let due := s.evq.filter fun a => a.due s.now
    let t := { s with evq := s.evq.filter fun a => !a.due s.now, evAt := some now }
    let pass := (due.flatMap fun a => a.tasks.map fun k => (k, a.hop)).filter fun p => s.gatePass p.1
    let tasks := ((pass.map fun p => p.1) ++ s.countWaiting).eraseDups
    let hops := fun (k : Nat) => (pass.filter fun p => p.1 == k).map fun p => p.2
    let stopped := fun (k : Nat) => decide (128 ≤ k ∧ k < 192) && tasks.contains (k + 64) && s.taskRuns (k + 64) (hops (k + 64)).length
    let t := tasks.foldl (fun t k => t.taskInstant k (hops k) (stopped k)) t
    let t := due.foldl (fun t a => a.setF.foldl (fun t f => t.setFld F.evfFlag_VAL f 0 1) t) t
    let t := due.foldl (fun t a => a.clrF.foldl (fun t f => t.setFld F.evfFlag_VAL f 0 0) t) t
    due.foldl (fun t a => if a.prod < 384 then t.hostEvent a.prod else t) t

/-- A write to EVF_SWTRIG: an arrival at a task input with hop count 0. -/
def Chip.writeSwtrig (s : Chip) (v : Nat) : Chip := { s with evq := s.evq ++ [⟨1023, s.now, 0, [bits v 8 0], [], []⟩] }

/-- A write to EVF_SWPROD raises producer 383. -/
def Chip.writeSwprod (s : Chip) : Chip := s.raise 383

end Sys2Proof.Machine
end

