-- ==== Sys2Proof/Machine/Reset.lean ====
section
/-! DEFINITION. Resets, the watchdog, the rails and the boot engine (spec/15_keystone_start.md, R474 to R478;
spec/17_balls_supplies.md, R525 to R536). The boot memory's bytes are part of the state: an erased byte reads 0xFF. -/

namespace Sys2Proof.Machine

def Chip.updBoot (s : Chip) (f : Boot → Boot) : Chip := { s with boot := f s.boot }

/-! ### Resets (R474, R475) -/

/-- The register fields that a cold reset keeps: the time base's, the reset causes, the supplies, the power controller's
but the domains, and the park state of every pad. -/
def keptByCold (k : FKey) : Bool :=
  match k.id with
  | .sysRstcause | .sysSupply | .tbLo | .tbHi | .tbStat => true
  | .psmDom => false
  | .pinCfg => k.lo == F.pinCfg_PARK.lo || k.lo == F.pinCfg_PULL.lo
  | id => match id.block with
    | .psm => true
    | _ => false

/-- The register fields that a keystone reset keeps: as cold, and every HST_ register but the digest. -/
def keptByKeystone (k : FKey) : Bool :=
  keptByCold k || (match k.id with
    | .hstDigest => false
    | id => match id.block with
      | .hst => true
      | _ => false)

/-- The core memories' marks lie in the debug windows. -/
def keptMarks (m : NStore Mark) : NStore Mark := m.filter fun p => decide (p.1 < 0x18000000)

/-- The chip number that the straps give, until the keystone's header is known: HST_CHIP resets to the pads, and HST_WINCHIP
to the own number (Table 15.11). -/
def Chip.takePad (s : Chip) : Chip := (s.setFld F.hstChip_CHIP 0 0 s.boot.straps).setFld F.hstWinchip_CHIP 0 0 s.boot.straps

/-- Everything that a cold or keystone reset clears, with its start-up due; the ports stay parked (Table 15.5). -/
def Chip.resetTo (s : Chip) (cold : Bool) (due : Nat) : Chip :=
  let p64 := s.domOn 64
  let t : Chip :=
    { Chip.fresh with
      flds := s.flds.filter fun p => if cold then keptByCold p.1 else keptByKeystone p.1
      mem := s.mem
      marks := keptMarks s.marks
      tb := s.tb
      wraps := s.wraps
      tbHi := s.tbHi
      freeCtr := s.freeCtr
      pads := s.pads
      samples := s.samples
      skipped := s.skipped
      vio := s.vio
      wakes := s.wakes
      psm := { s.psm with forced := [], saved := [], heads := [], slow := 0 }
      boot := { s.boot with due := some due, cmd := none, checked := false }
      pcie := if cold then { up := false, sent := s.pcie.sent } else s.pcie
      smb := s.smb
      busMaster := if cold then [] else s.busMaster }
  let t := if cold then t.takePad else t
  ((((t.setDom 64 p64).setParked true).setFld F.psmStat_STATE 0 0 (if s.psm.tripped then 4 else 0)).setFld
    F.psmStat_TARGET 0 0 0)

/-- A reset begins: a wake under way is forgotten, and stores that S4 had lost are to be zeroed (R497). -/
def Chip.beginReset (s : Chip) (kind : Nat) : Chip :=
  let lost := s.fld F.psmStat_STATE == 4
  let t := s.resetTo (kind == 0) kind
  { t with psm := { t.psm with leaving := false, quiet := false }, boot := { t.boot with zero := t.boot.zero || lost } }

/-- A reset of kind cold (0) or keystone (1) with its bit of SYS_RSTCAUSE; during a reset only a cold request during a
keystone one begins anew, any other merges (R475). -/
def Chip.doReset (s : Chip) (kind : Nat) (cause : Fd) : Chip :=
  let t := s.setFld cause 0 0 1
  match s.boot.due with
  | none => t.beginReset kind
  | some d => if kind = 0 ∧ d ≠ 0 then t.beginReset 0 else t

/-- Power-on reset begins: everything is cleared but the contents of the stores, the boot memory and the outside; the time
base restarts only where VAON itself was lost (R374, R526, R531). -/
def Chip.powerOff (s : Chip) (vaonLost : Bool) : Chip :=
  let t : Chip :=
    { Chip.fresh with
      mem := s.mem
      marks := keptMarks s.marks
      tb := if vaonLost then 0 else s.tb
      wraps := if vaonLost then 0 else s.wraps
      freeCtr := s.freeCtr
      pads := s.pads
      samples := s.samples
      skipped := s.skipped
      vio := s.vio
      boot := { mem := s.boot.mem, due := some 0 } }
  t

/-- Domain 64 is powered as soon as VCORE and both serdes rails are good (R528). -/
def Chip.powerPcie (s : Chip) : Chip :=
  if s.on F.sysSupply_VCORE_OK ∧ s.on F.sysSupply_VSER09_OK ∧ s.on F.sysSupply_VSER12_OK ∧ !s.psm.forced.contains 64 ∧
      s.fld F.psmStat_STATE < 4 then
    s.setDom 64 true
  else s

/-- Power-on reset releases: the straps are sampled, and start-up is due (R526, R535). -/
def Chip.porRelease (s : Chip) (straps : Nat) : Chip :=
  (s.updBoot fun b => { b with straps := straps % 1024, due := some 0 }).takePad.powerPcie

/-- RESET_N low for 1 µs and high again: a cold reset, the straps sampled at its end (R535, R536). -/
def Chip.resetN (s : Chip) (straps : Nat) : Chip :=
  ((s.doReset 0 F.sysRstcause_BALL).updBoot fun b => { b with straps := straps % 1024 }).takePad

/-- A write to SYS_RESET (Table 15.6). -/
def Chip.writeSysReset (s : Chip) (v : Nat) : Chip :=
  if bits v 31 16 ≠ 0x7E51 then s
  else if bits v 1 0 = 1 then s.doReset 1 F.sysRstcause_KEYSTONE
  else if bits v 1 0 = 2 then s.doReset 0 F.sysRstcause_COLD
  else s

/-- A footing command over SMBus (Table 15.12). -/
def Chip.footing (s : Chip) (c : Nat) : Chip :=
  if c = 1 then s.setParked true
  else if c = 2 then s.doReset 1 F.sysRstcause_FOOT
  else if c = 3 then s.doReset 0 F.sysRstcause_FOOT
  else s

/-- Outbound accesses in flight end with TARGET. -/
def Chip.endOutbound (s : Chip) : Chip :=
  let l := s.pcie.outQ ++ s.pcie.reads.map fun r => r.acc
  l.foldl (fun t a => t.respond a .target 0) (s.updPcie fun p => { p with outQ := [], reads := [] })

/-- A reset of host function f (Table 15.5). -/
def Chip.funcReset (s : Chip) (f : Nat) : Chip :=
  let own := fun (k w : Nat) => decide (k / w = f)
  let t := s.updPcie fun p =>
    { p with dstate := NStore.del p.dstate f, bars := p.bars.filter fun x => !own x.1 8, cmd := NStore.del p.cmd f,
             msixEn := NStore.del p.msixEn f, table := p.table.filter fun x => !own x.1 256,
             pend := p.pend.filter fun x => !own x 64 }
  let t := { t with busMaster := t.busMaster.filter fun x => x != f }
  if f = 0 then t.endOutbound else t

/-- PERST# (Table 15.5): PERST_FULL is FLAGS bit 2 of the keystone in effect. -/
def Chip.perst (s : Chip) : Chip :=
  if bit s.boot.flags 2 then s.doReset 1 F.sysRstcause_PERST else (s.funcReset 0).funcReset 1

/-! ### The watchdog (R476) -/

/-- The watchdog's µs before a bite. -/
def Chip.wdogLeft (s : Chip) : Nat :=
  if s.on F.sysWdogCtrl_EN then s.fld F.sysWdogCtrl_TIMEOUT - sub64 s.now s.boot.kicked / 1000 else 0

/-- The watchdog has reached 0: a keystone reset. -/
def Chip.wdogBite (s : Chip) : Chip :=
  if s.on F.sysWdogCtrl_EN ∧ s.fld F.sysWdogCtrl_TIMEOUT * 1000 ≤ sub64 s.now s.boot.kicked then
    s.doReset 1 F.sysRstcause_WDOG
  else s

/-- A kick: the right key restarts a running count. -/
def Chip.wdogKick (s : Chip) (v : Nat) : Chip :=
  if bits v 15 0 = 0x5A17 then s.updBoot fun b => { b with kicked := s.now } else s.setFld F.sysWdogStat_KICK_ERR 0 0 1

/-! ### Rails (R525, R528, R531) -/

/-- The OK and LOST bits of the monitored rails: 0 VCORE, 1 VMEM, 2 and 3 the serdes rails, 4 VDAC. -/
def railOk (r : Nat) : Fd :=
  match r with
  | 0 => F.sysSupply_VCORE_OK
  | 1 => F.sysSupply_VMEM_OK
  | 2 => F.sysSupply_VSER09_OK
  | 3 => F.sysSupply_VSER12_OK
  | _ => F.sysSupply_VDAC_OK
def railLost (r : Nat) : Fd :=
  match r with
  | 0 => F.sysSupply_LOST_VCORE
  | 1 => F.sysSupply_LOST_VMEM
  | 2 => F.sysSupply_LOST_VSER09
  | 3 => F.sysSupply_LOST_VSER12
  | _ => F.sysSupply_LOST_VDAC

/-- A rail has been in its window for 100 µs: its OK bit. With VCORE and VMEM back after a loss, the cold reset that Table
17.8 asks for; with a serdes rail back, PCI Express as after PERST#, and the DisplayPort links that had lost training train
again (DEDUCED, notes/assumptions/80.md). -/
def Chip.railEnter (s : Chip) (r : Nat) : Chip :=
  if s.on (railOk r) then s
  else
    let t := s.setFld (railOk r) 0 0 1
    let t := if (r = 2 ∨ r = 3) ∧ s.on (railLost r) ∧ t.on F.sysSupply_VSER09_OK ∧ t.on F.sysSupply_VSER12_OK then
        (List.range 8).foldl (fun t h => if t.on F.shDpstat_LINK_LOSS h ∧ t.on F.shDpstat_HPD h ∧ !t.on F.shDpstat_TRAINED h then
          t.updHead h fun x => { x with trainReq := true } else t) ((t.funcReset 0).funcReset 1)
      else t
    let t := if s.boot.railsLost ∧ t.on F.sysSupply_VCORE_OK ∧ t.on F.sysSupply_VMEM_OK then
        (t.updBoot fun b => { b with railsLost := false, due := none }).resetTo true 0
      else t
    t.powerPcie

/-- A rail leaves its window for more than 2 µs: its LOST bit, and the outcome of Table 17.8. -/
def Chip.railLeave (s : Chip) (r : Nat) : Chip :=
  if !s.on (railOk r) then s
  else
    let t := (s.setFld (railOk r) 0 0 0).setFld (railLost r) 0 0 1
    if r ≤ 1 then
      ((t.setParked true).setDoms (List.range 66) false).updBoot
        fun b => { b with railsLost := true, zero := b.zero || decide (r = 1), vmem := b.vmem || decide (r = 1) }
    else if r ≤ 3 then
      let t := (List.range 4).foldl (fun t l => if t.fld F.lnklStat_STATE l = 2 then t.setFld F.lnklStat_STATE l 0 3 else t) t
      let t := (List.range 8).foldl (fun t h => if t.fld F.shOut_OUTSEL h ≤ 1 ∧ t.on F.shDpstat_TRAINED h then
        (t.setFld F.shDpstat_TRAINED h 0 0).headStat F.shDpstat_LINK_LOSS h else t) t
      t.updPcie fun p => { p with up := false }
    else if 1 ≤ t.fld F.tbStat_REFSRC then t.genlockAbsent.refLost
    else t.genlockAbsent

/-! ### The boot engine (R478) -/

/-- A byte of the boot memory. -/
def Boot.byte (b : Boot) (a : Nat) : Nat := NStore.get 0xFF b.mem a

/-- n bytes of the boot memory, least significant first. -/
def Boot.bytes (b : Boot) (a : Nat) : Nat → Nat
  | 0 => 0
  | n + 1 => b.byte a + 256 * b.bytes (a + 1) n

/-- A byte of the boot memory set; an erased byte is not listed. -/
def Boot.put (b : Boot) (a v : Nat) : Boot :=
  { b with mem := if v = 0xFF then NStore.del b.mem a else NStore.set b.mem a v }

/-- A range erased. -/
def Boot.erase (b : Boot) (a n : Nat) : Boot := { b with mem := b.mem.filter fun p => !(decide (a ≤ p.1 ∧ p.1 < a + n)) }

/-- The range a command acts on. -/
def bfRange (cmd a : Nat) : Nat × Nat :=
  match cmd with
  | 1 => (a, 256)
  | 2 => (a / 256 * 256, 256)
  | 3 => (a / 4096 * 4096, 4096)
  | _ => (a / 65536 * 65536, 65536)

/-- Whether master m may give command `cmd` at the present address (Table 15.8): 0x11 reads always and writes in hold or
under HOSTWR; any other identity of this package acts within the ledger region. -/
def Chip.bfAllowed (s : Chip) (m : Master) (cmd : Nat) : Bool :=
  let r := bfRange cmd (s.fld F.hstBfAddr_ADDR)
  let inLedger := decide (s.boot.ledgerOff ≤ r.1 ∧ r.1 + r.2 ≤ s.boot.ledgerOff + s.boot.ledgerLen)
  match m with
  | .own id => if id = 0x11 then cmd == 1 || s.fld F.sysBoot_STATE == 5 || bit s.boot.flags 3 else inLedger
  | .remote _ _ _ => false

/-- A write to HST_BF_CMD: the command runs, or is refused. -/
def Chip.writeBfCmd (s : Chip) (m : Master) (v : Nat) : Chip :=
  let cmd := bits v 3 0
  if s.on F.hstBfStat_BUSY ∨ s.fld F.sysBoot_STATE < 4 then s.setFld F.hstBfStat_BUSY_REJ 0 0 1
  else if cmd = 0 ∨ 4 < cmd then s
  else if !s.bfAllowed m cmd then s.setFld F.hstBfStat_DENY 0 0 1
  else (s.setFld F.hstBfStat_BUSY 0 0 1).updBoot fun b => { b with cmd := some cmd }

/-- A write to another register of the engine: discarded while it is busy. -/
def Chip.writeBf (s : Chip) (f : Fd) (i v : Nat) : Chip :=
  if s.on F.hstBfStat_BUSY then s.setFld F.hstBfStat_BUSY_REJ 0 0 1 else s.setFld f i 0 (v / 2 ^ f.lo)

/-- The running command ends, well or with a failure reported by the memory. -/
def Chip.bfDone (s : Chip) (ok : Bool) : Chip :=
  match s.boot.cmd with
  | none => s
  | some cmd =>
    let r := bfRange cmd (s.fld F.hstBfAddr_ADDR)
    let t := (s.setFld F.hstBfStat_BUSY 0 0 0).updBoot fun b => { b with cmd := none }
    if cmd = 1 then
      ((List.range 64).foldl (fun t i => t.setFld F.hstBfBuf_DATA i 0 (s.boot.bytes (r.1 + 4 * i) 4)) t).setFld F.hstBfStat_DONE 0 0 1
    else if !ok then t.setFld F.hstBfStat_FAIL 0 0 1
    else if cmd = 2 then
      let buf := (List.range 256).map fun i => s.fld F.hstBfBuf_DATA (i / 4) / 2 ^ (8 * (i % 4)) % 256
      (t.updBoot fun b => (buf.zipIdx).foldl (fun b p => b.put (r.1 + p.2) p.1) b).setFld F.hstBfStat_DONE 0 0 1
    else (t.updBoot fun b => b.erase r.1 r.2).setFld F.hstBfStat_DONE 0 0 1

end Sys2Proof.Machine
end

