-- ==== Sys2Proof/Machine/Ports.lean ====
section
/-! DEFINITION. The ports of an Anvil core as places to read and write (Tables 9.6 to 9.21, R280, R281), the accelerator
ports (R307), and the debug windows (R318 to R322). What a trigger does is in Anvil.lean. -/

namespace Sys2Proof.Machine

/-! ### Which ports there are -/

/-- The access of a port: read-write, read-only (RO or RC), write-only, W1C and RO mixed (R281), or reserved. -/
inductive PAcc where
  | rw
  | ro
  | wo
  | mix
  | none
deriving DecidableEq, Repr

/-- The access of port p (Tables 9.6, 9.7, 9.11 to 9.14, 9.16 to 9.21). -/
def portAcc (p : Nat) : PAcc :=
  let pick (o : Nat) (rw ro wo : List (Nat × Nat)) : PAcc :=
    let mem (l : List (Nat × Nat)) := l.any fun r => decide (r.1 ≤ o ∧ o ≤ r.2)
    if mem rw then .rw else if mem ro then .ro else if mem wo then .wo else .none
  if p < 0x40 then .rw
  else if p < 0x80 then pick (p % 32) [(0, 0)] [(1, 1)] [(8, 0x1B)]
  else if p < 0xA0 then pick (p - 0x80) [(0, 0)] [(1, 2)] [(8, 0xB)]
  else if p < 0xC0 then pick (p - 0xA0) [(0, 0)] [(1, 1)] [(8, 0xF)]
  else if p < 0x100 then pick (p % 32) [(0, 1)] [(2, 2)] [(8, 9)]
  else if p < 0x120 then pick (p - 0x100) [(0, 1)] [(2, 3)] [(8, 0xF)]
  else if p < 0x140 then pick (p - 0x120) [(0, 5)] [(6, 0xB)] [(0x10, 0x14)]
  else if p < 0x180 then pick (p - 0x140) [(0, 0xF)] [(0x10, 0x20)] [(0x28, 0x29)]
  else if p < 0x1A0 then pick (p - 0x180) [(1, 4)] [(0, 0), (5, 6)] [(8, 9)]
  else if p < 0x1B0 then pick (p - 0x1A0) [] [(0, 7)] []
  else if p < 0x1C0 then pick (p - 0x1B0) [] [(0, 0), (2, 3), (0xF, 0xF)] [(0xE, 0xE)]
  else if p < 0x700 then .none
  else if p = 0x70D then .mix
  else if p < 0x800 then
    pick (p - 0x700) [(0, 0xB), (0x18, 0x1F)] [(0xE, 0xE), (0x40, 0x7F), (0xC0, 0xFF)] [(0xC, 0xC), (0x10, 0x11), (0x80, 0xBF)]
  else .none

/-- The unit that a trigger port belongs to (R276): ALU0, ALU1, MUL, SHF, LSU0, LSU1, BR with RETI, FAB, MSG, WFI. -/
def triggerUnit (p : Nat) : Option Nat :=
  if portAcc p = .wo ∧ p < 0x1A0 then
    some (if p < 0x60 then 0 else if p < 0x80 then 1 else if p < 0xA0 then 2 else if p < 0xC0 then 3 else if p < 0xE0 then 4
      else if p < 0x100 then 5 else if p < 0x120 ∨ p = 0x189 then 6 else if p < 0x140 then 7 else if p < 0x180 then 8 else 9)
  else none

/-! ### Accelerator ports (Table 9.21, R307) -/

/-- The blit registers of the staging set, by offset / 4 (Table 8.1). -/
def bltStaging : List RegId :=
  [.bltOp, .bltSbase, .bltSstride, .bltSxy, .bltDbase, .bltDstride, .bltDxy, .bltSize, .bltFill, .bltPal, .bltWmark, .bltPace]

/-- A register written by its fields' access codes (R7, R9). -/
def Chip.writeFlds (s : Chip) (id : RegId) (i j v : Nat) : Chip :=
  id.row.flds.foldl (fun t f => match f.acc with
    | .rw | .lk => t.writeFld f i j v
    | .w1c => t.w1c f i j v
    | _ => t) s

/-- A write to LPEn_BASE: at once where head n is not scanning (R80). -/
def Chip.writeLpeBase (s : Chip) (n v : Nat) : Chip :=
  let t := s.writeFlds .lpeBase n 0 v
  if s.on F.shStat_RUNNING n then t else t.setWord .lpeBaseAct n 0 (t.word .lpeBase n)

/-- The register or FIFO that an accelerator port names. -/
def accelReg (p : Nat) : RegId × Nat :=
  if p < 0x710 then (.bltOp, 0)
  else if p = 0x710 then (.dmaBell, 0)
  else if p = 0x711 then (.cpsFsig, 0)
  else if p < 0x740 then (.lpeBase, p - 0x718)
  else (.psqTxf, p % 64)

/-- Whether the unit behind an accelerator port is powered (R13). -/
def Chip.accelOn (s : Chip) (p : Nat) : Bool :=
  match s.regDomain (accelReg p).1 (accelReg p).2 with
  | some d => s.domOn d
  | none => true

/-- An accelerator port as it reads; a FIFO keeps its word. In a powered-off unit it reads 0
(DEDUCED, notes/assumptions/39.md). -/
def Chip.accelVal (s : Chip) (p : Nat) : Nat :=
  if !s.accelOn p then 0
  else if p < 0x70C then s.word (bltStaging.getD (p - 0x700) .bltOp)
  else if p = 0x70D then s.bltStatWord
  else if p = 0x70E then s.word .bltRow
  else if p < 0x740 then s.word .lpeBase (p - 0x718)
  else if p < 0x780 then s.psqLevelWord (p - 0x740)
  else s.psqHead (p - 0x7C0)

/-- A write to an accelerator port (R6, R307). -/
def Chip.accelWrite (s : Chip) (p v : Nat) : Chip :=
  let w := v % 2 ^ 32
  if !s.accelOn p then s
  else if p < 0x70C then s.writeFlds (bltStaging.getD (p - 0x700) .bltOp) 0 0 w
  else if p = 0x70C then s.writeBltGo w
  else if p = 0x70D then s.writeFlds .bltStat 0 0 w
  else if p = 0x710 then s.writeDmaBell w
  else if p = 0x711 then s.fenceSignal (w % 256)
  else if p < 0x740 then s.writeLpeBase (p - 0x718) w
  else s.psqPush (p - 0x780) w

/-! ### Port values -/

/-- Port n of core k as it is held. -/
def Chip.port (s : Chip) (k p : Nat) : Nat := NStore.get 0 (s.core k).ports p

/-- Port n of core k set. -/
def Chip.setPort (s : Chip) (k p v : Nat) : Chip := s.updCore k fun x => { x with ports := NStore.put0 x.ports p (v % 2 ^ 36) }

/-- The FAB.CHIP port: the package's own number until it is written (Table 9.17). -/
def Chip.fabChip (s : Chip) (k : Nat) : Nat := if s.port k 0x121 = 0 then s.chipNo else s.port k 0x121 - 1

/-- FEATi of core k (Table 9.20). -/
def Chip.featWord (s : Chip) (k i : Nat) : Nat :=
  let p := s.physOf 0 k
  match i with
  | 0 => 0x6816A100 + k
  | 1 => 0xFFF
  | 2 => 0x0E124004
  | 3 => s.chipNo * 2 ^ 16 + (8 - (s.dead.filter fun x => decide (x < 4096)).length) * 2 ^ 8 + 0x40
  | 4 => 0x4233
  | 5 => b2n (p == 8) * 256 + p
  | _ => 0

/-- FAB.OUTST: reads and writes outstanding. -/
def Chip.outst (s : Chip) (k : Nat) : Nat :=
  let l := (s.core k).fab
  (l.filter fun o => !o.write).length * 16 + (l.filter fun o => o.write).length

/-- The value of port p of core k, without any effect of the read: a claim claims nothing, a FIFO keeps its word. The time
base port shows an instant at most 4 tk back, a free value within that bound (R282). -/
def Chip.portVal (s : Chip) (k p : Nat) : Nat × Chip :=
  if 0x700 ≤ p then (s.accelVal p, s)
  else if 0x1A0 ≤ p ∧ p < 0x1A8 then (s.featWord k (p - 0x1A0), s)
  else match p with
    | 0x103 => (s.fld F.coreStat_PC k, s)
    | 0x121 => (s.fabChip k, s)
    | 0x12B => (s.outst k, s)
    | 0x180 => (s.claimWord k, s)
    | 0x181 => (s.pri k, s)
    | 0x1B2 => (sub64 s.now ((s.free 3).1 % 5) % 2 ^ 36, (s.free 3).2)
    | _ => (s.port k p, s)

/-- The value of port p read as a move's source, with the read's effects (R281, R282, R286, R300). -/
def Chip.portRead (s : Chip) (k p : Nat) : Nat × Chip :=
  if 0x7C0 ≤ p then
    if s.accelOn p then (s.accelVal p, s.psqPop (p - 0x7C0)) else (0, s)
  else match p with
    | 0x180 => (s.claimWord k, s.claim k)
    | 0x186 => (s.port k 0x186, s.setPort k 0x186 (s.port k 0x186 % 2 ^ 30))
    | 0x1B2 =>
      let t := sub64 s.now ((s.free 3).1 % 5)
      (t % 2 ^ 36, (s.free 3).2.setPort k 0x1B3 (t / 2 ^ 36))
    | _ => s.portVal k p

/-- A value written to a read-write port: the port keeps the bits that its table gives it. -/
def Chip.portSet (s : Chip) (k p v : Nat) : Chip :=
  if 0x700 ≤ p then s.accelWrite p v
  else if p = 0x121 then s.setPort k p (v % 1024 + 1)
  else if (0x122 ≤ p ∧ p < 0x126) ∨ (0x140 ≤ p ∧ p < 0x150) then s.setPort k p (v % 2 ^ 32)
  else if p = 0x181 then s.setPri k (v % 16)
  else if p = 0x182 then s.setPort k p (v % 2)
  else if p = 0x183 ∨ p = 0x184 then s.setPort k p (v % 2 ^ 14)
  else s.setPort k p v

/-! ### The memories (R292, R322, R550) -/

/-- The local address of data word e and of instruction e of core k, in its debug window (Table 10.3). -/
def dmemAddr (k e : Nat) : Nat := 0x18000000 + k * 0x400000 + e * 8
def imemAddr (k e : Nat) : Nat := 0x18200000 + k * 0x400000 + e * 32

/-- The core whose debug window holds a local address: windows of 4 MiB lie from 0x18000000 on (R318). -/
def winCore (la : Nat) : Nat := la / 0x400000 - 96

/-- A word or instruction replaced with its check bits; an armed injection is stored with it (R322, R363, R550). -/
def Chip.anvilMark (s : Chip) (ea size : Nat) : Chip :=
  let kind := s.fld F.fabInjHi_KIND
  let hit := decide (kind ≠ 0 ∧ ea / 16 ≤ s.fld F.fabInjLo_ADDR ∧ s.fld F.fabInjLo_ADDR ≤ (ea + size - 1) / 16)
  if hit then
    ({ s with marks := NStore.set s.marks ea (if kind = 2 then .poison else .correctable) }).setFld F.fabInjHi_KIND 0 0 0
  else { s with marks := NStore.del s.marks ea }

def Chip.dmemWord (s : Chip) (k e : Nat) : Nat := NStore.get 0 (s.core k).dmem e
def Chip.imemWord (s : Chip) (k e : Nat) : Nat := NStore.get 0 (s.core k).imem e

/-- Data word e of core k written. -/
def Chip.putDmem (s : Chip) (k e v : Nat) : Chip :=
  (s.updCore k fun x => { x with dmem := NStore.put0 x.dmem e (v % 2 ^ 36) }).anvilMark (dmemAddr k e) 8

/-- Instruction e of core k written. -/
def Chip.putImem (s : Chip) (k e v : Nat) : Chip :=
  (s.updCore k fun x => { x with imem := NStore.put0 x.imem e (v % 2 ^ 144) }).anvilMark (imemAddr k e) 32

/-! ### The debug window (R318 to R322) -/

/-- What a window address names: the element's offset in the window, its kind (data 0, instruction 1, port 2), its number,
and the word within it; none for a reserved range. -/
def winElem (o : Nat) : Option (Nat × Nat × Nat × Nat) :=
  if o < 0x200000 then some (o / 8 * 8, 0, o / 8, o % 8 / 4)
  else if o < 0x280000 then
    if o % 32 < 20 then some (o / 32 * 32, 1, (o - 0x200000) / 32, o % 32 / 4) else none
  else if 0x300000 ≤ o ∧ o < 0x308000 then some (o / 8 * 8, 2, (o - 0x300000) / 8, o % 8 / 4)
  else none

/-- Why an access to a window ends in an error, if it does (R13, R318, R321). Data memory is open in every core state, ASLEEP
among them (R320). -/
def Chip.winRefuses (s : Chip) (la size : Nat) (write : Bool) : Option RespKind :=
  let k := winCore la
  if size ≠ 4 ∨ la % 4 ≠ 0 then some .decode
  else match winElem (la % 0x400000) with
    | none => some .decode
    | some (_, kind, e, _) =>
      if !s.domOn (s.physOf 0 k) ∧ !(kind = 0 ∧ s.coreState k = 4) then some .domainOff
      else if kind = 0 then none
      else if 2 ≤ s.coreState k then some .target
      else if kind = 1 then none
      else match portAcc e with
        | .none => some .target
        | .rw | .mix => none
        | _ => if write then some .target else none

/-- The live value of an element, with poison. -/
def Chip.winLive (s : Chip) (k kind e : Nat) : Nat × Bool × Chip :=
  match kind with
  | 0 => let u := s.checkUnit (dmemAddr k e); (s.dmemWord k e, u.1, u.2)
  | 1 => let u := s.checkUnit (imemAddr k e); (s.imemWord k e, u.1, u.2)
  | _ => if portAcc e = .wo then (0, false, s) else ((s.portVal k e).1, false, (s.portVal k e).2)

/-- WINDOW_READ (R319): the data and whether it is poisoned. -/
def Chip.winRead (s : Chip) (la : Nat) : Nat × Bool × Chip :=
  let k := winCore la
  match winElem (la % 0x400000) with
  | none => (0, false, s)
  | some (o, kind, e, w) =>
    let word (v : Nat) := v / 2 ^ (32 * w) % 2 ^ 32
    if w = 0 then
      let r := s.winLive k kind e
      (word r.1, r.2.1, r.2.2.updCore k fun x => { x with latch := some (o, r.1, r.2.1) })
    else match (s.core k).latch with
      | some (o', v, p) =>
        if o' = o then (word v, p, s) else let r := s.winLive k kind e; (word r.1, r.2.1, r.2.2)
      | none => let r := s.winLive k kind e; (word r.1, r.2.1, r.2.2)

/-- WINDOW_WRITE (R319): a word staged, or the whole element written and the staging register cleared. -/
def Chip.winWrite (s : Chip) (la v : Nat) : Chip :=
  let k := winCore la
  match winElem (la % 0x400000) with
  | none => s
  | some (_, kind, e, w) =>
    let st := (s.core k).stage
    if kind = 1 then
      if w = 4 then
        let low := (List.range 4).foldl (fun a i => a + NStore.get 0 st i * 2 ^ (32 * i)) 0
        (s.putImem k e (low + v % 2 ^ 16 * 2 ^ 128)).updCore k fun x => { x with stage := [] }
      else s.updCore k fun x => { x with stage := NStore.put0 x.stage w v }
    else if w = 0 then
      let full := v + NStore.get 0 st 1 % 16 * 2 ^ 32
      let t := if kind = 0 then s.putDmem k e full
        else if portAcc e = .mix then s.accelWrite e full else s.portSet k e full
      t.updCore k fun x => { x with stage := [] }
    else s.updCore k fun x => { x with stage := NStore.put0 x.stage w v }

end Sys2Proof.Machine
end

