-- ==== Sys2Proof/Machine/Bus.lean ====
section
/-! DEFINITION. The fabric: what a read and a write of each register do (R7, R9, R13), which accesses are refused (R22 to
R28, R348), and the way of an access and of its response (R349, R353, R357). -/

namespace Sys2Proof.Machine

/-! ### Which register an address names -/

/-- The indices under which a family holds a register at a local address. -/
def RegRow.index (r : RegRow) (a : Nat) : Option (Nat × Nat) :=
  let o := a - r.base
  let i := if r.n1 ≤ 1 then 0 else o / r.s1
  let j := if r.n2 ≤ 1 then 0 else (o - i * r.s1) / r.s2
  if r.base ≤ a ∧ i < r.n1 ∧ j < r.n2 ∧ i * r.s1 + j * r.s2 = o then some (i, j) else none

/-- The register at a local address; none at a reserved offset. -/
def decodeReg (a : Nat) : Option (RegId × Nat × Nat) :=
  (Block.of a).bind fun b => b.ids.findSome? fun id => (id.row.index a).map fun p => (id, p.1, p.2)

/-- The local address of a register. -/
def RegId.addr (id : RegId) (i j : Nat) : Nat := id.row.base + i * id.row.s1 + j * id.row.s2

/-! ### Writes -/

/-- The registers that are written only while their head is stopped (R159). -/
def stoppedClass : List RegId :=
  [.shFormat, .shHtime, .shHsync, .shVtime, .shVsync, .shPclk, .shLock, .shTbepochLo, .shTbepochHi, .shTbper, .shTbperHi,
   .shGloffs, .shOut, .shDpcfg, .shAna, .shPar]

/-- A write to a register of layer k (R41 to R43, R46, R125). -/
def Chip.writeLayer (s : Chip) (id : RegId) (k v : Nat) : Chip :=
  let o := id.row.base % 0x1000
  let t := (s.writeFlds id k 0 v).dropIngotsOf k
  if id = .layAssign then t.assignNow k
  else if o < 0x20 then if t.layIdle k then t.takeSource id k else t
  else if o < 0x48 then { t with liveDirty := if t.liveDirty.contains (k * 4096 + o) then t.liveDirty
                                                            else t.liveDirty ++ [k * 4096 + o] }
  else t

/-- A write to a latch-class compositor register of head h (R107). -/
def Chip.writeCps (s : Chip) (id : RegId) (h v : Nat) : Chip :=
  let t := s.writeFlds id h 0 v
  if s.on F.shStat_RUNNING h then t else t.takeCpsReg id h

/-- A write to MBm_LIM: LAH only while the engine stands (R225). -/
def Chip.writeLim (s : Chip) (m v : Nat) : Chip :=
  let t := s.writeFld F.mbLim_THR m 0 v
  if s.fld F.mbLim_LAH m = bits v 31 30 then t
  else if s.on F.audStat_RUNNING then t.audStick F.audStat_CFG_ERR
  else t.writeFld F.mbLim_LAH m 0 v

/-- A write to an output slot. -/
def Chip.writeOutSlot (s : Chip) (src ramp pend : Fd) (i j k v : Nat) : Chip :=
  ((s.writeFld src i j v).writeFld ramp i j v).slotWritten pend i j k

/-- A write to SPDs_CS: discarded while the port is on (R227). -/
def Chip.writeSpdCs (s : Chip) (p v : Nat) : Chip :=
  if s.on F.spdCfg_EN p then
    s.portStick (16 + p) F.outStat_CFG_REJ F.spdStat_CFG_REJ F.dpaStat_CFG_REJ F.inStat_CFG_REJ
  else s.writeFlds .spdCs p 0 v

/-- Whether master m may write a register of Table 15.11. -/
def hostMay (id : RegId) (m : Master) : Bool :=
  match id with
  | .hstF1vec => m == .own 0x11
  | .hstObcfg | .hstObwinLo | .hstObwinHi => m == .own 0x11 || m == .own 0x10
  | _ => true

/-- A SEND or RECV written to the mailbox registers: a core's acts as its port's trigger (R335). -/
def Chip.writeMbxOp (s : Chip) (m : Master) (recv : Bool) (c : Nat) : Chip :=
  let id := m.idNo
  if id < 8 then s.msgTrigger id recv c
  else if recv then s.mailboxRecv id c else s.mailboxSend id c

/-- A write of v to register (i, j) of a family by master m, where the unit takes it. Registers named here have an effect of
their own; every other one follows its access codes (R7). The LK fields of LNK_BCAST have no lock that the spec names
(DEDUCED, notes/assumptions/37.md). -/
def Chip.writeReg (s : Chip) (m : Master) (id : RegId) (i j v : Nat) : Chip :=
  match id with
  | .sysReset => s.writeSysReset v
  | .sysPark => if bit v 0 then s.setParked true else s
  | .sysWdogKick => s.wdogKick v
  | .coreCtrl => s.writeCoreCtrl i v
  | .psmCtrl => s.writePsmCtrl v
  | .psmWake => s.writePsmWake v
  | .psmVlim => s.writeVlim v
  | .psmDomoff => s.writeDomoff v
  | .asyReq => s.writeAsyReq v
  | .asyResPop => s.writeResPop v
  | .asyLgrPop => s.writeLgrPop v
  | .asyMaint => s.writeMaint m v
  | .fabStat => s.writeFabStat v
  | .fabElogPop => s.writeElogPop v
  | .fabSpareCmd => s.writeSpareCmd v
  | .intcSrc => s.writeSrc i v
  | .intcPend => s.writePend i v
  | .intcSwset => if v % 512 = 0 then s else s.raiseSource (v % 512)
  | .intcPri => s.setPri i (v % 16)
  | .mbxTx => s.setTx m.idNo i v
  | .mbxSend => s.writeMbxOp m false (v % 512)
  | .mbxRecv => s.writeMbxOp m true (v % 512)
  | .mbxChCfg => s.writeChCfg i v
  | .mbxCptId | .mbxCptTmo => s.writeCpt id i v
  | .cmpCtrl => s.writeCmpCtrl i v
  | .cmpValLo => s.updCmp i fun x => { x with stage := v }
  | .cmpValHi => s.compareArm i v
  | .timFired => s.clearFired i v
  | .intCtrl => s.writeIntCtrl i v
  | .intCmd => s.intCommand i v
  | .adcCtrl => s.writeAdcCtrl v
  | .adcCmd =>
    let t := if bit v 0 then s.adcStart none else s
    if bit v 1 then t.adcStop else t
  | .evfSwtrig => s.writeSwtrig v
  | .evfSwprod => s.writeSwprod
  | .pinCfg => s.writePinCfg i v
  | .pinSet => s.pinSet i v
  | .pinClr => s.pinClr i v
  | .pinTgl => s.pinTgl i v
  | .pinBank => s.writePinBank i v
  | .pinLockkey => s.lockKey m v
  | .pinUnpark => if bit v 0 then s.setParked false else s
  | .uartCfg => s.writeSerialCfg i i v id.row.flds true
  | .uartDiv => s.writeSerialCfg i i v id.row.flds false
  | .uartData => s.serialPush i v
  | .spiCfg => s.writeSerialCfg (16 + i) i v id.row.flds true
  | .spiDiv => s.writeSerialCfg (16 + i) i v id.row.flds false
  | .spiData => s.serialPush (16 + i) v
  | .i2cCfg => s.writeSerialCfg (24 + i) i v id.row.flds true
  | .i2cData => s.serialPush (24 + i) v
  | .psqCtrl => s.writePsqCtrl i v
  | .psqCmd => s.writePsqCmd i v
  | .psqSr => s.writePsqData F.psqSr_SR i 0 v
  | .psqDr => s.writePsqData F.psqDr_DR i 0 v
  | .psqLc => s.writePsqData F.psqLc_LC i 0 v
  | .psqIdle => s.writePsqData F.psqIdle_IDLE i 0 v
  | .psqProg => s.writePsqData F.psqProg_INST i j v
  | .psqTxf => s.psqPush i v
  | .dmaBell => s.writeDmaBell v
  | .dmacCfg | .dmacHi | .dmacLo | .dmacDesc => s.writeDmaCfg id.row.flds i v
  | .dmacCmd => s.writeDmaCmd i v
  | .bltGo => s.writeBltGo v
  | .cpsLane => (s.writeFlds id i 0 v).laneNow i
  | .cpsFsig => s.fenceSignal (v % 256)
  | .cpsFlip => s.writeFlip i v
  | .cpsCtrl =>
    let t := s.writeCps id i v
    if t.fld F.cpsCtrl_CH_LOG2 i = s.fld F.cpsCtrl_CH_LOG2 i then t else t.dropIngot i
  | .cpsPageA | .cpsPageB | .cpsTeeAddr | .cpsTeeAddr2 | .cpsTeeStride | .cpsTeeX | .cpsTeeCfg => s.writeCps id i v
  | .cpsIngot => (s.writeCps id i v).dropIngot i
  | .hmkHstat => s.writeHstat m i v
  | .hmkCfg | .hmkRectH | .hmkRectV | .hmkExp | .hmkHval0 | .hmkHtag0 | .hmkHval1 | .hmkHtag1 | .hmkStat
  | .hmkLastc | .hmkLastcFrm | .hmkLasts | .hmkLastsFrm | .hmkMiscnt =>
    s.writeRegion m id i j v
  | .lpeBase => s.writeLpeBase i v
  | .shCtrl => s.writeShCtrl i v
  | .glCtrl => s.writeGlCtrl v
  | .shFaddr => s.writeShFaddr i v
  | .shDpcmd => s.writeDpcmd i v
  | .shAuxctrl => s.writeAuxctrl i v
  | .audCtrl => s.writeAudCtrl v
  | .audClk => s.writeAudClk v
  | .effIn => s.writeSlot F.effIn_SRC F.effIn_GAIN F.effIn_PEND i j (effKey i j) v (effSrcOk i (bits v 24 16))
  | .mbIn => s.writeSlot F.mbIn_SRC F.mbIn_GAIN F.mbIn_PEND i j (mixKey i j) v (mixSrcOk i (bits v 24 16))
  | .mbLim => s.writeLim i v
  | .effP => s.writeEffP i j v
  | .cqRptr => s.setCqRptr i v
  | .outCfg => s.writePortCfg i v
  | .spdCfg => s.writePortCfg (16 + i) v
  | .dpaCfg => s.writePortCfg (20 + i) v
  | .inCfg => s.writePortCfg (28 + i) v
  | .spdCs => s.writeSpdCs i v
  | .outSlot => s.writeOutSlot F.outSlot_SRC F.outSlot_RAMP F.outSlot_PEND i j (portKey i j) v
  | .spdSlot => s.writeOutSlot F.spdSlot_SRC F.spdSlot_RAMP F.spdSlot_PEND i j (spdKey i j) v
  | .dpaSlot => s.writeOutSlot F.dpaSlot_SRC F.dpaSlot_RAMP F.dpaSlot_PEND i j (dpaKey i j) v
  | .vOut => (s.writeFlds id i j v).slotWritten F.vOut_PEND i j (outKey i j)
  | .vCmd => s.writeVoiceCmd i v
  | .lnklCtrl => s.writeLinkCtrl i v
  | .hstBfAddr => s.writeBf F.hstBfAddr_ADDR 0 v
  | .hstBfBuf => s.writeBf F.hstBfBuf_DATA i v
  | .hstBfCmd => s.writeBfCmd m v
  | .hstBfStat => if s.on F.hstBfStat_BUSY then s.setFld F.hstBfStat_BUSY_REJ 0 0 1 else s.writeFlds id 0 0 v
  | .hstObcfg | .hstObwinLo | .hstObwinHi | .hstF1vec => if hostMay id m then s.writeFlds id i j v else s
  | id =>
    if id.block = .lay then s.writeLayer id i v
    else if stoppedClass.contains id && s.on F.shStat_RUNNING i then s.headStat F.shStat_CFG_REJ i
    else s.writeFlds id i j v

/-! ### Reads -/

/-- What a read of register (i, j) of a family by master m returns, without the clearing of its RC fields. -/
def Chip.readWord (s : Chip) (m : Master) (id : RegId) (i j : Nat) : Nat × Chip :=
  let w := s.word id i j
  let busy (b : Bool) := w + b2n b * 2 ^ 31
  match id with
  | .sysWdogStat => (w + s.wdogLeft, s)
  | .psmBlock => (s.blockWord, s)
  | .psmWaketLo => (s.psm.waket % 2 ^ 32, s.setFld F.psmWaketHi_T 0 0 (s.psm.waket / 2 ^ 32))
  | .psmLtolEff => (s.ltolWord, s)
  | .asyStat => (s.asyStatWord, s)
  | .asyResW0 => (s.resWord 0, s)
  | .asyResW1 => (s.resWord 1, s)
  | .asyResW2 => (s.resWord 2, s)
  | .asyLgrW => (s.lgrWord i, s)
  | .asyLgrLevel => (s.lgrLevelWord, s)
  | .asySpares => (s.sparesWord, s)
  | .fabElogW => (s.elogWord i, s)
  | .fabElogLevel => (s.elogLevelWord, s)
  | .fabSpareStat => s.spareStatWord
  | .intcClaim => (s.claimWord i, s.claim i)
  | .intcStat => (s.intcStatWord i, s)
  | .mbxTx => ((s.txWords m.idNo).getD i 0, s)
  | .mbxRx => (s.rxWord m.idNo i, s)
  | .mbxMstat => (s.mstat m.idNo, s)
  | .mbxChCfg => (s.chCfgWord i, s)
  | .mbxChStat => (s.chStatWord i, s)
  | .mbxReady => (s.readyWord m i j, s)
  | .tbLo => s.readTbLo m
  | .tbHi => (s.readTbHi m, s)
  | .timFired => (s.firedWord i, s)
  | .capLo => s.captureRead i
  | .capNew => (s.capNewWord i, s)
  | .adcFifo => s.adcPop
  | .adcLevel => (s.adc.fifo.length, s)
  | .adcSstampLo => s.readSstamp
  | .pinIn => s.syncWord (32 * i) 32
  | .pinStat => (s.pinStatWord, s)
  | .uartData => (s.serialHead i, s.serialPop i)
  | .spiData => (s.serialHead (16 + i), s.serialPop (16 + i))
  | .i2cData => (s.serialHead (24 + i), s.serialPop (24 + i))
  | .uartStat => (w + s.serialLevels i, s)
  | .spiStat => (w + s.serialLevels (16 + i), s)
  | .i2cStat => (w + s.serialLevels (24 + i), s)
  | .psqLevel => (s.psqLevelWord i, s)
  | .psqTrLo => s.psqReadTr i
  | .psqCapLo => s.psqReadCap i
  | .psqRxf => (s.psqHead i, s.psqPop i)
  | .dmaStat => s.dmaStatWord
  | .bltStat => (s.bltStatWord, s)
  | .hmkFrame => (s.fld F.shFrame_FRAME i, s)
  | .hmkMislo => (s.misWord i 0, s)
  | .hmkMishi => (s.misWord i 1, s)
  | .hmkLastc => s.readSig i j false
  | .hmkLasts => s.readSig i j true
  | .lpeLine =>
    let e := s.lpe i
    (b2n e.running * 2 ^ 31 + b2n e.hold.isSome * 2 ^ 30 + e.line % 2 ^ 16, s)
  | .shBeam => ((s.beamNow i).1 * 2 ^ 16 + (s.beamNow i).2, s)
  | .shDotper => (if s.on F.shStat_RUNNING i then s.dot24 i % 2 ^ 32 else 0, s)
  | .shFstampLo => s.readFstamp i
  | .glFper => s.readGlFper
  | .glFstampLo => s.readGlFstamp
  | .audScountLo => (8 * s.snd.block % 2 ^ 32, s.setFld F.audScountHi_N 0 0 (8 * s.snd.block / 2 ^ 32))
  | .audBstampLo => (s.snd.bstamp % 2 ^ 32, s.setFld F.audBstampHi_T 0 0 (s.snd.bstamp / 2 ^ 32))
  | .audStat => (s.audStatWord, s)
  | .audVbus => (busy (s.gain i).busy, s)
  | .effIn => (busy (s.slot (effKey i j)).busy, s)
  | .mbCtrl => (busy (s.gain (100 + i)).busy, s)
  | .mbIn => (busy (s.slot (mixKey i j)).busy, s)
  | .outSlot => (busy (s.slot (portKey i j)).busy, s)
  | .spdSlot => (busy (s.slot (spdKey i j)).busy, s)
  | .dpaSlot => (busy (s.slot (dpaKey i j)).busy, s)
  | .vOut => (busy (s.slot (outKey i j)).busy, s)
  | .inRate => if s.portRunning (28 + i) then s.free 32 else (0, s)
  | .vStat => (w + b2n ((s.voice i).cmds.any fun c => c.op != 0) * 2 ^ 13, s)
  | .vPos => (s.vPos i, s)
  | .vLevel => ((s.voice i).env / 2 ^ 24, s)
  | .lnkRoute => (s.routeWord i, s)
  | .hstDigest => (if m = .own 0x11 ∨ m = .own 0x18 then w else 0, s)
  | _ => (w, s)

/-- A read of a register: the value, and the RC fields then cleared (R7). -/
def Chip.readReg (s : Chip) (m : Master) (id : RegId) (i j : Nat) : Nat × Chip :=
  let r := s.readWord m id i j
  (r.1, id.row.flds.foldl (fun t f => if f.acc = .rc then t.setFld f i j 0 else t) r.2)

/-! ### Refusals -/

/-- Whether the unit of a register is powered. The mailboxes' STAT is read from the always-on domain (R343). -/
def Chip.regOn (s : Chip) (id : RegId) (i : Nat) (write : Bool) : Bool :=
  if id = .mbxChStat ∧ !write then true
  else match s.regDomain id i with
    | some d => s.domOn d
    | none => true

/-- Why a unit refuses an access to its register, if it does (R13, R334). -/
def Chip.regRefuses (s : Chip) (m : Master) (id : RegId) (i : Nat) (write : Bool) : Option RespKind :=
  if !s.regOn id i write then some .domainOff
  else if id.block = .mbx then
    match m with
    | .remote _ _ _ => some .target
    | .own _ =>
      if (id = .mbxChCfg ∨ id = .mbxChStat) ∧ !s.mayReach m i then some .target else none
  else none

/-- A register access: how it ends, the data read, and the state after it. Every level that paces a DMA channel is looked
at again (R260). -/
def Chip.accessReg (s : Chip) (m : Master) (id : RegId) (i j : Nat) (write : Bool) (v : Nat) : RespKind × Nat × Chip :=
  match s.regRefuses m id i write with
  | some k => (k, 0, if k = .target ∧ (id = .mbxChCfg ∨ id = .mbxChStat) then s.deny i else s)
  | none =>
    if write then (.okay, 0, ((if id.block = .aud then s.audTake else s).writeReg m id i j (v % 2 ^ 32)).dmaLevels)
    else
      let r := s.readReg m id i j
      (.okay, r.1, r.2.dmaLevels)

/-! ### Accesses -/

/-- An access of the sizes R27 allows, aligned. -/
def natural (a n : Nat) : Bool := (n == 1 || n == 2 || n == 4 || n == 8 || n == 16) && a % n == 0

/-- Whether a local address lies in a memory range of Table 1.3. -/
def inMemory (la : Nat) : Bool := decide (la < 0x17210000)

/-- An access to a memory range performed at its store in one step (R13, R23, R27, R349). -/
def Chip.accessMem (s : Chip) (m : Master) (la n : Nat) (write : Bool) (v : Nat) (poison : Bool) : RespKind × Nat × Chip :=
  if !natural la n ∨ !inMemory la then (.decode, 0, s)
  else if write ∧ 0x16000000 ≤ la ∧ la < 0x17000000 then (.decode, 0, s)
  else if !s.storeUp la then (.domainOff, 0, s)
  else if write then (.okay, 0, s.memWrite m la n (v % 2 ^ (8 * n)) poison)
  else
    let r := s.memRead la n
    (if r.2.1 then .poison else .okay, r.1, r.2.2)

/-- An access through a debug window (R318 to R322). -/
def Chip.accessWin (s : Chip) (la n : Nat) (write : Bool) (v : Nat) : RespKind × Nat × Chip :=
  match s.winRefuses la n write with
  | some k => (k, 0, s)
  | none =>
    if write then (.okay, 0, (s.winWrite la (v % 2 ^ 32)).dmaLevels)
    else
      let r := s.winRead la
      (if r.2.1 then .poison else .okay, r.1, r.2.2)

/-- An access served locally (R23, R25, R26). -/
def Chip.perform (s : Chip) (m : Master) (la n : Nat) (write : Bool) (v : Nat) (poison : Bool) : RespKind × Nat × Chip :=
  if 0x3C000000 ≤ la then
    if n ≠ 4 ∨ la % 4 ≠ 0 then (.decode, 0, s)
    else match decodeReg la with
      | none => (.decode, 0, s)
      | some (id, i, j) =>
        if s.domOn 41 ∨ (id = .mbxChStat ∧ !write) then s.accessReg m id i j write v else (.domainOff, 0, s)
  else if !s.domOn 41 then (.domainOff, 0, s)
  else if 0x18000000 ≤ la ∧ la < 0x1A000000 then s.accessWin la n write v
  else s.accessMem m la n write v poison

/-- A response on its way to its master. -/
def Chip.answer (a : Access) (r : RespKind × Nat × Chip) : Chip := r.2.2.respond a r.1 r.2.1

/-- FABRIC_ACCESS: an access routed by its chip number (R22): performed here, broadcast, sent to the host, or carried over
the links. -/
def Chip.route (s : Chip) (a : Access) : Chip :=
  let d := a.addr / 2 ^ 30
  if d = s.chipNo then
    let la := a.addr % 2 ^ 30
    if la < 0x3C000000 ∧ s.heldByRepair la a.size then { s with held := s.held ++ [a] }
    else Chip.answer a (s.perform a.mst la a.size a.write a.data a.poison)
  else if s.on F.lnkBcast_BCEN ∧ d = s.fld F.lnkBcast_BCCHIP then s.bcastSend a
  else if s.on F.hstObcfg_OBEN ∧ d = s.fld F.hstObcfg_OBCHIP then
    s.updPcie fun p => { p with outQ := p.outQ ++ [a] }
  else s.remoteSend a

/-- An access given to the fabric: it waits in its turn behind an earlier write of its master to its page (R32, R353). -/
def Chip.submit (s : Chip) (a : Access) : Chip :=
  if (s.issueQ ++ s.held).any fun b => b.holdsBack a then { s with issueQ := s.issueQ ++ [a] } else s.route a

/-- The nth of the accesses that engines have issued is taken by the fabric, where no earlier one holds it back (R353). -/
def Chip.issueNth (s : Chip) (n : Nat) : Chip :=
  match s.issueQ[n]? with
  | none => s
  | some a =>
    if (s.issueQ.take n ++ s.held).any fun b => b.holdsBack a then s
    else { s with issueQ := s.issueQ.eraseIdx n }.route a

/-- An access of a sender that has no engine here. -/
def Chip.direct (s : Chip) (m : Master) (write : Bool) (addr size data : Nat) : Chip :=
  s.submit { mst := m, owner := .none, write := write, addr := addr, size := size, data := data, poison := false }

/-- A register of this package written by master m, with the response on its way. -/
def Chip.regWrite (s : Chip) (m : Master) (id : RegId) (i j v : Nat) : Chip :=
  s.direct m true (s.localAddr (id.addr i j)) 4 v

/-- A register of this package read by master m. -/
def Chip.regRead (s : Chip) (m : Master) (id : RegId) (i j : Nat) : Chip :=
  s.direct m false (s.localAddr (id.addr i j)) 4 0

/-! ### Responses (R348, R357) -/

/-- The store number of an error record: 31 for registers, routes and addresses that no store serves (Table 11.2). -/
def Chip.recordStore (s : Chip) (addr : Nat) : Nat :=
  if addr / 2 ^ 30 = s.chipNo then s.storeOf (addr % 2 ^ 30) else 31

/-- The error log's record of a response (R357). -/
def Chip.logResp (s : Chip) (r : Resp) : Chip :=
  if r.kind = .okay ∨ (r.kind = .poison ∧ r.write) then s
  else s.logErr r.kind.errKind r.mst (s.recordStore r.addr) r.addr

/-- Whether a response is a core's FAB read, which FAB_RESULT delivers. -/
def Resp.coreRead (r : Resp) : Bool :=
  match r.owner with
  | .core _ _ => !r.write
  | _ => false

/-- Whether a response ends in an error. -/
def Resp.failed (r : Resp) : Bool := r.kind != .okay && r.kind != .poison

end Sys2Proof.Machine
end

