-- ==== Sys2Proof/Machine/Anvil.lean ====
section
/-! DEFINITION. The Anvil cores at work (spec/09_anvil_instruction_set.md): the instruction word, issue in two passes, the
units' operations, exceptions, the fabric bridge, interrupt entry, WFI and SYNC; and the delivery of fabric responses. -/

namespace Sys2Proof.Machine

/-! ### Arithmetic (R287 to R290) -/

/-- A signed result held within 36 bits (ADDS). -/
def sat36 (x : Int) : Nat := tc 36 (clampI (-34359738368) 34359738367 x)

/-- A function applied to each of n fields of w bits. -/
def perField (w : Nat) (f : Nat → Nat → Nat) (a b : Nat) : Nat → Nat
  | 0 => 0
  | n + 1 => f (a % 2 ^ w) (b % 2 ^ w) % 2 ^ w + 2 ^ w * perField w f (a / 2 ^ w) (b / 2 ^ w) n

/-- The result of ALU trigger o (Table 9.11). -/
def aluOp (o a b : Nat) : Nat :=
  let m := 2 ^ 36
  let sa := sx 36 a
  let sb := sx 36 b
  match o with
  | 0x08 => (a + b) % m
  | 0x09 => (m - b % m + a) % m
  | 0x0A => Nat.land a b
  | 0x0B => Nat.lor a b
  | 0x0C => Nat.xor a b
  | 0x0D => Nat.land a (m - 1 - b)
  | 0x0E => if sb < sa then b else a
  | 0x0F => if sa < sb then b else a
  | 0x10 => min a b
  | 0x11 => max a b
  | 0x12 => b2n (a == b)
  | 0x13 => b2n (decide (sa < sb))
  | 0x14 => b2n (decide (a < b))
  | 0x15 => sat36 (sa + sb)
  | 0x16 => sat36 (sa - sb)
  | 0x17 => b
  | 0x18 => perField 12 (fun x y => min 4095 (x + y)) a b 3
  | 0x19 => perField 12 (fun x y => x - y) a b 3
  | 0x1A => perField 18 (fun x y => x + y) a b 2
  | _ => sat36 (if sb < 0 then -sb else sb)

/-- The results RL and RH of multiplier trigger o (Table 9.12). -/
def mulOp (o a b : Nat) : Nat × Nat :=
  let m := 2 ^ 36
  match o with
  | 0x08 => let p := tc 72 (sx 36 a * sx 36 b); (p % m, p / m)
  | 0x09 => (a * b % m, a * b / m)
  | 0x0A => (sat36 (rnd (sx 36 a * sx 36 b) (2 ^ 18)), 0)
  | _ => (perField 12 (fun f _ => (rnd (f * (a % 4096) : Nat) 4095).toNat) b 0 3, 0)

/-- The bits of B that are 1. -/
def popCount (b : Nat) : Nat → Nat
  | 0 => 0
  | n + 1 => b % 2 + popCount (b / 2) n

/-- The result of shifter trigger o (Table 9.13). -/
def shfOp (o a b : Nat) : Nat :=
  let m := 2 ^ 36
  let s := b % 64
  let p := b / 64 % 64
  match o with
  | 0x08 => if 36 ≤ s then 0 else a * 2 ^ s % m
  | 0x09 => a / 2 ^ s
  | 0x0A => tc 36 (sx 36 a / (2 ^ min s 36 : Nat))
  | 0x0B => let r := s % 36; a / 2 ^ r + a % 2 ^ r * 2 ^ (36 - r)
  | 0x0C => a / 2 ^ p % 2 ^ s
  | 0x0D => if s = 0 then 0 else tc 36 (sx s (a / 2 ^ p % 2 ^ s))
  | 0x0E => if b % m = 0 then 36 else 35 - Nat.log2 (b % m)
  | _ => popCount b 36

/-- Whether compare trigger o of BR takes its branch (Table 9.16). -/
def branchOn (o a b : Nat) : Bool :=
  match o with
  | 0x0A => a == b
  | 0x0B => a != b
  | 0x0C => decide (sx 36 a < sx 36 b)
  | 0x0D => decide (sx 36 b ≤ sx 36 a)
  | 0x0E => decide (a < b)
  | 0x0F => decide (b ≤ a)
  | _ => true

/-! ### The instruction word (R270 to R272, R283) -/

/-- One move: its slot, destination, source port or immediate, and modifier. -/
structure Move where
  slot : Nat
  dst : Nat
  src : Option Nat
  imm : Nat
  mod : Nat
deriving DecidableEq, Repr

/-- Slot j of an instruction (Table 9.1). -/
def slotBits (w j : Nat) : Nat := w / 2 ^ (108 - 36 * j) % 2 ^ 36

/-- The move of slot j (Table 9.2, R272). -/
def moveOf (w j : Nat) : Move :=
  let x := slotBits w j
  if bit x 23 then ⟨j, bits x 35 24, none, tc 36 (sx 23 (x % 2 ^ 23)), 0⟩
  else ⟨j, bits x 35 24, some (bits x 22 11), 0, bits x 10 0⟩

/-- Whether slot j holds a move to LIMM.H. -/
def isLimm (w j : Nat) : Bool := slotBits w j != 0 && bits (slotBits w j) 35 24 == 0x1BE

/-- Whether the move to LIMM.H in slot j begins a long immediate (R283). -/
def limmGood (w j : Nat) : Bool :=
  isLimm w j && decide (j < 3) && bit (slotBits w j) 23 && bits (slotBits w j) 22 13 == 0
  && !(decide (0 < j) && isLimm w (j - 1)) && bit (slotBits w (j + 1)) 23

/-- The long immediate that slot j begins. -/
def limmValue (w j : Nat) : Nat := slotBits w j % 2 ^ 13 * 2 ^ 23 + slotBits w (j + 1) % 2 ^ 23

/-- What becomes of a move as it is encoded (R281 to R283, R291): performed; discarded without an exception; discarded with
exception 0 or 2; or the first half of a long immediate. -/
inductive Fate where
  | keep
  | quiet
  | illegal
  | badMod
  | limm
deriving DecidableEq, Repr

/-- Whether a port can be read as a source. -/
def readable (p : Nat) : Bool := portAcc p == .rw || portAcc p == .ro || portAcc p == .mix

/-- The fate of the move in one slot of instruction w. -/
def Move.fate (m : Move) (w : Nat) : Fate :=
  if m.dst = 0x1BE then (if limmGood w m.slot then .limm else .badMod)
  else if m.dst = 0x1B0 then .quiet
  else if portAcc m.dst = .ro ∨ portAcc m.dst = .none then .illegal
  else if m.src.any fun p => !readable p then .illegal
  else if (m.dst = 0xC8 ∨ m.dst = 0xC9 ∨ m.dst = 0xE8 ∨ m.dst = 0xE9) ∧ m.mod / 512 = 3 then .badMod
  else if 0x130 ≤ m.dst ∧ m.dst ≤ 0x133 ∧ m.mod / 2 ≠ 0 then .badMod
  else .keep

/-- The moves of an instruction, slot 0 first; a slot of zeros holds none. -/
def movesOf (w : Nat) : List Move := ((List.range 4).filter fun j => slotBits w j != 0).map (moveOf w)

/-- The moves that are performed. -/
def keptOf (w : Nat) : List Move := (movesOf w).filter fun m => m.fate w == .keep

/-- The source ports that an instruction reads, each once (R274, R281). -/
def sourcesOf (w : Nat) : List Nat :=
  (movesOf w).foldl (fun l m => match m.src with
    | some p => if readable p && !l.contains p then l ++ [p] else l
    | none => l) []

/-! ### Exceptions (R284 to R286) -/

/-- Exception e of core k, carried by a move at address pc. -/
def Chip.anvilExc (s : Chip) (k e pc slot port : Nat) : Chip :=
  let x := s.port k 0x186
  let t := if bit x 31 then s.setPort k 0x186 (Nat.lor x (2 ^ 30))
    else (s.setPort k 0x185 pc).setPort k 0x186 (2 ^ 31 + e * 2 ^ 24 + slot * 2 ^ 20 + port % 4096)
  t.raiseSource (1 + 8 * k + e)

/-! ### Waiting (R274, R278, R297, R299, R309) -/

/-- Whether a port's value is not yet ready. -/
def Chip.portBusy (s : Chip) (k p : Nat) : Bool :=
  let x := s.core k
  if 0x126 ≤ p ∧ p ≤ 0x12A then
    x.fab.any fun o => !o.write && decide ((if o.wide then x.fabDoneW else x.fabDone) ≤ o.n)
  else decide (0x150 ≤ p ∧ p ≤ 0x160) && !x.msgs.isEmpty

/-- Whether the fabric bridge takes no further trigger of the kind of port p. -/
def Chip.fabFull (s : Chip) (k p : Nat) : Bool :=
  let l := (s.core k).fab
  if p = 0x130 ∨ p = 0x132 then decide (4 ≤ (l.filter fun o => !o.write).length)
  else if p = 0x131 ∨ p = 0x133 then decide (8 ≤ (l.filter fun o => o.write).length)
  else false

/-- The trigger that the fabric bridge takes in an instruction: the first of its triggers (R276). -/
def fabTrigger (w : Nat) : Option Nat := ((keptOf w).find? fun m => triggerUnit m.dst == some 7).map fun m => m.dst

/-- Whether an instruction waits for a result or a unit. -/
def Chip.unitWaits (s : Chip) (k w : Nat) : Bool :=
  (sourcesOf w).any (s.portBusy k) || (fabTrigger w).any (s.fabFull k)

/-- Whether a pop of sequencer port p finds nothing, and whether n pushes to one find no room. -/
def Chip.popWaits (s : Chip) (p : Nat) : Bool := decide (0x7C0 ≤ p) && s.accelOn p && (s.psq (p - 0x7C0)).rx.isEmpty
def Chip.pushWaits (s : Chip) (p n : Nat) : Bool :=
  decide (0x780 ≤ p ∧ p < 0x7C0) && s.accelOn p && decide (8 < (s.psq (p - 0x780)).tx.length + n)

/-- Whether an instruction waits on a sequencer FIFO (R309). -/
def Chip.fifoWaits (s : Chip) (k w : Nat) : Bool :=
  let _ := k
  (sourcesOf w).any s.popWaits ||
    (keptOf w).any fun m => s.pushWaits m.dst ((keptOf w).filter fun x => x.dst == m.dst).length

/-! ### Issue (R274 to R276) -/

/-- The values of the sources, all read together at issue: a read's effect changes no other source. -/
def Chip.readSources (s0 : Chip) (k : Nat) : List Nat → Chip → List (Nat × Nat) × Chip
  | [], t => ([], t)
  | p :: rest, t =>
    let r := if p = 0x180 ∨ p = 0x186 ∨ p = 0x1B2 ∨ 0x7C0 ≤ p then t.portRead k p else ((s0.portVal k p).1, t)
    let q := s0.readSources k rest r.2
    ((p, r.1) :: q.1, q.2)

/-- The value a move carries (R272, R283). -/
def Move.value (m : Move) (w : Nat) (vals : List (Nat × Nat)) : Nat :=
  if 0 < m.slot ∧ limmGood w (m.slot - 1) then limmValue w (m.slot - 1)
  else match m.src with
    | some p => NStore.get 0 vals p
    | none => m.imm

/-- The first pass over one move: exceptions of discarded moves, long immediates, and the ports that are no triggers. -/
def Chip.passOne (s : Chip) (k w pc : Nat) (vals : List (Nat × Nat)) (timed : Bool) (m : Move) : Chip :=
  match m.fate w with
  | .quiet => s
  | .illegal => s.anvilExc k 0 pc m.slot m.dst
  | .badMod => s.anvilExc k 2 pc m.slot m.dst
  | .limm => s.setPort k 0x1BF (limmValue w m.slot)
  | .keep =>
    if (triggerUnit m.dst).isSome then s
    else if timed && s.pushWaits m.dst 1 then s.anvilExc k 6 pc m.slot m.dst
    else s.portSet k m.dst (m.value w vals)

/-- What the second pass keeps as it goes: the state, the units used, the branch target, and whether WFI was triggered. -/
structure Firing where
  s : Chip
  used : List Nat := []
  target : Option Nat := none
  wfi : Bool := false

/-- Load and store (R291, R292): loads see the memory s0 as it was before the instruction. -/
def Chip.fireLsu (s s0 : Chip) (k pc : Nat) (m : Move) (b : Nat) : Chip :=
  let u := m.dst / 32 * 32
  let mode := m.mod / 512
  let step := m.mod % 128
  let base := if mode = 2 then (2 ^ 36 - step + s.port k u) % 2 ^ 36 else s.port k u
  let ld := m.dst % 32 == 8
  let idx := if ld then b else s.port k (u + 1)
  let e := (base + idx * 2 ^ (m.mod / 128 % 4)) % 2 ^ 18
  let after := if mode = 1 then (base + step) % 2 ^ 36 else base
  let t := s.setPort k u after
  if ld then
    let bad := Store.get? (dmemAddr k e) s0.marks
    let t := (t.checkUnit (dmemAddr k e)).2
    if bad = some .uncorrectable ∨ bad = some .poison then (t.setPort k (u + 2) 0).anvilExc k 5 pc m.slot m.dst
    else t.setPort k (u + 2) (s0.dmemWord k e)
  else t.putDmem k e b

/-- A fabric bridge trigger (R296 to R298, Table 9.8). -/
def Chip.fireFab (s : Chip) (k pc : Nat) (m : Move) (b : Nat) : Chip :=
  if m.dst = 0x134 then s.updCore k fun x => { x with sync := true }
  else
    let wide := decide (0x132 ≤ m.dst)
    let write := m.dst % 2 == 1
    let size := if wide then 16 else 4
    let a := (s.port k 0x120 + (if m.dst = 0x131 then 0 else b)) % 2 ^ 30
    let t := if m.mod % 2 = 1 then s.setPort k 0x120 ((s.port k 0x120 + size) % 2 ^ 36) else s
    let n := (s.core k).nextFab
    if a % size ≠ 0 then
      let t := t.anvilExc k 3 pc m.slot m.dst
      if write then t
      else
        let t := t.updCore k fun x => { x with nextFab := n + 1, fabDone := if wide then x.fabDone else n + 1,
                                               fabDoneW := if wide then n + 1 else x.fabDoneW }
        if wide then (List.range 4).foldl (fun t i => t.setPort k (0x127 + i) 0) t else t.setPort k 0x126 0
    else
      let data := if !write then 0 else if wide then
          (List.range 4).foldl (fun v i => v + s.port k (0x122 + i) * 2 ^ (32 * i)) 0
        else b % 2 ^ 32
      let acc : Access := { mst := .own k, owner := .core k n, write := write, addr := s.fabChip k * 2 ^ 30 + a, size := size,
                            data := data, poison := false }
      let t := t.updCore k fun x => { x with nextFab := n + 1, fab := x.fab ++ [⟨n, write, wide, pc, m.slot, m.dst⟩] }
      { t with issueQ := t.issueQ ++ [acc] }

/-- The target of a taken branch with trigger value b (R293, R294). -/
def branchTarget (pc : Nat) (m : Move) (dflt : Nat) : Nat :=
  if m.src.isSome ∧ m.mod ≠ 0 then (pc + 16384 + m.mod + (if 1024 ≤ m.mod then 16384 - 2048 else 0)) % 16384 else dflt % 16384

/-- A BR trigger or RETI (R293 to R295, R304). -/
def Chip.fireBr (s : Chip) (k pc : Nat) (m : Move) (b : Nat) : Chip × Option Nat :=
  if m.dst = 0x189 then (s.setPort k 0x182 1, some (branchTarget pc m b))
  else if m.dst = 0x108 then (s, some (branchTarget pc m b))
  else if m.dst = 0x109 then (s.setPort k 0x102 ((pc + 1) % 16384), some (branchTarget pc m b))
  else if branchOn (m.dst - 0x100) (s.port k 0x100) b then (s, some (branchTarget pc m (s.port k 0x101)))
  else (s, none)

/-- The second pass over one move (R275 to R277). -/
def Firing.fire (f : Firing) (s0 : Chip) (k w pc : Nat) (vals : List (Nat × Nat)) (m : Move) : Firing :=
  match triggerUnit m.dst with
  | none => f
  | some u =>
    if m.fate w ≠ .keep then f
    else if f.used.contains u then { f with s := f.s.anvilExc k 1 pc m.slot m.dst }
    else
      let b := m.value w vals
      let g := { f with used := u :: f.used }
      let base := m.dst / 32 * 32
      match u with
      | 0 | 1 => { g with s := g.s.setPort k (base + 1) (aluOp (m.dst - base) (g.s.port k base) b) }
      | 2 => let r := mulOp (m.dst - base) (g.s.port k base) b
             { g with s := (g.s.setPort k (base + 1) r.1).setPort k (base + 2) r.2 }
      | 3 => { g with s := g.s.setPort k (base + 1) (shfOp (m.dst - base) (g.s.port k base) b) }
      | 4 | 5 => { g with s := g.s.fireLsu s0 k pc m b }
      | 6 => let r := g.s.fireBr k pc m b
             { g with s := r.1, target := r.2 }
      | 7 => { g with s := g.s.fireFab k pc m b }
      | 8 => { g with s := g.s.msgTrigger k (m.dst == 0x169) (b % 512) }
      | _ => { g with wfi := true }

/-- The core has issued an instruction: the next address, and the end of a step, a halt that was waiting, or WFI
(R295, R303, R314, R316). -/
def Chip.issued (s : Chip) (k next : Nat) (wfi : Bool) : Chip :=
  let x := s.core k
  let t := (s.setFld F.coreStat_PC k 0 next).updCore k fun x =>
    { x with blocked := none, brkHeld := false, stepping := false, haltPend := false, issuedAt := s.now }
  if x.stepping then t.setFld F.coreStat_STEP_DONE k 0 1
  else if x.haltPend then t.setCoreState k 1
  else if wfi && !t.reqLine k then t.enterWaiting k
  else t

/-- A whole instruction w issued at address pc; `timed` says that its FIFO wait has run out (R309). -/
def Chip.issueNow (s : Chip) (k pc w : Nat) (timed : Bool) : Chip :=
  let r := s.readSources k (sourcesOf w) s
  let late := if timed then (movesOf w).filter fun m => m.src.any s.popWaits else []
  let t := late.foldl (fun t m => t.anvilExc k 6 pc m.slot m.dst) r.2
  let t := (movesOf w).foldl (fun t m => t.passOne k w pc r.1 timed m) t
  let f := (movesOf w).foldl (fun f m => f.fire s k w pc r.1 m) ({ s := t } : Firing)
  f.s.issued k (f.target.getD ((pc + 1) % 16384)) f.wfi

/-- An instruction that is poisoned performs none of its moves; the slot and port of its record are open
(R285, Table 9.9). -/
def Chip.issuePoisoned (s : Chip) (k pc : Nat) : Chip :=
  let a := s.free 2
  let b := a.2.free 12
  (b.2.anvilExc k 5 pc a.1 b.1).issued k ((pc + 1) % 16384) false

/-- Whether core k may issue: it runs, or a STEP is to be taken, in a powered domain, and no SYNC holds it. -/
def Chip.mayIssue (s : Chip) (k : Nat) : Bool :=
  let x := s.core k
  (s.coreState k == 2 || (s.coreState k == 1 && x.stepping)) && !x.sync && s.domOn (s.physOf 0 k)

/-- Whether an interrupt is to be taken at the boundary before the next instruction (R301, R314). -/
def Chip.irqDue (s : Chip) (k : Nat) : Bool :=
  let x := s.core k
  s.coreState k == 2 && x.blocked.isNone && s.reqLine k && s.port k 0x182 == 1

/-- INSTRUCTION_ISSUE of core k: an instruction issues whole, waits, or is not yet to be issued (R274, R301, R315). -/
def Chip.issue (s : Chip) (k : Nat) : Chip :=
  let x := s.core k
  let pc := s.fld F.coreStat_PC k
  if !s.mayIssue k || s.irqDue k then s
  else if s.on F.coreBrk_EN k && s.fld F.coreBrk_ADDR k == pc && !x.brkHeld && !x.stepping && x.blocked.isNone then
    ((s.updCore k fun x => { x with brkHeld := true }).setFld F.coreStat_HALT_BRK k 0 1).setCoreState k 1
  else
    let c := s.checkUnit (imemAddr k pc)
    let w := s.imemWord k pc
    if c.1 then c.2.issuePoisoned k pc
    else if s.unitWaits k w || s.fifoWaits k w then
      c.2.updCore k fun x => { x with blocked := some (x.blocked.getD s.now) }
    else c.2.issueNow k pc w false

/-- Whether every sequencer FIFO that instruction w waits for has had no word, or no room, for 4,096 tk (R309). -/
def Chip.fifoStuck (s : Chip) (w : Nat) : Bool :=
  ((sourcesOf w).filter s.popWaits).all (fun p => decide (4096 ≤ sub64 s.now (s.psq (p % 64)).rxAt)) &&
    (keptOf w).all fun m => !s.pushWaits m.dst ((keptOf w).filter fun x => x.dst == m.dst).length ||
      decide (4096 ≤ sub64 s.now (s.psq (m.dst % 64)).txAt)

/-- ACC_TIMEOUT: an instruction has waited for 4,096 tk without space or data in a sequencer FIFO (R309). -/
def Chip.accTimeout (s : Chip) (k : Nat) : Chip :=
  let pc := s.fld F.coreStat_PC k
  let w := s.imemWord k pc
  match (s.core k).blocked with
  | none => s
  | some t0 =>
    if s.mayIssue k && !s.unitWaits k w && s.fifoWaits k w && s.fifoStuck w && decide (4096 ≤ sub64 s.now t0) then
      s.issueNow k pc w true
    else s

/-- INTERRUPT_ENTRY of core k (R301). -/
def Chip.irqEntry (s : Chip) (k : Nat) : Chip :=
  if s.irqDue k then
    let t := (s.setPort k 0x183 (s.fld F.coreStat_PC k)).setPort k 0x182 0
    (t.setFld F.coreStat_PC k 0 (t.port k 0x184)).updCore k fun x => { x with brkHeld := false }
  else s

/-- WFI_END of core k: its request line is 1 (R303). -/
def Chip.wfiEnd (s : Chip) (k : Nat) : Chip :=
  if s.coreState k = 3 ∧ s.reqLine k then (s.setCoreState k 2).irqEntry k else s

/-- SYNC_COMPLETE of core k: its writes have their responses (R298). -/
def Chip.syncComplete (s : Chip) (k : Nat) : Chip :=
  if (s.core k).sync && !(s.core k).fab.any fun o => o.write then s.updCore k fun x => { x with sync := false } else s

/-! ### Responses -/

/-- FAB access n of core k has had its response: its entry goes, and a failure raises its exception (Table 9.8). -/
def Chip.fabDone (s : Chip) (k n : Nat) (r : Resp) : Chip :=
  match (s.core k).fab.find? fun o => o.n == n with
  | none => s
  | some o =>
    let t := s.updCore k fun x => { x with fab := x.fab.filter fun o => o.n != n }
    let t := if r.failed then t.anvilExc k 4 o.pc o.slot o.port
      else if r.kind = .poison ∧ !o.write then
        (t.logErr 2 (.own k) (t.recordStore r.addr) r.addr).anvilExc k 5 o.pc o.slot o.port
      else t
    if o.write then t
    else
      let v := if r.kind = .okay then r.data else 0
      if o.wide then
        if n < (t.core k).fabDoneW then t
        else (List.range 4).foldl (fun t i => t.setPort k (0x127 + i) (v / 2 ^ (32 * i) % 2 ^ 32))
          (t.updCore k fun x => { x with fabDoneW := n + 1 })
      else if n < (t.core k).fabDone then t
      else (t.updCore k fun x => { x with fabDone := n + 1 }).setPort k 0x126 (v % 2 ^ 32)

/-- The first response of a list that meets a condition, with the others. -/
def takeResp (p : Resp → Bool) : List Resp → Option (Resp × List Resp)
  | [] => none
  | r :: t => if p r then some (r, t) else (takeResp p t).map fun q => (q.1, r :: q.2)

/-- FAB_RESULT of core k: its oldest read response arrives (R297). -/
def Chip.fabResult (s : Chip) (k : Nat) : Chip :=
  match takeResp (fun r => r.mst == .own k && r.coreRead) s.resps with
  | none => s
  | some (r, rest) =>
    let t := ({ s with resps := rest }).logResp r
    match r.owner with
    | .core k' n => t.fabDone k' n r
    | _ => t

/-- A tee write's response: an error sets TEE_ERR, and the frame is not whole (R132, R133). -/
def Chip.teeResp (s : Chip) (h f : Nat) (r : Resp) : Chip :=
  let t := s.updComp h fun c => { c with teeOut := NStore.put0 c.teeOut f (NStore.get 0 c.teeOut f - 1) }
  if r.failed then
    ((t.cpsStat F.cpsStat_TEE_ERR h).updFrm h f fun x => { x with teeWhole := false }).updComp h
      fun c => { c with teeFin := c.teeFin.filter fun x => x.frame != f }
  else t

/-- The completion of a host read; writes are posted (Table 11.3). -/
def Chip.hostResp (s : Chip) (f : Nat) (r : Resp) : Chip :=
  if r.write then s
  else
    let st := match r.kind with
      | .okay | .poison => 0
      | .decode => 1
      | _ => 2
    s.updPcie fun p => { p with sent := p.sent ++ [.cpl f st (if st = 0 then r.data else 0) (r.kind == .poison)] }

/-- The result of an SMBus access (Table 15.12). -/
def Chip.smbResp (s : Chip) (r : Resp) : Chip :=
  let st := match r.kind with
    | .okay => 0
    | .decode => 1
    | .poison => 4
    | _ => 2
  if r.write then { s with smb := { s.smb with wrStat := st } }
  else { s with smb := { s.smb with rdStat := st, rdVal := if r.failed then 0 else r.data } }

/-- ACCESS_RESPONSE to master m: the oldest response on its way to it, but for a core's reads, is delivered: the error log
takes its record, and the engine that waits for it goes on (R348, R356, R357). -/
def Chip.accessResponse (s : Chip) (m : Master) : Chip :=
  match takeResp (fun r => r.mst == m && !r.coreRead) s.resps with
  | none => s
  | some (r, rest) =>
    let t := ({ s with resps := rest }).logResp r
    match r.owner with
    | .none | .teeFence => t
    | .dmaRead c sq => t.dmaReadResp c sq r.kind r.data
    | .dmaWrite c sq => t.dmaWriteResp c sq r.kind
    | .core k n => t.fabDone k n r
    | .blit row => t.bltRespond row r.write r.failed
    | .tee h f => t.teeResp h f r
    | .link job _ => t.jobResp job r.kind r.addr r.data
    | .bcast tag => t.reqResp tag r.kind r.data
    | .host f => t.hostResp f r
    | .smb => t.smbResp r

end Sys2Proof.Machine
end

