-- ==== Sys2Proof/Machine/Host.lean ====
section
/-! DEFINITION. The host link: configuration space, requests through the BARs, the footing page, outbound windows, MSI-X,
and the SMBus target (spec/15_keystone_start.md, R477 to R484; spec/16_power_assay_spares.md, R496). -/

namespace Sys2Proof.Machine

/-- What goes to the host: one more item, after all before it. -/
def Chip.toHost (s : Chip) (o : HostOut) : Chip := s.updPcie fun p => { p with sent := p.sent ++ [o] }

/-- A completion for function f: status, data, EP. -/
def Chip.complete (s : Chip) (f status data : Nat) : Chip := s.toHost (.cpl f status data false)

/-- The master identity of function f (Table 15.10). -/
def hostId (f : Nat) : Master := .own (0x10 + f)

/-! ### Configuration space (R479, R481) -/

/-- Whether the function still answers Configuration Request Retry Status. -/
def Chip.cfgRetry (s : Chip) : Bool := !s.boot.checked && s.fld F.sysBoot_STATE != 5

/-- The size of a BAR, by function and BAR dword pair (Table 15.10). -/
def barSize (f b : Nat) : Nat :=
  if b = 0 then 2 ^ 26 else if b = 1 then (if f = 0 then 2 ^ 30 else 2 ^ 12) else 2 ^ 16

/-- The type bits of a BAR: 64-bit, and prefetchable for BAR2 of function 0. -/
def barType (f b : Nat) : Nat := if f = 0 ∧ b = 1 then 0xC else 0x4

/-- A configuration register as it reads (Table 15.9; the places of PCI Express are PRESUMED, notes/assumptions/41.md). -/
def Chip.cfgRead (s : Chip) (f : Nat) (r : CfgReg) : Nat × Chip :=
  match r with
  | .id => ((0x6816 + f) * 2 ^ 16 + 0x1E7B, s)
  | .command => (NStore.get 0 s.pcie.cmd f, s)
  | .classRev => ((if f = 0 then 0x048000 else 0x088000) * 256 + 0xA1, s)
  | .bar n =>
    let d := NStore.get 0 s.pcie.bars (f * 8 + n.toNat)
    (if n.toNat < 6 then (if n.toNat % 2 = 0 then d + barType f (n.toNat / 2) else d) else 0, s)
  | .subsys => (s.boot.subsys, s)
  | .power => (NStore.get 0 s.pcie.dstate f, s)
  | .msix => (63 + NStore.get 0 s.pcie.msixEn f * 2 ^ 15, s)
  | .other => s.free 32

/-- A configuration register written: the command register keeps Memory Space Enable and Bus Master Enable; a BAR keeps
the address bits above its size; the power state D0 or D3hot; the MSI-X enable. -/
def Chip.cfgWrite (s : Chip) (f : Nat) (r : CfgReg) (v : Nat) : Chip :=
  match r with
  | .command =>
    let t := s.updPcie fun p => { p with cmd := NStore.put0 p.cmd f (Nat.land v 6) }
    { t with busMaster := if bit v 2 then (t.busMaster ++ [f]).eraseDups else t.busMaster.filter fun x => x != f }
  | .bar n =>
    if n.toNat < 6 then
      let keep := if n.toNat % 2 = 0 then v % 2 ^ 32 / barSize f (n.toNat / 2) * barSize f (n.toNat / 2) else v % 2 ^ 32
      s.updPcie fun p => { p with bars := NStore.put0 p.bars (f * 8 + n.toNat) keep }
    else s
  | .power =>
    if v % 4 = 0 ∨ v % 4 = 3 then s.updPcie fun p => { p with dstate := NStore.put0 p.dstate f (v % 4) } else s
  | .msix =>
    let t := s.updPcie fun p => { p with msixEn := NStore.put0 p.msixEn f (b2n (bit v 15)) }
    (List.range 64).foldl (fun t k => t.flushVector f k) t
  | _ => s

/-- CONFIGURATION_REQUEST to function f. -/
def Chip.cfgRequest (s : Chip) (f : Nat) (r : CfgReg) (write : Bool) (v : Nat) : Chip :=
  if !s.pcie.up then s
  else if s.cfgRetry then s.complete f 3 0
  else if write then (s.cfgWrite f r v).complete f 0 0
  else (s.cfgRead f r).2.complete f 0 (s.cfgRead f r).1

/-- The link goes down or comes back; it needs its controller powered (R528). -/
def Chip.pcieLink (s : Chip) (up : Bool) : Chip := s.updPcie fun p => { p with up := up && s.domOn 64 }

/-! ### The MSI-X table (R482) -/

/-- One 4-byte word of BAR4 as it reads: the table, or the pending bits; elsewhere a value the spec does not state. -/
def Chip.msixRead (s : Chip) (f off : Nat) : Nat × Chip :=
  if off % 4 ≠ 0 then s.free 32
  else if off < 0x400 then (NStore.get (if off % 16 = 12 then 1 else 0) s.pcie.table (f * 256 + off / 4), s)
  else if off = 0x8000 ∨ off = 0x8004 then
    ((List.range 32).foldl (fun w i => w + b2n (s.pcie.pend.contains (f * 64 + 8 * (off - 0x8000) + i)) * 2 ^ i) 0, s)
  else s.free 32

/-- One word of the table written; a vector unmasked by it is sent where its pending bit is set. -/
def Chip.msixWrite (s : Chip) (f off v : Nat) : Chip :=
  if off % 4 = 0 ∧ off < 0x400 then
    (s.updPcie fun p => { p with table := NStore.set p.table (f * 256 + off / 4) (v % 2 ^ 32) }).flushVector f (off / 16)
  else s

/-- VECTOR_UNMASK: the mask bit of vector v of function f cleared. -/
def Chip.vectorUnmask (s : Chip) (f v : Nat) : Chip :=
  let w := (s.msixRead f (16 * v + 12)).1
  s.msixWrite f (16 * v + 12) (w / 2 * 2)

/-! ### The footing page (R477, R480, Table 15.10) -/

/-- The local address that an offset of the footing page stands for. -/
def footingAddr (off : Nat) : Option Nat :=
  if off ≤ 0x2C then some (0x3C000000 + off)
  else if off = 0x100 ∨ off = 0x104 then some (0x3F000000 + (off - 0x100))
  else if 0x140 ≤ off ∧ off ≤ 0x15C then some (0x3F000040 + (off - 0x140))
  else if (0x800 ≤ off ∧ off ≤ 0x808) ∨ (0x900 ≤ off ∧ off ≤ 0x9FC) then some (0x3F000000 + off)
  else none

/-- Whether the footing page holds a local address. -/
def footingHolds (la : Nat) : Bool :=
  decide ((0x3C000000 ≤ la ∧ la ≤ 0x3C00002C) ∨ la = 0x3F000000 ∨ la = 0x3F000004 ∨ (0x3F000040 ≤ la ∧ la ≤ 0x3F00005C) ∨
    (0x3F000800 ≤ la ∧ la ≤ 0x3F000808) ∨ (0x3F000900 ≤ la ∧ la ≤ 0x3F0009FC))

/-- A reset begun through the footing page also records FOOT (Table 15.6; DEDUCED, notes/assumptions/42.md). -/
def Chip.footMark (s : Chip) (la v : Nat) : Chip :=
  if la = 0x3C000004 ∧ bits v 31 16 = 0x7E51 ∧ (bits v 1 0 = 1 ∨ bits v 1 0 = 2) then s.setFld F.sysRstcause_FOOT 0 0 1 else s

/-- A register of the always-on blocks reached without the fabric: how it ends, the value read, and the state. -/
def Chip.accessAon (s : Chip) (m : Master) (la : Nat) (write : Bool) (v : Nat) : RespKind × Nat × Chip :=
  match decodeReg la with
  | none => (.decode, 0, s)
  | some (id, i, j) => s.accessReg m id i j write v

/-- A request to the footing page of function 1. -/
def Chip.footingPage (s : Chip) (write : Bool) (off size v : Nat) : Chip :=
  if size ≠ 4 ∨ off % 4 ≠ 0 then (if write then s else s.complete 1 1 0)
  else match footingAddr off with
    | none => if write then s else s.complete 1 1 0
    | some la =>
      let r := s.accessAon (hostId 1) la write v
      if write then r.2.2.footMark la v
      else if r.1 = .okay then r.2.2.complete 1 0 r.2.1
      else r.2.2.complete 1 (if r.1 = .decode then 1 else 2) 0

/-! ### Requests through a BAR (R473, R480, R481, R496) -/

/-- The greatest naturally aligned size, at most 16 and at most n, at address a (R27). -/
def pieceSize (a n : Nat) : Nat :=
  if a % 16 = 0 ∧ 16 ≤ n then 16 else if a % 8 = 0 ∧ 8 ≤ n then 8 else if a % 4 = 0 ∧ 4 ≤ n then 4
  else if a % 2 = 0 ∧ 2 ≤ n then 2 else 1

/-- A burst carried as naturally aligned accesses in ascending address order (R27). -/
def pieces (mk : Nat → Nat → Nat → Access) (a n v : Nat) : Nat → List Access
  | 0 => []
  | k + 1 =>
    if n = 0 then []
    else
      let z := pieceSize a n
      mk a z (v % 2 ^ (8 * z)) :: pieces mk (a + z) (n - z) (v / 2 ^ (8 * z)) k

/-- The fabric accesses of a host request: itself, or its parts where it is longer than 16 bytes. -/
def hostAccesses (f : Nat) (write : Bool) (addr size v : Nat) : List Access :=
  let mk := fun a z d =>
    ({ mst := hostId f, owner := .host f, write := write, addr := a, size := z, data := d, poison := false } : Access)
  if 16 < size then pieces mk addr size v size else [mk addr size v]

/-- Whether a local address lies in a register block. -/
def inBlock (la : Nat) (b : Block) : Bool := Block.of la == some b

/-- A BAR0 register access served without the fabric. -/
def Chip.barAon (s : Chip) (f : Nat) (write : Bool) (la v : Nat) : Chip :=
  let r := s.accessAon (hostId f) la write v
  r.2.2.respond { mst := hostId f, owner := .host f, write := write, addr := r.2.2.localAddr la, size := 4, data := v, poison := false }
    r.1 r.2.1

/-- A request to a BAR0 or BAR2 window of the fabric, at a fabric address: in S3 and S4 only PSM_ and HST_LTOL are answered
and every other request is counted; before step 9 and in hold only SYS_ and HST_ are. -/
def Chip.barWindow (s : Chip) (f bar : Nat) (write : Bool) (addr size v : Nat) : Chip :=
  let la := addr % 2 ^ 30
  let aligned := decide (size = 4 ∧ la % 4 = 0)
  if 3 ≤ s.fld F.psmStat_STATE then
    if bar = 0 ∧ aligned ∧ (inBlock la .psm || la == RegId.addr .hstLtol 0 0) then s.barAon f write la v
    else
      let t := s.bump F.psmOffcnt_COUNT F.psmOffcnt_SAT
      if write then t else t.complete f 2 0
  else if s.fld F.sysBoot_STATE ≠ 4 then
    if bar = 0 ∧ aligned ∧ (inBlock la .sys || inBlock la .hst) then s.barAon f write la v
    else s.respond { mst := hostId f, owner := .host f, write := write, addr := addr, size := size, data := v, poison := false } .target 0
  else (hostAccesses f write addr size v).foldl (fun t a => t.submit a) s

/-- BAR_REQUEST: a read or write of `size` bytes at an offset of BAR0 (0), BAR2 (1) or BAR4 (2) of function f. -/
def Chip.barRequest (s : Chip) (f bar : Nat) (write : Bool) (off size v : Nat) : Chip :=
  if !s.pcie.up then s
  else if bar = 2 then
    if write then s.msixWrite f (off % 2 ^ 16) v
    else (s.msixRead f (off % 2 ^ 16)).2.complete f 0 (s.msixRead f (off % 2 ^ 16)).1
  else if bar = 1 ∧ f = 1 then s.footingPage write (off % 2 ^ 12) size v
  else if bar = 1 then s.barWindow f 1 write (s.fld F.hstWinchip_CHIP * 2 ^ 30 + off % 2 ^ 30) size v
  else s.barWindow f 0 write (s.localAddr (0x3C000000 + off % 2 ^ 26)) size v

/-! ### Outbound accesses (R483) -/

/-- The host address of an outbound access, where its window is in use and function 0 may master the bus. -/
def Chip.hostAddr (s : Chip) (a : Access) : Option Nat :=
  let w := a.addr % 2 ^ 30 / 2 ^ 24
  if s.on F.hstObwinLo_EN w ∧ s.busMaster.contains 0 then
    some (s.fld F.hstObwinHi_ADDR w * 2 ^ 32 + s.fld F.hstObwinLo_ADDR w * 2 ^ 24 + a.addr % 2 ^ 24)
  else none

/-- The oldest outbound access goes out: a write is posted and complete, a read waits for the host. With the link down a
write has no host to reach and ends with TARGET. -/
def Chip.outboundSend (s : Chip) : Chip :=
  match s.pcie.outQ with
  | [] => s
  | a :: rest =>
    let t := s.updPcie fun p => { p with outQ := rest }
    match s.hostAddr a with
    | none => t.respond a .target 0
    | some h =>
      if a.write then
        if s.pcie.up then (t.toHost (.write h a.size a.data)).respond a .okay 0 else t.respond a .target 0
      else (t.toHost (.read h a.size)).updPcie fun p => { p with reads := p.reads ++ [⟨a, s.now⟩] }

/-- The host answers the nth read that waits: with data, or with Unsupported Request or Completer Abort. -/
def Chip.outboundAnswer (s : Chip) (n : Nat) (ok : Bool) (data : Nat) : Chip :=
  match s.pcie.reads[n]? with
  | none => s
  | some r =>
    let t := s.updPcie fun p => { p with reads := p.reads.eraseIdx n }
    if ok then t.respond r.acc .okay (data % 2 ^ (8 * r.acc.size)) else t.respond r.acc .target 0

/-- OUTBOUND_ACCESS. -/
def Chip.outbound (s : Chip) (e : OutboundEvent) : Chip :=
  match e with
  | .send => s.outboundSend
  | .answer n ok data => s.outboundAnswer n ok data.toNat

/-- OUTBOUND_TIMEOUT: the nth read that waits has had no answer for 50 ms. -/
def Chip.outboundTimeout (s : Chip) (n : Nat) : Chip :=
  match s.pcie.reads[n]? with
  | none => s
  | some r => if 50000000 ≤ sub64 s.now r.at_ then s.outboundAnswer n false 0 else s

/-! ### The SMBus target (R484) -/

def Chip.updSmb (s : Chip) (f : Smb → Smb) : Chip := { s with smb := f s.smb }

/-- The n low bytes of a value, least significant first. -/
def leBytes (v : Nat) : Nat → List Nat
  | 0 => []
  | n + 1 => v % 256 :: leBytes (v / 256) n

/-- A register read from the always-on block for the SMBus target. -/
def Chip.smbReg (s : Chip) (id : RegId) (i : Nat := 0) : Nat := (s.readReg (.own 0x18) id i 0).1

/-- Command 0x01: SYS_BOOT, then SYS_RSTCAUSE. -/
def Chip.smbBoot (s : Chip) : Chip :=
  s.updSmb fun x => { x with out := leBytes (s.smbReg .sysBoot) 4 ++ leBytes (s.smbReg .sysRstcause) 4 }

/-- Command 0x02: HST_ID. -/
def Chip.smbId (s : Chip) : Chip := s.updSmb fun x => { x with out := leBytes (s.smbReg .hstId) 4 }

/-- Command 0x03: HST_DIGEST0 to HST_DIGEST7. -/
def Chip.smbDigest (s : Chip) : Chip :=
  s.updSmb fun x => { x with out := (List.range 8).flatMap fun i => leBytes (s.smbReg .hstDigest i) 4 }

/-- Whether the SMBus target serves a local address without the fabric: what the footing page holds, and in S3 and S4
PSM_WAKE (Table 16.4; DEDUCED, notes/assumptions/42.md). -/
def Chip.smbAon (s : Chip) (la : Nat) : Bool :=
  footingHolds la || (decide (3 ≤ s.fld F.psmStat_STATE) && la == RegId.addr .psmWake 0 0)

/-- An access of the SMBus target to a local address; in S3 and S4 a fabric address is answered TARGET (R496). -/
def Chip.smbAccess (s : Chip) (write : Bool) (la v : Nat) : Chip :=
  let t := s.updSmb fun x => if write then { x with wrStat := 3 } else { x with rdStat := 3, rdVal := 0 }
  let a : Access := { mst := .own 0x18, owner := .smb, write := write, addr := s.localAddr la, size := 4, data := v, poison := false }
  if s.smbAon la then
    let r := if la % 4 = 0 then t.accessAon (.own 0x18) la write v else (.decode, 0, t)
    let u := r.2.2.smbResp { mst := .own 0x18, owner := .smb, kind := r.1, write := write, addr := a.addr, size := 4, data := r.2.1 }
    if write then u.footMark la v else u
  else if 3 ≤ s.fld F.psmStat_STATE then
    t.updSmb fun x => if write then { x with wrStat := 2 } else { x with rdStat := 2 }
  else t.submit a

/-- Command 0x10: the access address, and the read of it begun. A transaction whose PEC fails is discarded. -/
def Chip.smbSetAddress (s : Chip) (pecOk : Bool) (a : Nat) : Chip :=
  if !pecOk then s else (s.updSmb fun x => { x with addr := a % 2 ^ 30 }).smbAccess false (a % 2 ^ 30) 0

/-- Command 0x11: the status and the value read. -/
def Chip.smbRead (s : Chip) : Chip := s.updSmb fun x => { x with out := x.rdStat :: leBytes x.rdVal 4 }

/-- Command 0x12: a write to the access address, which then advances by 4. -/
def Chip.smbWrite (s : Chip) (pecOk : Bool) (v : Nat) : Chip :=
  if !pecOk then s
  else (s.smbAccess true s.smb.addr v).updSmb fun x => { x with addr := (s.smb.addr + 4) % 2 ^ 30 }

/-- Command 0x13: the status of the last write. -/
def Chip.smbWriteStatus (s : Chip) : Chip := s.updSmb fun x => { x with out := [x.wrStat] }

/-- Command 0x20: a footing command. -/
def Chip.smbFooting (s : Chip) (pecOk : Bool) (c : Nat) : Chip := if pecOk then s.footing c else s

end Sys2Proof.Machine
end

