-- ==== Sys2Proof/Machine/Sha.lean ====
section
/-! DEFINITION. SHA-256 (R472), with the constants and functions of FIPS 180-4 (PRESUMED, notes/assumptions/44.md). -/

namespace Sys2Proof.Machine

/-- The first 64 primes. -/
def shaPrimes : List Nat := (List.range 312).filter fun p => decide (2 ≤ p) && [2, 3, 5, 7, 11, 13, 17].all fun d => p == d || p % d != 0

/-- The greatest a whose kth power is at most v, from its bits above the nth. -/
def rootFrom (k v a : Nat) : Nat → Nat
  | 0 => a
  | n + 1 => rootFrom k v (if (a + 2 ^ n) ^ k ≤ v then a + 2 ^ n else a) n

/-- The first 32 bits after the point of the kth root of p. -/
def rootWord (k p : Nat) : Nat := rootFrom k (p * 2 ^ (32 * k)) 0 36 % 2 ^ 32

/-- The round constants: from the cube roots of the primes. -/
def shaK : List Nat := shaPrimes.map (rootWord 3)

/-- The first hash value: from the square roots of the first 8 primes. -/
def shaInit : List Nat := (shaPrimes.take 8).map (rootWord 2)

/-- A 32-bit word rotated right by n. -/
def rotr (x n : Nat) : Nat := x / 2 ^ n + x % 2 ^ n * 2 ^ (32 - n)

def xor3 (a b c : Nat) : Nat := Nat.xor a (Nat.xor b c)

/-- The message schedule, newest word first. -/
def shaSchedule (w : List Nat) : Nat → List Nat
  | 0 => w
  | n + 1 =>
    let a := w.getD 1 0
    let b := w.getD 14 0
    let x := xor3 (rotr a 17) (rotr a 19) (a / 2 ^ 10) + w.getD 6 0 + xor3 (rotr b 7) (rotr b 18) (b / 8) + w.getD 15 0
    shaSchedule (x % 2 ^ 32 :: w) n

/-- One round: a schedule word and its constant. The eight working words move one place on; two of them take sums. -/
def shaRound (h : List Nat) (p : Nat × Nat) : List Nat :=
  let w := fun i => h.getD i 0
  let t1 := w 7 + xor3 (rotr (w 4) 6) (rotr (w 4) 11) (rotr (w 4) 25) +
    Nat.xor (Nat.land (w 4) (w 5)) (Nat.land (2 ^ 32 - 1 - w 4) (w 6)) + p.1 + p.2
  let maj := xor3 (Nat.land (w 0) (w 1)) (Nat.land (w 0) (w 2)) (Nat.land (w 1) (w 2))
  let t2 := xor3 (rotr (w 0) 2) (rotr (w 0) 13) (rotr (w 0) 22) + maj
  let moved := ((t1 + t2) :: h.take 7).zipIdx.map fun q => if q.2 = 4 then q.1 + t1 else q.1
  moved.map fun x => x % 2 ^ 32

/-- One block of 16 words. -/
def shaBlock (h w : List Nat) : List Nat :=
  let r := ((shaSchedule w.reverse 48).reverse.zip shaK).foldl shaRound h
  (h.zip r).map fun p => (p.1 + p.2) % 2 ^ 32

/-- Byte i of the padded message of n bytes. -/
def shaByte (msg : Nat → Nat) (n i : Nat) : Nat :=
  let top := (n + 72) / 64 * 64
  if i < n then msg i else if i = n then 0x80 else if top - 8 ≤ i then 8 * n / 2 ^ (8 * (top - 1 - i)) % 256 else 0

/-- The digest of bytes 0 to n - 1 of a message, as eight words, the first byte most significant. -/
def sha256 (msg : Nat → Nat) (n : Nat) : List Nat :=
  (List.range ((n + 72) / 64)).foldl (fun h k =>
    shaBlock h ((List.range 16).map fun j =>
      (List.range 4).foldl (fun w b => w * 256 + shaByte msg n (64 * k + 4 * j + b)) 0)) shaInit

end Sys2Proof.Machine
end

