-- ==== Sys2Proof/Machine/Start.lean ====
section
/-! DEFINITION. Start-up: the keystone's check and load, the repair ledger, the start assay, the canvas formation and hold
(spec/15_keystone_start.md, R463 to R473; spec/16_power_assay_spares.md, R512, R514, R516 to R518). -/

namespace Sys2Proof.Machine

/-! ### The keystone's header and directory (R465 to R467) -/

/-- CRC-32C of n bytes of the boot memory from offset a. -/
def Boot.crc (b : Boot) (a n : Nat) : Nat := crcEnd ((List.range n).foldl (fun c i => crcByte c (b.byte (a + i))) 0xFFFFFFFF)

/-- The offset of a copy in the boot memory. -/
def copyBase (c : Nat) : Nat := if c = 0 then 0 else 0x01000000

/-- A header field of n bytes. -/
def Boot.hdr (b : Boot) (c off n : Nat) : Nat := b.bytes (copyBase c + off) n

/-- A directory entry: TYPE, ARG, OFFSET, LENGTH, CRC. -/
structure Section where
  typ : Nat
  arg : Nat
  off : Nat
  len : Nat
  crc : Nat
deriving DecidableEq, Repr

/-- The directory of a copy. -/
def Boot.sections (b : Boot) (c : Nat) : List Section :=
  (List.range (b.hdr c 0x0C 2)).map fun i =>
    let a := 0x100 + 16 * i
    ⟨b.hdr c a 2, b.hdr c (a + 2) 2, b.hdr c (a + 4) 4, b.hdr c (a + 8) 4, b.hdr c (a + 12) 4⟩

/-- Whether the header fields lie in their ranges (reason 8). -/
def Boot.fieldsOk (b : Boot) (c : Nat) : Bool :=
  let nsect := b.hdr c 0x0C 2
  let len := b.hdr c 0x08 4
  let v := b.hdr c 0x14 2
  let mhz := b.hdr c 0x28 1
  let n0 := b.hdr c 0x2C 1
  let n1 := b.hdr c (0x2D + n0) 1
  decide (1 ≤ nsect ∧ nsect ≤ 4095 ∧ b.hdr c 0x06 2 = 0x100 ∧ len % 16 = 0 ∧ 0x100 + 16 * nsect ≤ len ∧ b.hdr c 0x12 1 ≤ 2 ∧
    550 ≤ v ∧ v ≤ 900 ∧ 25 ≤ mhz ∧ mhz ≤ 200 ∧ b.hdr c 0x29 1 ≤ 2 ∧ n0 ≤ 8 ∧ n1 ≤ 8 ∧ n0 + n1 + 2 ≤ 20 ∧
    b.hdr c 0x20 4 % 0x10000 = 0 ∧ b.hdr c 0x24 4 % 0x10000 = 0)

/-- Whether n bytes from offset lo keep clear of a copy: its IMAGE_LEN bytes, where its header checks. -/
def Boot.clearOf (b : Boot) (c lo n : Nat) : Bool :=
  b.hdr c 0 4 != 0x4B534C56 || b.crc (copyBase c) 0xFC != b.hdr c 0xFC 4 ||
    decide (n = 0 ∨ lo + n ≤ copyBase c ∨ copyBase c + b.hdr c 0x08 4 ≤ lo)

/-- Whether the copy fits and the ledger region overlaps neither copy's range (reason 7). -/
def Boot.rangesOk (b : Boot) (c : Nat) : Bool :=
  let lo := b.hdr c 0x20 4
  let n := b.hdr c 0x24 4
  decide (b.hdr c 0x08 4 ≤ 0x01000000) && b.clearOf 0 lo n && b.clearOf 1 lo n

/-- A REGLIST pair: a local register address, or a wait (Table 15.2). -/
def regPairOk (a v : Nat) : Bool :=
  decide ((a % 4 = 0 ∧ 0x3C000000 ≤ a ∧ a < 0x40000000) ∨ (a = 0xFFFFFFF0 ∧ 1 ≤ v ∧ v ≤ 1000000))

/-- Where a MEMIMG may write: Table 1.3's ranges that accept writes, but the ingot and debug windows. -/
def imageOk (dest n : Nat) : Bool :=
  decide (dest % 16 = 0 ∧ (dest + n ≤ 0x16000000 ∨ (0x17000000 ≤ dest ∧ dest + n ≤ 0x17210000)))

/-- The bytes of an ANVIL section before its data words. -/
def anvilHead (ninst : Nat) : Nat := (16 + 18 * ninst + 15) / 16 * 16

/-- Whether a section's type, place and content are those that Table 15.2 allows (reason 5). -/
def Boot.sectionOk (b : Boot) (c : Nat) (x : Section) : Bool :=
  let a := copyBase c + x.off
  let ninst := b.bytes a 4
  let ndata := b.bytes (a + 4) 4
  let dbase := b.bytes (a + 8) 4
  let placed := decide (x.off % 16 = 0 ∧ 0x100 + 16 * b.hdr c 0x0C 2 ≤ x.off ∧ x.off + x.len ≤ b.hdr c 0x08 4)
  placed && (match x.typ with
    | 1 => decide (x.arg = 0 ∧ x.len = 1024) &&
        (List.range 1024).all fun p => decide (b.byte (a + p) < 16 ∧ b.byte (a + p) % 4 ≠ 3 ∧ b.byte (a + p) / 4 ≠ 3)
    | 2 => decide (x.arg = 0 ∧ x.len % 8 = 0) &&
        (List.range (x.len / 8)).all fun i => regPairOk (b.bytes (a + 8 * i) 4) (b.bytes (a + 8 * i + 4) 4)
    | 3 => decide (x.arg = 0 ∧ 16 ≤ x.len ∧ x.len % 16 = 0 ∧ b.bytes (a + 4) 12 = 0) && imageOk (b.bytes a 4) (x.len - 16)
    | 4 => decide (x.arg % 8 + 256 * (x.arg / 256 % 2) = x.arg ∧ b.bytes (a + 12) 4 = 0 ∧ ninst ≤ 16384 ∧
          dbase + ndata ≤ 262144 ∧ anvilHead ninst + 5 * ndata ≤ x.len) &&
        (List.range ndata).all fun i => decide (b.byte (a + anvilHead ninst + 5 * i + 4) < 16)
    | _ => false)

/-- The check of a copy: the REASON it fails with, if any. A field is judged before anything that it places
(DEDUCED, notes/assumptions/45.md). -/
def Boot.reason (b : Boot) (c : Nat) : Option Nat :=
  if b.hdr c 0 4 ≠ 0x4B534C56 then some 1
  else if b.hdr c 4 2 ≠ 1 then some 2
  else if b.crc (copyBase c) 0xFC ≠ b.hdr c 0xFC 4 then some 3
  else if !b.fieldsOk c then some 8
  else if !b.rangesOk c then some 7
  else if b.crc (copyBase c + 0x100) (16 * b.hdr c 0x0C 2) ≠ b.hdr c 0x4C 4 then some 3
  else
    let xs := b.sections c
    let len := b.hdr c 0x08 4
    if xs.any fun x => decide (len < x.off + x.len) then some 5
    else if xs.any fun x => decide (b.crc (copyBase c + x.off) x.len ≠ x.crc) then some 4
    else if (xs.all fun x => b.sectionOk c x) && decide ((xs.filter fun x => x.typ == 1).length ≤ 1) then none
    else some 5

/-! ### Hold (R473) and the marks of a failed copy -/

/-- The device enters hold: parked, its switched domains off but the host link, which enumerates only with its rails good
(R529). -/
def Chip.enterHold (s : Chip) : Chip :=
  let t := (s.setParked true).setDoms ((List.range 66).filter fun d => d != 64) false
  let t := (t.setFld F.sysBoot_STATE 0 0 5).setFld F.sysBoot_COPY 0 0 3
  let rails := t.on F.sysSupply_VCORE_OK && t.on F.sysSupply_VSER09_OK && t.on F.sysSupply_VSER12_OK
  (t.updPcie fun p => { p with up := p.up && rails }).updBoot fun b => { b with due := none, checked := true }

/-- REASON of a copy recorded. -/
def Chip.setReason (s : Chip) (c r : Nat) : Chip :=
  if c = 0 then s.setFld F.sysBooterr_REASON0 0 0 r else s.setFld F.sysBooterr_REASON1 0 0 r

/-! ### Steps 1 and 2 -/

/-- Start-up begins: the digest and the boot status as after reset; on exit from S4, what a keystone reset clears, with the
host link retraining (R472, R497). -/
def Chip.startBegin (s : Chip) (due : Nat) : Chip :=
  let t := if due = 2 then (s.resetTo false 2).updPcie fun p => { p with up := false } else s
  { t with flds := t.flds.filter fun p => p.1.id != .hstDigest && p.1.id != .sysBoot && p.1.id != .sysBooterr }

/-- What the header of the copy in use sets: the chip number (R470), the SMBus address, the canvas, the ledger region. -/
def Chip.takeHeader (s : Chip) (c : Nat) (due : Nat) : Chip :=
  let b := s.boot
  let flags := b.hdr c 0x0E 2
  let chip := if bit flags 0 then b.hdr c 0x10 2 % 1024 else b.straps
  let smb := b.hdr c 0x13 1
  let t := (s.setFld F.hstChip_CHIP 0 0 chip).setFld F.hstChip_OVR 0 0 (flags % 2)
  let t := if due = 0 then t.setFld F.hstWinchip_CHIP 0 0 chip else t
  let t := (t.setWord .lnkCfg 0 0 (b.hdr c 0x18 4)).setFld F.lnkFormtmo_MS 0 0 (b.hdr c 0x1C 2)
  let t := t.updSmb fun x => { x with target := if 0x08 ≤ smb ∧ smb ≤ 0x77 then smb else 0x5C }
  t.updBoot fun x =>
    { x with checked := true, flags := flags, subsys := b.hdr c 0x44 4, ledgerOff := b.hdr c 0x20 4, ledgerLen := b.hdr c 0x24 4 }

/-- Step 2: the reference, the VCORE request and the switched domains, the host link's only with its rails (R528, R529,
R533); each bank's supply is judged (R408). An exit from S4 requests the last run value (R501; DEDUCED,
notes/assumptions/56.md). With PMBus refusing, the request stands to be sent again (R501). -/
def Chip.startPower (s : Chip) (c : Nat) (e : StartEnv) : Chip :=
  let t := if e.refGood then s.setFld F.tbStat_REFSRC 0 0 (s.boot.hdr c 0x12 1) else s.stick F.tbStat_REF_LOST 0 272
  let v := if s.boot.due = some 2 ∧ s.psm.runV ≠ 0 then s.psm.runV else s.boot.hdr c 0x14 2
  let t := t.updPsm fun p => { p with pmbAddr := s.boot.hdr c 0x16 1, vexp := none, noAvs := false, unacked := false }
  let t := match e.pmb with
    | .noAck => ((t.setFld F.psmVcore_REQ 0 0 v).psmStick F.psmStat_PMB_ERR).updPsm fun p => { p with unacked := true }
    | .mode b ack =>
      match linearExp b.toNat with
      | none => ((t.setFld F.psmVcore_REQ 0 0 0).psmStick F.psmStat_PMB_ERR).updPsm fun p => { p with noAvs := true }
      | some n =>
        let t := (t.updPsm fun p => { p with vexp := some n }).askVcore v
        if ack then t else (t.psmStick F.psmStat_PMB_ERR).updPsm fun p => { p with unacked := true }
  let t := (t.setDoms ((List.range 66).filter fun d => d != 64) true).powerPcie
  (List.range 32).foldl (fun t b => t.vioCheck b) t

/-! ### Step 3: the ledger (R516 to R518) -/

/-- A half of the ledger region that is valid: its GEN. -/
def Chip.halfGen (s : Chip) (a : Nat) : Option Nat :=
  let b := s.boot
  if b.bytes a 4 = 0x4C524C56 ∧ b.bytes (a + 4) 2 = 1 ∧ b.crc a 0x3C = b.bytes (a + 0x3C) 4 ∧
      b.bytes (a + 16) 8 = s.fld64 F.asyDieidLo_ID F.asyDieidHi_ID then
    some (b.bytes (a + 8) 4)
  else none

/-- One ledger entry at offset a; none where the half ends: the CRC fails, or all 32 bytes are 0xFF. -/
def Boot.ledgerEntry (b : Boot) (a : Nat) : Option LgrEnt :=
  if b.bytes a 32 = 2 ^ 256 - 1 ∨ b.crc a 28 ≠ b.bytes (a + 28) 4 then none
  else some ⟨b.byte a, b.byte (a + 1), b.bytes (a + 2) 2, b.bytes (a + 4) 2, b.bytes (a + 6) 2, b.bytes (a + 8) 8, b.bytes (a + 16) 8⟩

/-- The entries of a half, from offset a, at most n. -/
def Boot.ledgerEntries (b : Boot) (a : Nat) : Nat → List LgrEnt
  | 0 => []
  | n + 1 =>
    match b.ledgerEntry a with
    | none => []
    | some e => e :: b.ledgerEntries (a + 32) n

/-- Logical unit i of a class placed on physical unit p. -/
def Chip.placeUnit (s : Chip) (cls i p : Nat) : Chip :=
  if cls = 2 then s.setFld F.fabMap_PHYS i 0 p else s.moveUnit cls i p

/-- One ledger entry applied. -/
def Chip.applyEntry (s : Chip) (e : LgrEnt) : Chip :=
  let key := e.cls * 4096 + e.phys
  match e.kind with
  | 1 =>
    let t := { s with unusable := (s.unusable ++ [key]).eraseDups }
    if e.cls = 7 then { t with retired := (t.retired ++ [e.phys]).eraseDups } else t
  | 5 =>
    let t := { s with unusable := s.unusable.filter fun x => x != key }
    if e.cls = 7 then { t with retired := t.retired.filter fun x => x != e.phys } else t
  | 2 =>
    if s.unusable.contains key ∨ (s.unitServing e.cls e.phys).isSome ∨ (classSize e.cls).1 ≤ e.index ∨ (classSize e.cls).2 ≤ e.phys
    then s else s.placeUnit e.cls e.index e.phys
  | 3 =>
    let u := s.fld F.fabFsrow_USED e.index
    if e.index < 16 ∧ u < 82 then s.setFld F.fabFsrow_USED e.index 0 (u + 1) else s
  | _ => s

/-- A logical unit on an unusable physical one moved to a free spare, or left as R514 states. -/
def Chip.replaceUnit (s : Chip) (cls i : Nat) : Chip :=
  if s.unusable.contains (cls * 4096 + s.unitOf cls i) then
    match s.freeSpares cls (i / 4) with
    | p :: _ => (s.placeUnit cls i p).queueChange ⟨2, cls, i, p, 0, 0, 0⟩
    | [] => { s.setFld F.asyStat_DEGRADED 0 0 1 with dead := (s.dead ++ [cls * 4096 + i]).eraseDups }
  else s

/-- Every logical unit on an unusable physical one replaced. -/
def Chip.replaceAll (s : Chip) : Chip :=
  if s.unusable.isEmpty then s
  else [0, 1, 2, 4, 5, 6].foldl (fun t cls => (List.range (classSize cls).1).foldl (fun t i => t.replaceUnit cls i) t) s

/-- The domains of free spares and unusable units are off: cores, lanes and groups of sequencers (R485). -/
def Chip.spareDoms (s : Chip) : Chip :=
  let off := fun cls p => (s.unitServing cls p).isNone || s.unusable.contains (cls * 4096 + p)
  let t := s.setDoms ((List.range 9).filter fun p => off 0 p) false
  let t := t.setDoms (((List.range 20).filter fun p => off 1 p).map fun p => 9 + p) false
  t.setDoms (((List.range 4).filter fun g => (List.range 17).all fun i => off 5 (17 * g + i)).map fun g => 55 + g) false

/-- Step 3: the valid half of the higher GEN is applied; with none, an empty ledger (R471). -/
def Chip.startLedger (s : Chip) : Chip :=
  let half := s.boot.ledgerLen / 2
  let a := s.boot.ledgerOff
  let t := if s.boot.ledgerLen = 0 then s
    else match s.halfGen a, s.halfGen (a + half) with
      | none, none => s.setFld F.sysBoot_LEDGER_BAD 0 0 1
      | g, h =>
        let at_ := if h.isSome ∧ (g.isNone ∨ g.getD 0 < h.getD 0) then a + half else a
        (s.boot.ledgerEntries (at_ + 0x40) ((half - 0x40) / 32)).foldl (fun t e => t.applyEntry e) s
  t.replaceAll.spareDoms

/-! ### Steps 4 and 5 -/

/-- Step 4: the park states, or high impedance with no pull (R418). -/
def Chip.startPark (s : Chip) (c : Nat) : Chip :=
  let t := { s with flds := s.flds.filter fun p =>
    !(decide (p.1.id = RegId.pinCfg) && (p.1.lo == F.pinCfg_PARK.lo || p.1.lo == F.pinCfg_PULL.lo)) }
  let t := match (s.boot.sections c).find? fun x => x.typ == 1 with
    | none => t
    | some x =>
      (List.range 1024).foldl (fun t p =>
        let v := s.boot.byte (copyBase c + x.off + p)
        (t.setFld F.pinCfg_PARK p 0 (v % 4)).setFld F.pinCfg_PULL p 0 (v / 4)) t
  t.setParked true

/-- The register writes of a REGLIST from offset a; false where one ends in an error response. -/
def Chip.loadRegs (s : Chip) (a : Nat) : Nat → Bool × Chip
  | 0 => (true, s)
  | n + 1 =>
    let adr := s.boot.bytes a 4
    if adr = 0xFFFFFFF0 then s.loadRegs (a + 8) n
    else
      let r := s.perform (.own 0x48) adr 4 true (s.boot.bytes (a + 4) 4) false
      if r.1 = .okay then r.2.2.loadRegs (a + 8) n else (false, r.2.2)

/-- A memory image written in 16-byte accesses. -/
def Chip.loadImage (s : Chip) (a n : Nat) : Chip :=
  let dest := s.boot.bytes a 4
  (List.range (n / 16)).foldl (fun t i =>
    (t.perform (.own 0x48) (dest + 16 * i) 16 true (s.boot.bytes (a + 16 + 16 * i) 16) false).2.2) s

/-- A core's instructions and data words, where its domain is on. -/
def Chip.loadAnvil (s : Chip) (k a : Nat) : Chip :=
  let ninst := s.boot.bytes a 4
  let dbase := s.boot.bytes (a + 8) 4
  if !s.domOn (s.physOf 0 k) then s
  else
    let t := (List.range ninst).foldl (fun t i => t.putImem k i (s.boot.bytes (a + 16 + 18 * i) 18)) s
    (List.range (s.boot.bytes (a + 4) 4)).foldl (fun t i =>
      t.putDmem k (dbase + i) (s.boot.bytes (a + anvilHead ninst + 5 * i) 5)) t

/-- The sections applied in directory order. -/
def Chip.loadSections (s : Chip) (c : Nat) : List Section → Bool × Chip
  | [] => (true, s)
  | x :: xs =>
    let a := copyBase c + x.off
    if x.typ = 2 then
      let r := s.loadRegs a (x.len / 8)
      if r.1 then r.2.loadSections c xs else r
    else if x.typ = 3 then (s.loadImage a (x.len - 16)).loadSections c xs
    else if x.typ = 4 then (s.loadAnvil (x.arg % 8) a).loadSections c xs
    else s.loadSections c xs

/-- Every stacked and on-die store written to zero with valid check bits (R497, R531). -/
def Chip.zeroStores (s : Chip) : Chip :=
  let t := { s with mem := [], marks := s.marks.filter fun p => !decide (p.1 < 0x18000000) }
  if s.boot.vmem then t.setFld F.sysSupply_STORE_ZERO 0 0 1 else t

/-! ### Steps 6 to 9 -/

/-- The start-up assay: a unit that fails is marked unusable and replaced by a free spare, or left as R514 states (R512). -/
def Chip.startAssay (s : Chip) (fails : List (Nat × Nat)) : Chip :=
  if fails.isEmpty then s
  else
    let t := fails.foldl (fun t f =>
      let t := { t with unusable := (t.unusable ++ [f.1 * 4096 + f.2]).eraseDups,
                        retired := if f.1 = 7 then (t.retired ++ [f.2]).eraseDups else t.retired }
      (t.asyStick F.asyStat_FAIL).queueChange ⟨1, f.1, 0, f.2, 0, 0, 0⟩) s
    t.replaceAll.spareDoms

/-- Step 7: the enabled links train, the route table is filled, a member reports to the root, the root loads its count upwards
and announces the formation, and is then ALIGNED (R447, R454, R455). -/
def Chip.formCanvas (s : Chip) (e : StartEnv) : Chip :=
  let role := s.fld F.lnkCfg_ROLE
  if role = 0 then s
  else
    let t := e.links.foldl (fun t x => t.retrain x.1 x.2.1 x.2.2) s
    let t := (t.updNet fun n => { n with filled := true }).setParent
    if role = 2 then
      let t := if e.allIn then t else t.netStick F.lnkStat_FORM_TMO
      let t := { (t.setFld F.lnkStat_FORMED 0 0 1) with tb := BitVec.ofNat 64 (e.counts.foldl max t.now + 1000000) }
      (t.setFld F.lnkStat_ALIGNED 0 0 1).linkctlAll
    else
      let t := t.linkctlSend (s.fld F.lnkCfg_ROOT)
      match e.parent with
      | none => t
      | some c => t.lateJoin c

/-- Step 9: the cores whose sections ask for it run, the ports are released, the watchdog starts. -/
def Chip.startRun (s : Chip) (c : Nat) : Chip :=
  let b := s.boot
  let ks := ((b.sections c).filter fun x => x.typ == 4 && bit x.arg 8).map fun x => x.arg % 8
  let t := s.setFld F.sysBoot_STATE 0 0 4
  let t := ks.foldl (fun t k => if t.domOn (t.physOf 0 k) then t.writeCoreCtrl k 1 else t) t
  let t := if bit b.flags 1 then t.setParked false else t
  if bit b.flags 5 then
    ((t.setFld F.sysWdogCtrl_EN 0 0 1).setFld F.sysWdogCtrl_TIMEOUT 0 0 (b.hdr c 0x40 4)).updBoot fun x => { x with kicked := t.now }
  else t

/-- The digest of the copy as read in step 5 put into HST_DIGEST0 to 7 (R472). -/
def Chip.putDigest (s : Chip) (c : Nat) : Chip :=
  ((sha256 (fun i => s.boot.byte (copyBase c + i)) (s.boot.hdr c 0x08 4)).zipIdx).foldl
    (fun t p => t.setFld F.hstDigest_D p.2 0 p.1) s

/-! ### The sequence (Table 15.3) -/

/-- How the start from one copy ends. -/
inductive StartEnd where
  | ran (c : Chip)
  | failed (c : Chip)
  | held (c : Chip)

/-- Steps 2 to 9 with a copy found good. -/
def Chip.applyCopy (s : Chip) (c due : Nat) (e : StartEnv) : StartEnd :=
  let t := (s.takeHeader c due).startPower c e
  if !(t.on F.sysSupply_VCORE_OK && t.on F.sysSupply_VMEM_OK) then .held t.enterHold
  else
    let t := t.startLedger.startPark c
    let t := if s.boot.zero then t.zeroStores else t
    let t := (t.setFld F.sysBoot_COPY 0 0 c).setOn F.sysBoot_FALLBACK 0 0 (!e.same)
    let r := t.loadSections c (t.boot.sections c)
    if !r.1 then
      let r0 := s.fld F.sysBooterr_REASON0
      .failed (((r.2.resetTo false due).setFld F.sysBooterr_REASON0 0 0 r0).setReason c 6)
    else
      let t := r.2.setFld F.mbxCptlock_LOCKED 0 0 1
      let t := if bit t.boot.flags 4 then t.startAssay e.fails else t
      let t := ((t.formCanvas e).putDigest c).startRun c
      .ran ((t.setFld F.psmS4lat_US 0 0 (e.us * 11 / 10)).updBoot fun b => { b with due := none, zero := false, vmem := false })

/-- A copy checked and applied. -/
def Chip.tryCopy (s : Chip) (c due : Nat) (e : StartEnv) : StartEnd :=
  match s.boot.reason c with
  | some r => .failed (s.setReason c r)
  | none => s.applyCopy c due e

/-- START_UP: the steps of Table 15.3, where a reset's start-up is due and no thermal trip holds the device (R498). The waits of a REGLIST pass no tick of the count
here (DEDUCED, notes/assumptions/46.md). -/
def Chip.startUp (s : Chip) (e : StartEnv) : Chip :=
  match s.boot.due with
  | none => s
  | some due =>
    if s.psm.tripped then s
    else match (s.startBegin due).tryCopy 0 due e with
    | .ran t => t
    | .held t => t
    | .failed t =>
      match t.tryCopy 1 due e with
      | .ran u => u
      | .held u => u
      | .failed u => u.enterHold

end Sys2Proof.Machine
end

