-- ==== Sys2Proof/Machine/Steps.lean ====
section
/-! DEFINITION. What the commands share: a unit acts only while its domain is on, and the registers that commands name. -/

namespace Sys2Proof.Machine

/-- An effect of a unit, nothing while its power domain is off (R486). -/
def Chip.whenOn (s : Chip) (d : Nat) (f : Chip → Chip) : Chip := if s.domOn d then f s else s

/-- An effect of pin sequencer q. -/
def Chip.whenSeq (s : Chip) (q : Nat) (f : Chip → Chip) : Chip := s.whenOn (55 + s.physOf 5 q / 17) f

/-- A sequencer instruction of one operation. -/
def Chip.psqRow (s : Chip) (q op : Nat) (k : Nat → Chip → Chip) : Chip := s.whenSeq q fun c => c.psqOn q op k

/-- A line program command of one of the codes given. -/
def Chip.lpeRow (s : Chip) (n : Nat) (ops : List Nat) (k : Nat → Chip → Chip) : Chip :=
  s.whenOn (29 + n) fun c => c.orWait fun c => c.lpeOn n ops k

/-- The fabric takes an access. -/
def Chip.fabricOp (s : Chip) (a : FabricOp) : Chip :=
  match a with
  | .issued n => s.issueNth n
  | .given m write poison addr size data =>
    s.submit { mst := m, owner := .none, write := write, addr := addr.toNat, size := size, data := data.toNat, poison := poison }

/-- The fence of a whole teed frame is written to CPS_FSIG of its chip (R133). -/
def Chip.teeComplete (s : Chip) (h : Nat) : Chip :=
  match s.teeReady h with
  | some x =>
    (s.updComp h fun c => { c with teeFin := c.teeFin.filter fun y => y.frame != x.frame }).submit
      { mst := .own (0x38 + h), owner := .teeFence, write := true, addr := x.chip * 2 ^ 30 + RegId.addr .cpsFsig 0 0,
        size := 4, data := x.fence, poison := false }
  | none => s

/-- A training that was asked for runs with the sink's answers (R187). -/
def Chip.trainNow (s : Chip) (h rate lanes : Nat) (psr : Bool) (good : Nat) : Chip :=
  if (s.head h).trainReq ∧ s.domOn (29 + h) then (s.setSink h rate lanes psr).train h good else s

/-- The EN register of audio port x: OUT at x, SPD at 16 + s, DPA at 20 + h, IN at 28 + i. -/
def audioPortReg (x : Nat) : RegId × Nat :=
  if x < 16 then (.outCfg, x) else if x < 20 then (.spdCfg, x - 16) else if x < 28 then (.dpaCfg, x - 20) else (.inCfg, x - 28)

/-- The DATA register of serial peripheral x: UART u at u, SPI s at 16 + s, I2C i at 24 + i. -/
def serialDataReg (x : Nat) : RegId × Nat :=
  if x < 16 then (.uartData, x) else if x < 24 then (.spiData, x - 16) else (.i2cData, x - 24)

/-- The local address of offset o of core k's debug window (R318). -/
def windowAddr (k o : Nat) : Nat := 0x18000000 + k * 0x400000 + o

/-- A UART sends a character, or receives one. -/
def Chip.uartFrame (s : Chip) (u : Nat) (rx : Option (BitVec 8 × Bool)) : Chip :=
  match rx with
  | none => s.uartSend u
  | some (b, ok) => s.uartRecv u b.toNat ok

/-- The reference returns: the PLL locks to it again without a step in the count (R375). -/
def Chip.refReturn (s : Chip) : Chip := s.tbPllLock

end Sys2Proof.Machine
end

