-- ==== Sys2Proof/Machine/Lift.lean ====
section
/-! DEFINITION. From a chip's effects to commands' outcomes: while power-on reset holds, no unit acts (R526), but the time
base counts and the outside goes on. -/

namespace Sys2Proof.Machine

/-- The outcome of a command of this block. -/
abbrev Out := Host.Outcome State Fault Refusal

/-- An effect that happens whether or not power-on reset holds. -/
def State.always (s : State) (f : Chip → Chip) : Out := .next { s with chip := f s.chip }

/-- An effect that happens unless power-on reset holds. -/
def State.act (s : State) (f : Chip → Chip) : Out := .next (if s.sup.por then s else { s with chip := f s.chip })

/-- VAON or VDDIO_AON leaves its window (R526, R531). -/
def State.powerOnReset (s : State) (vaonLost : Bool) : Out :=
  .next { s with sup := { s.sup with por := true }, chip := s.chip.powerOff vaonLost }

/-- Power-on reset releases, unless TESTMODE holds it (R523, R526). -/
def State.powerOnRelease (s : State) (straps : Nat) : Out :=
  .next (if s.sup.por ∧ !s.sup.testmode then { s with sup := { s.sup with por := false }, chip := s.chip.porRelease straps }
    else s)

/-- The TESTMODE ball reads high, or low again (R523). -/
def State.testmode (s : State) (high : Bool) : Out :=
  .next (if high then
    { s with sup := ⟨true, true⟩, chip := if s.sup.por then s.chip else s.chip.powerOff false }
  else { s with sup := { s.sup with testmode := false } })

/-- What the chip does at the boot memory's chip select: high while power-on reset holds (R538), and between the commands of
the boot engine. -/
def State.bootCsN (s : State) : Pad :=
  if s.sup.por ∨ (s.chip.boot.due = none ∧ s.chip.boot.cmd = none) then .lvl true else .wave

/-- What the chip does at the boot memory's reset: low while power-on reset holds (R538); it pulses low in a start-up
(R464), and is high otherwise. -/
def State.bootRstN (s : State) : Pad :=
  if s.sup.por then .lvl false else if s.chip.boot.due = none then .lvl true else .wave

/-- A rail enters its window; during power-on reset only its monitor shows it (R525, R528). -/
def State.railEnter (s : State) (r : Nat) : Out :=
  s.always fun c => if s.sup.por then c.setFld (railOk r) 0 0 1 else c.railEnter r

/-- A rail leaves its window. -/
def State.railLeave (s : State) (r : Nat) : Out :=
  s.always fun c => if s.sup.por then c.setFld (railOk r) 0 0 0 else c.railLeave r

/-- A bank's supply changes; it is judged while the bank's domain is on (R408). -/
def State.vioChange (s : State) (b v : Nat) : Out :=
  s.always fun c => if c.domOn (51 + b / 8) then c.vioChange b v else { c with vio := NStore.set c.vio b v }

end Sys2Proof.Machine
end

