-- ==== Sys2Proof/Machine/AssayRows.lean ====
section
/-! DEFINITION. Assay and maintenance. -/

namespace Sys2Proof.Machine

/-- ASSAY_REQUEST (R506): A write of GO to ASY_REQ queues an assay request or sets QFULL. -/
def execAssayRequest (m : Master) (cls : BitVec 4) (idx : BitVec 12) (s : State) : Out :=
  s.act fun c => c.regWrite m .asyReq 0 0 (2 ^ 31 + cls.toNat * 2 ^ 20 + idx.toNat)

/-- ASSAY_ABORT (R506): ABORT empties the assay queue and ends the running request. -/
def execAssayAbort (m : Master) (s : State) : Out := s.act fun c => c.regWrite m .asyReq 0 0 (2 ^ 30)

/-- ASSAY_RUN (R505): The head request starts once a spare is free, rotating or saving the unit. -/
def execAssayRun (s : State) : Out := s.act fun c => c.whenOn 65 fun c => c.asyRun

/-- ASSAY_RESULT (R513): An assay ends, enters a result and queues ledger changes. -/
def execAssayResult (code : BitVec 4) (detail : BitVec 32) (rows : List Nat) (s : State) : Out :=
  s.act fun c => c.whenOn 65 fun c => c.asyResult code.toNat detail.toNat rows

/-- RES_POP (R513): A write to ASY_RES_POP removes the oldest result. -/
def execResPop (m : Master) (s : State) : Out := s.act fun c => c.regWrite m .asyResPop 0 0 1

/-- LGR_POP (R513): A write to ASY_LGR_POP removes the oldest ledger change. -/
def execLgrPop (m : Master) (s : State) : Out := s.act fun c => c.regWrite m .asyLgrPop 0 0 1

/-- MAINTENANCE_ENTER (R509): ENTER with the key halts every unit and enters maintenance. -/
def execMaintenanceEnter (m : Master) (s : State) : Out := s.act fun c => c.regWrite m .asyMaint 0 0 0x3D7C0001

end Sys2Proof.Machine
end

