-- ==== Sys2Proof/Machine/Audio.lean ====
section
/-! DEFINITION. The audio engine, voices and ports. -/

namespace Sys2Proof.Machine

/-- AUDIO_RUN (R205): A write of RUN arms the audio engine start or stops it after the block in progress. -/
def execAudioRun (m : Master) (v : BitVec 32) (s : State) : Out := s.act fun c => c.regWrite m .audCtrl 0 0 v.toNat

/-- AUDIO_START (R205): The audio engine starts at its starting instant. -/
def execAudioStart (s : State) : Out := s.act fun c => c.whenOn 44 fun c => c.audStart

/-- BLOCK_COMPUTE (R202): The engine computes block k from the instant G(8k-16), taking writes completed before it. -/
def execBlockCompute (s : State) : Out := s.act fun c => c.whenOn 44 fun c => c.orWait fun c => c.blockCompute.dmaLevels

/-- BLOCK_SEND (R229): Output converters take a block, repeating samples as slips if it is late. -/
def execBlockSend (s : State) : Out := s.act fun c => c.whenOn 44 fun c => c.blockSend

/-- HOLD_RELEASE (R203): Clearing HOLD makes every stored audio write take effect at one block. -/
def execHoldRelease (m : Master) (v : BitVec 32) (s : State) : Out :=
  s.act fun c => c.regWrite m .audCtrl 0 0 (v.toNat / 4 * 4 + v.toNat % 2)

/-- KEYON (R220): KEYON restarts a voice from START and attacks from its present level. -/
def execKeyOn (m : Master) (i : Fin 512) (s : State) : Out := s.act fun c => c.regWrite m .vCmd i.1 0 1

/-- KEYOFF (R220): KEYOFF enters release. -/
def execKeyOff (m : Master) (i : Fin 512) (s : State) : Out := s.act fun c => c.regWrite m .vCmd i.1 0 2

/-- STOP (R220): STOP ramps both outputs to 0 and makes the voice IDLE. -/
def execVoiceStop (m : Master) (i : Fin 512) (s : State) : Out := s.act fun c => c.regWrite m .vCmd i.1 0 3

/-- TIMED_COMMAND (R220): A voice command with AT = 1 is taken at the first sample at or after its instant. -/
def execTimedCommand (m : Master) (i : Fin 512) (op : BitVec 2) (s : State) : Out :=
  s.act fun c => c.regWrite m .vCmd i.1 0 (4 + op.toNat)

/-- HELD_WRITE_TAKEN (R209): A write held during a crossfade is taken when the crossfade ends. -/
def execHeldWriteTaken (k : BitVec 16) (s : State) : Out := s.act fun c => c.whenOn 44 fun c => c.heldWriteTaken k.toNat

/-- PORT_ENABLE (R227): A write of EN = 1 to an audio port starts it unless the combination is invalid. -/
def execPortEnable (m : Master) (x : Fin 36) (v : BitVec 32) (s : State) : Out :=
  s.act fun c => c.regWrite m (audioPortReg x.1).1 (audioPortReg x.1).2 0 (v.toNat % 2 ^ 31 + 2 ^ 31)

/-- CLKLOSS (R227): A target-mode port with no bit clock for two frame periods sets CLKLOSS. -/
def execClkLoss (x : Fin 36) (s : State) : Out := s.act fun c => c.whenOn 44 fun c => c.clkLoss x.1

/-- RATE_SLIP (R230): A rate converter FIFO reaching empty or full repeats or drops a sample. -/
def execRateSlip (x : Fin 36) (s : State) : Out := s.act fun c => c.whenOn 44 fun c => c.rateSlip x.1

/-- VOICE_ROTATION (R212): A spare voice replaces a voice between two blocks. -/
def execVoiceRotation (i : Fin 512) (p : Fin 544) (s : State) : Out :=
  s.act fun c => c.whenOn 42 fun c => c.voiceRotate i.1 p.1

end Sys2Proof.Machine
end

