-- ==== Sys2Proof/Machine/BlitRows.lean ====
section
/-! DEFINITION. The blit engine. -/

namespace Sys2Proof.Machine

/-- GO (R234): A write of GO copies the blit staging set into the command queue. -/
def execBlitGo (m : Master) (s : State) : Out := s.act fun c => c.regWrite m .bltGo 0 0 1

/-- ABORT (R248): ABORT empties the blit queue and ends the running command. -/
def execBlitAbort (m : Master) (s : State) : Out := s.act fun c => c.regWrite m .bltGo 0 0 2

/-- BLIT_BEGIN (R235): The blit engine begins the next command after the previous one's writes and fence complete. -/
def execBlitBegin (s : State) : Out := s.act fun c => c.whenOn 46 fun c => c.bltBegin

/-- BLIT_BURST (R243): The engine issues a burst after the dead time of the previous one. -/
def execBlitBurst (s : State) : Out := s.act fun c => c.whenOn 46 fun c => c.orWait fun c => c.bltBurst

/-- WMARK (R245): The watermark fires when every row up to LINE has completed. -/
def execBlitWmark (s : State) : Out := s.act fun c => c.whenOn 46 fun c => c.bltWmark

/-- BLT_DONE (R246): A completed command signals its fence, sets DONE and raises BLT_DONE. -/
def execBlitDone (s : State) : Out := s.act fun c => c.whenOn 46 fun c => c.bltDone

/-- BLIT_ERROR (R247): An error response ends the command and sets ERR. -/
def execBlitError (s : State) : Out := s.act fun c => c.whenOn 46 fun c => c.bltError

end Sys2Proof.Machine
end

