-- ==== Sys2Proof/Machine/Compose.lean ====
section
/-! DEFINITION. Composition: courses, lines, flips, fences, hallmarks. -/

namespace Sys2Proof.Machine

/-- COURSE_BEGIN (R114): The lanes begin a course once it is released, the previous course is composed and a course
buffer is free. -/
def execCourseBegin (h : Fin 8) (s : State) : Out := s.act fun c => c.whenOn 37 fun c => c.courseBegin h.1

/-- LINE_COMPOSE (R92): The lanes compose a line once the engine has released it, applying its queued writes. -/
def execLineCompose (h : Fin 8) (s : State) : Out := s.act fun c => c.whenOn 37 fun c => c.lineCompose h.1

/-- COURSE_SEAL (R16): A course is sealed when the last byte of its write-back completes. -/
def execCourseSeal (h : Fin 8) (s : State) : Out := s.act fun c => c.whenOn 37 fun c => c.courseSeal h.1

/-- TEE_FRAME_COMPLETE (R133): When every tee write of a frame has completed, the compositor signals the destination
fence. -/
def execTeeFrameComplete (h : Fin 8) (s : State) : Out := s.act fun c => c.whenOn 37 fun c => c.teeComplete h.1

/-- SCAN_TAP (R143): The scan tap completes a region's frame when its last pixel passes the tap. -/
def execScanTap (h : Fin 8) (r : Fin 64) (s : State) : Out := s.act fun c => c.whenOn 37 fun c => c.scanTap h.1 r.1

/-- FLIP_ARM (R127): A write to CPS_FLIPk arms or disarms a flip of layer k. -/
def execFlipArm (m : Master) (k : Fin 256) (v : BitVec 32) (s : State) : Out :=
  s.act fun c => c.regWrite m .cpsFlip k.1 0 v.toNat

/-- FENCE_SIGNAL (R128): A write to CPS_FSIG sets SIG of the named fence, and OVR if already set. -/
def execFenceSignal (m : Master) (f : BitVec 8) (s : State) : Out := s.act fun c => c.regWrite m .cpsFsig 0 0 f.toNat

/-- HTAG_ARM (R152): A write to HTAGs arms slot s with the value HVALs holds. -/
def execHtagArm (m : Master) (h : Fin 8) (r : Fin 64) (slot : Fin 2) (v : BitVec 32) (s : State) : Out :=
  s.act fun c => c.regWrite m (if slot.1 = 0 then .hmkHtag0 else .hmkHtag1) h.1 r.1 v.toNat

/-- REGION_LOCK (R150): A write of 1 to LOCK locks the region's configuration until a compositor reset. -/
def execRegionLock (m : Master) (h : Fin 8) (r : Fin 64) (v : BitVec 32) (s : State) : Out :=
  s.act fun c => c.regWrite m .hmkCfg h.1 r.1 (v.toNat % 2 ^ 31 + 2 ^ 31)

/-- FREEZE_CLEAR (R156): Clearing FROZEN resumes composition from the next latch line, refused to non-supervisory
masters where FRZ_SUPV is set. -/
def execFreezeClear (m : Master) (h : Fin 8) (s : State) : Out := s.act fun c => c.regWrite m .hmkHstat h.1 0 1

/-- SIGNATURE_READ (R145): A read of LASTC or LASTS latches the matching frame number. -/
def execSignatureRead (m : Master) (h : Fin 8) (r : Fin 64) (scan : Bool) (s : State) : Out :=
  s.act fun c => c.regRead m (if scan then .hmkLasts else .hmkLastc) h.1 r.1

end Sys2Proof.Machine
end

