-- ==== Sys2Proof/Machine/CoreRows.lean ====
section
/-! DEFINITION. The Anvil cores and their debug windows. -/

namespace Sys2Proof.Machine

/-- INSTRUCTION_ISSUE (R274): An Anvil core issues one instruction whole, performing its moves in two passes. -/
def execInstructionIssue (k : Fin 8) (s : State) : Out :=
  s.act fun c => c.whenOn (c.physOf 0 k.1) fun c => (c.issue k.1).dmaLevels

/-- SYNC_COMPLETE (R298): The core resumes issue once every earlier write has completed. -/
def execSyncComplete (k : Fin 8) (s : State) : Out :=
  s.act fun c => c.whenOn (c.physOf 0 k.1) fun c => c.syncComplete k.1

/-- FAB_RESULT (R297): A FAB read response fills Q or Q0–Q3, or raises FABERR or POISON. -/
def execFabResult (k : Fin 8) (s : State) : Out := s.act fun c => c.whenOn (c.physOf 0 k.1) fun c => c.fabResult k.1

/-- WFI_END (R303): The request line rises and a waiting core resumes or takes the interrupt. -/
def execWfiEnd (k : Fin 8) (s : State) : Out := s.act fun c => c.whenOn (c.physOf 0 k.1) fun c => c.wfiEnd k.1

/-- INTERRUPT_ENTRY (R301): At an instruction boundary with request and IE, the core saves EPC, clears IE and jumps to
EVEC. -/
def execInterruptEntry (k : Fin 8) (s : State) : Out := s.act fun c => c.whenOn (c.physOf 0 k.1) fun c => c.irqEntry k.1

/-- ACC_TIMEOUT (R309): A push or pop blocked for 4,096 tk issues anyway and raises ACC_TIMEOUT. -/
def execAccTimeout (k : Fin 8) (s : State) : Out :=
  s.act fun c => c.whenOn (c.physOf 0 k.1) fun c => (c.accTimeout k.1).dmaLevels

/-- RUN (R317): RUN takes a core from RESET or HALTED to RUNNING. -/
def execCoreRun (m : Master) (k : Fin 8) (s : State) : Out := s.act fun c => c.regWrite m .coreCtrl k.1 0 1

/-- CORE_HALT (R314): HALT halts a core at the next instruction boundary. -/
def execCoreHalt (m : Master) (k : Fin 8) (s : State) : Out := s.act fun c => c.regWrite m .coreCtrl k.1 0 2

/-- STEP (R316): STEP issues one instruction from HALTED and sets STEP_DONE. -/
def execCoreStep (m : Master) (k : Fin 8) (s : State) : Out := s.act fun c => c.regWrite m .coreCtrl k.1 0 4

/-- RESET (R312): RESET puts a core in RESET with its ports at reset values. -/
def execCoreReset (m : Master) (k : Fin 8) (s : State) : Out := s.act fun c => c.regWrite m .coreCtrl k.1 0 8

/-- WINDOW_READ (R319): A read of an element's first word through the debug window latches the element. -/
def execWindowRead (m : Master) (k : Fin 8) (o : BitVec 22) (s : State) : Out :=
  s.act fun c => c.direct m false (c.localAddr (windowAddr k.1 o.toNat)) 4 0

/-- WINDOW_WRITE (R319): A window write stages a word, or on the commit word writes the whole element. -/
def execWindowWrite (m : Master) (k : Fin 8) (o : BitVec 22) (v : BitVec 32) (s : State) : Out :=
  s.act fun c => c.direct m true (c.localAddr (windowAddr k.1 o.toNat)) 4 v.toNat

/-- CORE_ROTATION (R323): The spare core takes over a logical core at an allowed instruction boundary. -/
def execCoreRotation (k : Fin 8) (p : Fin 9) (s : State) : Out := s.act fun c => c.coreRotate k.1 p.1

end Sys2Proof.Machine
end

