-- ==== Sys2Proof/Machine/DmaRows.lean ====
section
/-! DEFINITION. The DMA channels. -/

namespace Sys2Proof.Machine

/-- START (R255): A DMA START reads the channel's descriptor. -/
def execDmaStart (m : Master) (i : Fin 1024) (s : State) : Out := s.act fun c => c.regWrite m .dmacCmd i.1 0 1

/-- HALT (R255): A DMA HALT stops new bursts and halts the channel with its position. -/
def execDmaHalt (m : Master) (i : Fin 1024) (s : State) : Out := s.act fun c => c.regWrite m .dmacCmd i.1 0 2

/-- RESUME (R255): A DMA RESUME continues a halted channel. -/
def execDmaResume (m : Master) (i : Fin 1024) (s : State) : Out := s.act fun c => c.regWrite m .dmacCmd i.1 0 4

/-- DMA_ABORT (R255): A DMA ABORT ends the transfer with status CODE 4 and the channel goes IDLE. -/
def execDmaAbort (m : Master) (i : Fin 1024) (s : State) : Out := s.act fun c => c.regWrite m .dmacCmd i.1 0 8

/-- DMA_BELL (R251): A write to DMA_BELL acts as START on the named channel. -/
def execDmaBell (m : Master) (i : BitVec 32) (s : State) : Out := s.act fun c => c.regWrite m .dmaBell 0 0 i.toNat

/-- DESCRIPTOR_RETURN (R551): A descriptor read returns and the channel moves data, waits for ownership, or acts on a
held command. -/
def execDescriptorReturn (i : Fin 1024) (s : State) : Out := s.act fun c => c.whenOn 45 fun c => c.dmaDescReturn i.1

/-- DMA_BURST_START (R261): The read engine starts a burst for the eligible channel of highest priority. -/
def execDmaBurstStart (s : State) : Out := s.act fun c => c.whenOn 45 fun c => c.dmaBurst

/-- POINTER_UPDATE (R262): After a burst completes, the write engine advances the paced source's pointer. -/
def execPointerUpdate (i : Fin 1024) (s : State) : Out :=
  s.act fun c => c.whenOn 45 fun c => (c.dmaPointer i.1).dmaLevels

/-- DESCRIPTOR_FINISH (R265): A channel writes status, clears ownership, signals the fence and sets DONE. -/
def execDescriptorFinish (i : Fin 1024) (s : State) : Out :=
  s.act fun c => c.whenOn 45 fun c => (c.dmaFinish i.1).dmaLevels

end Sys2Proof.Machine
end

