-- ==== Sys2Proof/Machine/Fabric.lean ====
section
/-! DEFINITION. Register and memory accesses, and their responses. -/

namespace Sys2Proof.Machine

/-- REGISTER_WRITE (R7): A write to a register that has no row of its own sets its fields according to their access
codes. -/
def execRegisterWrite (m : Master) (a : BitVec 40) (v : BitVec 32) (s : State) : Out :=
  s.act fun c => c.direct m true a.toNat 4 v.toNat

/-- RC_READ (R7): A read of a read-to-clear field returns its value and then clears it to 0. -/
def execRcRead (m : Master) (a : BitVec 40) (s : State) : Out := s.act fun c => c.direct m false a.toNat 4 0

/-- FABRIC_ACCESS (R349): A naturally aligned memory access is performed indivisibly at its store. -/
def execFabricAccess (a : FabricOp) (s : State) : Out := s.act fun c => c.fabricOp a

/-- ACCESS_RESPONSE (R348): An access ends with one response to its master: OKAY, OKAY with poison, DECODE or TARGET.
-/
def execAccessResponse (m : Master) (s : State) : Out := s.act fun c => (c.accessResponse m).dmaLevels

end Sys2Proof.Machine
end

