-- ==== Sys2Proof/Machine/Head.lean ====
section
/-! DEFINITION. Scan heads: start and stop, clocks, outputs. -/

namespace Sys2Proof.Machine

/-- HEAD_RUN (R170): A write of RUN = 1 checks the settings and arms a start of the head. -/
def execHeadRun (m : Master) (h : Fin 8) (v : BitVec 32) (s : State) : Out :=
  s.act fun c => c.regWrite m .shCtrl h.1 0 (v.toNat / 2 * 2 + 1)

/-- HEAD_START_INSTANT (R170): The head starts at its starting instant, sets RUNNING and frame 0. -/
def execHeadStartInstant (h : Fin 8) (frac : BitVec 16) (s : State) : Out :=
  s.act fun c => c.whenOn (29 + h.1) fun c => c.headStart h.1 frac.toNat

/-- HEAD_STOP (R172): A write of RUN = 0 arms a stop at the next latch instant. -/
def execHeadStop (m : Master) (h : Fin 8) (v : BitVec 32) (s : State) : Out :=
  s.act fun c => c.regWrite m .shCtrl h.1 0 (v.toNat / 2 * 2)

/-- PLL_LOCKED (R163): The pixel-clock PLL reaches lock and PLL_LOCK becomes 1. -/
def execPllLocked (h : Fin 8) (s : State) : Out := s.act fun c => c.whenOn (29 + h.1) fun c => c.pllLocked h.1

/-- PLL_LOST (R164): The pixel PLL loses lock while running and holds its frequency. -/
def execPllLost (h : Fin 8) (s : State) : Out := s.act fun c => c.whenOn (29 + h.1) fun c => c.pllLost h.1

/-- GENLOCK_FRAME_REF (R168): The genlock receiver takes a frame reference from the sync input. -/
def execGenlockFrameRef (f64 : Fin 64) (lines : BitVec 16) (s : State) : Out :=
  s.act fun c => c.whenOn 29 fun c => c.genlockRef f64.1 lines.toNat

/-- LOCK_LOST (R167): After three frame periods of absent reference, a GENLOCK head holds and sets LOCK_LOST. -/
def execLockLost (h : Fin 8) (s : State) : Out := s.act fun c => c.whenOn (29 + h.1) fun c => c.lockLost h.1

/-- FADDR_WRITE (R174): A write to SHn_FADDR sets the pending frame address and FADDR_PEND. -/
def execFaddrWrite (m : Master) (h : Fin 8) (v : BitVec 32) (s : State) : Out :=
  s.act fun c => c.regWrite m .shFaddr h.1 0 v.toNat

/-- FSTAMP_READ (R198): A read of SHn_FSTAMP_LO latches the HI and FR parts. -/
def execFstampRead (m : Master) (h : Fin 8) (s : State) : Out := s.act fun c => c.regRead m .shFstampLo h.1 0

/-- GL_FPER_READ (R169): A read of SH0_GL_FPER latches SH0_GL_FPER_HI. -/
def execGlFperRead (m : Master) (s : State) : Out := s.act fun c => c.regRead m .glFper 0 0

/-- TRAIN (R187): A TRAIN command trains the DisplayPort link, stepping down until a configuration works or LT_FAIL.
-/
def execTrain (m : Master) (h : Fin 8) (rate : Fin 4) (lanes : Fin 3) (psr : Bool) (good : BitVec 16) (s : State) : Out :=
  s.act fun c => (c.regWrite m .shDpcmd h.1 0 1).trainNow h.1 rate.1 lanes.1 psr good.toNat

/-- HPD_PLUG (R187): A rising HPD with AUTO_LT trains the link. -/
def execHpdPlug (h : Fin 8) (rate : Fin 4) (lanes : Fin 3) (psr : Bool) (good : BitVec 16) (s : State) : Out :=
  s.act fun c => c.whenOn (29 + h.1) fun c => c.hpdPlug h.1 rate.1 lanes.1 good.toNat psr

/-- HPD_UNPLUG (R188): HPD low for more than 2 ms clears TRAINED and idles the link. -/
def execHpdUnplug (h : Fin 8) (s : State) : Out := s.act fun c => c.whenOn (29 + h.1) fun c => c.hpdUnplug h.1

/-- HPD_IRQ (R188): An HPD pulse of 0.25–2 ms makes the head check link status and retrain if needed. -/
def execHpdIrq (h : Fin 8) (failed : Bool) (good : BitVec 16) (s : State) : Out :=
  s.act fun c => c.whenOn (29 + h.1) fun c => c.hpdIrq h.1 failed good.toNat

/-- AUX_TRANSACTION (R189): A write to SHn_AUXCTRL starts one AUX transaction. -/
def execAuxTransaction (m : Master) (h : Fin 8) (v : BitVec 32) (s : State) : Out :=
  s.act fun c => c.regWrite m .shAuxctrl h.1 0 v.toNat

/-- AUX_REPLY (R189): An AUX reply ends the transaction or causes a DEFER retry. -/
def execAuxReply (h : Fin 8) (r : AuxReply) (s : State) : Out :=
  s.act fun c => c.whenOn (29 + h.1) fun c => c.auxReply h.1 r

/-- AUX_TIMEOUT (R189): 400 µs without a reply ends the transaction with TIMEOUT. -/
def execAuxTimeout (h : Fin 8) (s : State) : Out := s.act fun c => c.whenOn (29 + h.1) fun c => c.auxTimeout h.1

/-- PSR_ENTER (R192): PSR_ENTER puts an eDP head into self-refresh at its next latch instant. -/
def execPsrEnter (m : Master) (h : Fin 8) (s : State) : Out := s.act fun c => c.regWrite m .shDpcmd h.1 0 2

/-- PSR_EXIT (R193): PSR_EXIT restarts a head in self-refresh. -/
def execPsrExit (m : Master) (h : Fin 8) (s : State) : Out := s.act fun c => c.regWrite m .shDpcmd h.1 0 4

end Sys2Proof.Machine
end

