-- ==== Sys2Proof/Machine/HostRows.lean ====
section
/-! DEFINITION. The host link and the SMBus target. -/

namespace Sys2Proof.Machine

/-- BAR_REQUEST (R480): A host request through a BAR becomes a fabric access with the function's identity. -/
def execBarRequest (f : Fin 2) (bar : Fin 3) (write : Bool) (o : BitVec 30) (size : Nat) (v : Nat) (s : State) : Out :=
  s.act fun c => c.barRequest f.1 bar.1 write o.toNat size v

/-- OUTBOUND_ACCESS (R483): An access to OBCHIP goes to host memory through an outbound window. -/
def execOutboundAccess (e : OutboundEvent) (s : State) : Out := s.act fun c => c.outbound e

/-- OUTBOUND_TIMEOUT (R483): A host that does not answer within 50 ms ends the access with TARGET. -/
def execOutboundTimeout (n : Nat) (s : State) : Out := s.act fun c => c.outboundTimeout n

/-- VECTOR_UNMASK (R482): Unmasking a vector with its pending bit set sends it once. -/
def execVectorUnmask (f : Fin 2) (v : Fin 64) (s : State) : Out := s.act fun c => c.vectorUnmask f.1 v.1

/-- SMB_BOOT_STATUS (R484): SMBus command 0x01 returns SYS_BOOT and SYS_RSTCAUSE. -/
def execSmbBootStatus (s : State) : Out := s.act fun c => c.smbBoot

/-- SMB_ID (R484): SMBus command 0x02 returns HST_ID. -/
def execSmbId (s : State) : Out := s.act fun c => c.smbId

/-- SMB_DIGEST (R484): SMBus command 0x03 returns HST_DIGEST0–7. -/
def execSmbDigest (s : State) : Out := s.act fun c => c.smbDigest

/-- SMB_SET_ADDRESS (R484): SMBus command 0x10 sets the access address and begins a read. -/
def execSmbSetAddress (pecOk : Bool) (a : BitVec 32) (s : State) : Out := s.act fun c => c.smbSetAddress pecOk a.toNat

/-- SMB_READ (R484): SMBus command 0x11 returns the read status and value. -/
def execSmbRead (s : State) : Out := s.act fun c => c.smbRead

/-- SMB_WRITE (R484): SMBus command 0x12 writes a value and advances the address. -/
def execSmbWrite (pecOk : Bool) (v : BitVec 32) (s : State) : Out := s.act fun c => c.smbWrite pecOk v.toNat

/-- SMB_WRITE_STATUS (R484): SMBus command 0x13 returns the status of the last write. -/
def execSmbWriteStatus (s : State) : Out := s.act fun c => c.smbWriteStatus

/-- PARK (R484): Footing command 0x01 parks every port. -/
def execFootPark (pecOk : Bool) (s : State) : Out := s.act fun c => c.smbFooting pecOk 1

/-- RELOAD (R484): Footing command 0x02 performs a keystone reset. -/
def execFootReload (pecOk : Bool) (s : State) : Out := s.act fun c => c.smbFooting pecOk 2

/-- FOOTING_COLD (R484): Footing command 0x03 performs a cold reset. -/
def execFootCold (pecOk : Bool) (s : State) : Out := s.act fun c => c.smbFooting pecOk 3

end Sys2Proof.Machine
end

