-- ==== Sys2Proof/Machine/Line.lean ====
section
/-! DEFINITION. Line program commands. -/

namespace Sys2Proof.Machine

/-- END (R87): END stops the engine for the rest of the frame, releasing remaining lines. -/
def execLpEnd (n : Fin 8) (s : State) : Out := s.act fun c => c.lpeRow n.1 [0] fun _ t => t.lpeEnd n.1

/-- WAIT (R90): WAIT y releases lines C to y-1 and sets C to y. -/
def execLpWait (n : Fin 8) (s : State) : Out := s.act fun c => c.lpeRow n.1 [1] fun w t => t.lpeWait n.1 (bits w 15 0)

/-- WAITR (R87): WAITR d acts as WAIT C + d. -/
def execLpWaitr (n : Fin 8) (s : State) : Out :=
  s.act fun c => c.lpeRow n.1 [2] fun w t => t.lpeWait n.1 ((t.lpe n.1).line + bits w 15 0)

/-- WR (R87): WR writes N values to consecutive line copies of a layer. -/
def execLpWr (n : Fin 8) (s : State) : Out := s.act fun c => c.lpeRow n.1 [3] fun w t => t.lpeWr n.1 false w

/-- WRT (R87): WRT writes N table values from TP to line copies and advances TP. -/
def execLpWrt (n : Fin 8) (s : State) : Out := s.act fun c => c.lpeRow n.1 [4] fun w t => t.lpeWr n.1 true w

/-- ADD (R87): ADD adds an addend to a layer line copy. -/
def execLpAdd (n : Fin 8) (s : State) : Out := s.act fun c => c.lpeRow n.1 [5] fun w t => t.lpeAdd n.1 w

/-- WRP (R87): WRP writes N palette entries of a bank. -/
def execLpWrp (n : Fin 8) (s : State) : Out := s.act fun c => c.lpeRow n.1 [6] fun w t => t.lpeWrp n.1 w

/-- WRM (R87): WRM writes N matrix components. -/
def execLpWrm (n : Fin 8) (s : State) : Out := s.act fun c => c.lpeRow n.1 [7] fun w t => t.lpeWrm n.1 w

/-- SETC (R87): SETC sets a loop counter. -/
def execLpSetc (n : Fin 8) (s : State) : Out := s.act fun c => c.lpeRow n.1 [8] fun w t => t.lpeSetc n.1 w

/-- DJNZ (R87): DJNZ decrements a counter and branches while it is not 0. -/
def execLpDjnz (n : Fin 8) (s : State) : Out := s.act fun c => c.lpeRow n.1 [9] fun w t => t.lpeDjnz n.1 w

/-- JUMP (R87): JUMP branches to its target. -/
def execLpJump (n : Fin 8) (s : State) : Out := s.act fun c => c.lpeRow n.1 [10] fun _ t => t.lpeJump n.1

/-- CALL (R87): CALL pushes the return address and branches, stopping the engine on overflow. -/
def execLpCall (n : Fin 8) (s : State) : Out := s.act fun c => c.lpeRow n.1 [11] fun _ t => t.lpeCall n.1

/-- RET (R87): RET pops an address and branches, stopping the engine on an empty stack. -/
def execLpRet (n : Fin 8) (s : State) : Out := s.act fun c => c.lpeRow n.1 [12] fun _ t => t.lpeRet n.1

/-- SETP (R87): SETP sets the table pointer. -/
def execLpSetp (n : Fin 8) (s : State) : Out := s.act fun c => c.lpeRow n.1 [13] fun _ t => t.lpeSetp n.1

/-- BAD_CMD (R87): A reserved command code stops the engine and sets BAD_CMD. -/
def execLpBadCmd (n : Fin 8) (s : State) : Out :=
  s.act fun c => c.lpeRow n.1 [14, 15] fun _ t => t.lpeStop n.1 F.lpeStat_BAD_CMD

/-- LINE_RELEASE (R97): A held WAIT releases further lines as the allowed line passes them. -/
def execLineRelease (n : Fin 8) (s : State) : Out := s.act fun c => c.whenOn (29 + n.1) fun c => c.lineRelease n.1

/-- RUNAWAY (R99): After STEPS steps without releasing a line the engine stops and sets RUNAWAY. -/
def execRunaway (n : Fin 8) (s : State) : Out := s.act fun c => c.whenOn (29 + n.1) fun c => c.lpeRunaway n.1

end Sys2Proof.Machine
end

