-- ==== Sys2Proof/Machine/LinkRows.lean ====
section
/-! DEFINITION. Lintel links and the canvas. -/

namespace Sys2Proof.Machine

/-- PACKET_RECEIVE (R443): A link receiver accepts, discards or NAKs a packet by sequence and CRC. -/
def execPacketReceive (l : Fin 4) (p : Packet) (good : Bool) (s : State) : Out :=
  s.act fun c => c.whenOn (60 + l.1) fun c => c.packetReceive l.1 p good

/-- ACK (R443): An ACK releases acknowledged packets from the replay buffer. -/
def execLinkAck (l : Fin 4) (n : BitVec 12) (s : State) : Out :=
  s.act fun c => c.whenOn (60 + l.1) fun c => c.linkAck l.1 n.toNat

/-- NAK (R443): A NAK makes the sender resend from the oldest unacknowledged packet. -/
def execLinkNak (l : Fin 4) (s : State) : Out := s.act fun c => c.whenOn (60 + l.1) fun c => c.linkNak l.1

/-- CREDIT (R442): A CREDIT block returns buffer credits to a virtual lane. -/
def execLinkCredit (l : Fin 4) (vl : Fin 4) (n : BitVec 16) (s : State) : Out :=
  s.act fun c => c.whenOn (60 + l.1) fun c => c.linkCredit l.1 vl.1 n.toNat

/-- ACK_TIMEOUT (R443): No ACK for 10 µs makes the sender resend, retraining after RETRYMAX. -/
def execAckTimeout (l : Fin 4) (s : State) : Out := s.act fun c => c.whenOn (60 + l.1) fun c => c.ackTimeout l.1

/-- RETRAIN (R444): A link retrains, keeping sequence numbers, replay and credits, and goes DOWN after three failures.
-/
def execRetrain (l : Fin 4) (good : Bool) (peer : BitVec 10) (s : State) : Out :=
  s.act fun c => c.whenOn (60 + l.1) fun c => c.retrain l.1 good peer.toNat

/-- LANE_SPARE (R445): A failing lane is replaced by the spare, or the link narrows. -/
def execLaneSpare (l : Fin 4) (p : Fin 5) (s : State) : Out :=
  s.act fun c => c.whenOn (60 + l.1) fun c => c.laneSpare l.1 p.1

/-- ROUTE_NOTICE (R449): A route notice makes every package recompute routes and hold affected requests. -/
def execRouteNotice (chip : BitVec 10) (l : Fin 4) (s : State) : Out := s.act fun c => c.routeNotice chip.toNat l.1

/-- RESPONSE_TIMEOUT (R450): A remote request unanswered for 1 ms ends with TARGET. -/
def execResponseTimeout (tag : BitVec 16) (s : State) : Out := s.act fun c => c.reqTimeout tag.toNat

/-- BROADCAST (R452): A write to BCCHIP is carried to and performed at every package. -/
def execBroadcast (m : Master) (a : BitVec 30) (size : Fin 5) (v : BitVec 128) (s : State) : Out :=
  s.act fun c => c.direct m true (c.fld F.lnkBcast_BCCHIP * 2 ^ 30 + a.toNat) (2 ^ size.1) v.toNat

/-- TALIGN (R453): A member exchanges TALIGN packets with its parent and computes delay and offset. -/
def execTalign (l : Fin 4) (t1 : BitVec 64) (t2 : BitVec 64) (t3 : BitVec 64) (t4 : BitVec 64) (adj : Bool) (up : Bool) (s : State) : Out :=
  s.act fun c => c.whenOn (60 + l.1) fun c => c.talign l.1 t1.toNat t2.toNat t3.toNat t4.toNat adj up

/-- TICK_ADJUST (R454): The member adds or withholds a tick or trims its PLL toward its parent. -/
def execTickAdjust (s : State) : Out := s.act fun c => c.tickAdjust

/-- LATE_JOIN (R456): A package reporting after formation loads its count or withholds ticks if ahead. -/
def execLateJoin (n : BitVec 64) (s : State) : Out := s.act fun c => c.lateJoin n.toNat

end Sys2Proof.Machine
end

