-- ==== Sys2Proof/Machine/PinRows.lean ====
section
/-! DEFINITION. Pins and serial peripherals. -/

namespace Sys2Proof.Machine

/-- FUNC_CHANGE (R411): A write of FUNC passes the pad to the new function within 2 tk without a glitch. -/
def execFuncChange (m : Master) (p : Fin 1024) (v : BitVec 32) (s : State) : Out :=
  s.act fun c => c.regWrite m .pinCfg p.1 0 v.toNat

/-- PIN_SET (R414): A write to PIN_SETb sets latch bits. -/
def execPinSet (m : Master) (b : Fin 32) (v : BitVec 32) (s : State) : Out :=
  s.act fun c => c.regWrite m .pinSet b.1 0 v.toNat

/-- PIN_CLR (R414): A write to PIN_CLRb clears latch bits. -/
def execPinClr (m : Master) (b : Fin 32) (v : BitVec 32) (s : State) : Out :=
  s.act fun c => c.regWrite m .pinClr b.1 0 v.toNat

/-- PIN_TGL (R414): A write to PIN_TGLb inverts latch bits. -/
def execPinTgl (m : Master) (b : Fin 32) (v : BitVec 32) (s : State) : Out :=
  s.act fun c => c.regWrite m .pinTgl b.1 0 v.toNat

/-- LOCK_KEY (R416): A write to PIN_LOCKKEY advances, breaks or completes a port lock sequence. -/
def execLockKey (m : Master) (v : BitVec 32) (s : State) : Out := s.act fun c => c.regWrite m .pinLockkey 0 0 v.toNat

/-- PIN_PARK (R418): A park drives every port to its park state and takes it from every function. -/
def execPinPark (m : Master) (s : State) : Out := s.act fun c => c.regWrite m .sysPark 0 0 1

/-- UNPARK (R419): A write of GO to PIN_UNPARK releases ports of good banks to their functions. -/
def execUnpark (m : Master) (s : State) : Out := s.act fun c => c.regWrite m .pinUnpark 0 0 1

/-- VIO_CHANGE (R408): A bank's supply match changes VIO_OK, setting VIO_ERR or releasing the bank. -/
def execVioChange (b : Fin 32) (v : Fin 3) (s : State) : Out := s.vioChange b.1 v.1

/-- WAKE_EDGE (R420): A held edge on a wake pin is a wake source. -/
def execWakeEdge (p : Fin 1024) (rising : Bool) (s : State) : Out := s.act fun c => c.wakeEdge p.1 rising

/-- PIN_EDGE (R421): An edge detector produces its event for a filtered edge. -/
def execPinEdge (p : Fin 1024) (level : Option Bool) (k : Option (Fin 16)) (s : State) : Out :=
  s.always fun c => c.pinEdge p.1 level k

/-- SERIAL_PUSH (R422): A write to a serial DATA register pushes a word or sets TXOVR. -/
def execSerialPush (m : Master) (x : Fin 32) (v : BitVec 32) (s : State) : Out :=
  s.act fun c => c.regWrite m (serialDataReg x.1).1 (serialDataReg x.1).2 0 v.toNat

/-- SERIAL_POP (R422): A read of a serial DATA register pops a received word. -/
def execSerialPop (m : Master) (x : Fin 32) (s : State) : Out :=
  s.act fun c => c.regRead m (serialDataReg x.1).1 (serialDataReg x.1).2 0

/-- UART_FRAME (R423): A UART sends or receives one character frame. -/
def execUartFrame (u : Fin 16) (rx : Option (BitVec 8 × Bool)) (s : State) : Out :=
  s.act fun c => c.whenOn 59 fun c => (c.uartFrame u.1 rx).dmaLevels

/-- SPI_FRAME (R423): An SPI controller shifts one frame. -/
def execSpiFrame (q : Fin 8) (w : BitVec 32) (s : State) : Out :=
  s.act fun c => c.whenOn 59 fun c => (c.spiFrame q.1 w.toNat).dmaLevels

/-- I2C_BYTE (R423): An I2C controller performs one byte step. -/
def execI2cByte (i : Fin 8) (e : I2cEvent) (s : State) : Out :=
  s.act fun c => c.whenOn 59 fun c => (c.i2cByte i.1 e).dmaLevels

end Sys2Proof.Machine
end

