-- ==== Sys2Proof/Machine/PowerRows.lean ====
section
/-! DEFINITION. Power domains and states, temperature, VCORE. -/

namespace Sys2Proof.Machine

/-- DOMAIN_OFF (R486): A write of GO to PSM_DOMOFF turns a domain off until reset. -/
def execDomainOff (m : Master) (d : BitVec 7) (s : State) : Out :=
  s.act fun c => c.regWrite m .psmDomoff 0 0 (2 ^ 31 + d.toNat)

/-- CORE_GATE (R491): A core in WAITING for GATE_DLY has its domain gated and becomes ASLEEP. -/
def execCoreGate (k : Fin 8) (s : State) : Out := s.act fun c => c.coreGate k.1

/-- STATE_ENTRY (R492): After ENTRY_DLY with its conditions held, the device enters a deeper power state. -/
def execStateEntry (s : State) : Out := s.act fun c => c.stateEntry

/-- WAKE (R493): A wake source ends S2, S3 or S4 and takes the device to S0. -/
def execWake (s : State) : Out := s.act fun c => c.wake

/-- STATE_EXIT (R493): An exit completes, setting SUSP, recording the cause and raising event 380. -/
def execStateExit (s : State) : Out := s.act fun c => c.stateExit

/-- ALARM (R493): The PSM alarm fires when the count reaches its instant. -/
def execAlarm (s : State) : Out := s.act fun c => c.alarm

/-- PSM_WAKE (R493): A write of GO to PSM_WAKE wakes the device to S0. -/
def execPsmWake (m : Master) (s : State) : Out := s.act fun c => c.regWrite m .psmWake 0 0 1

/-- REARM (R493): A write of REARM clears SUSP. -/
def execRearm (m : Master) (v : BitVec 32) (s : State) : Out :=
  s.act fun c => c.regWrite m .psmCtrl 0 0 (v.toNat % 2 ^ 30 + 2 ^ 30 + v.toNat / 2 ^ 31 * 2 ^ 31)

/-- TOLERANCE_CHANGE (R494): A tolerance below the present exit latency moves the device to a state that fits. -/
def execToleranceChange (s : State) : Out := s.act fun c => c.toleranceChange

/-- THERM_HI (R498): A junction at 110 °C or more sets THERM_HI. -/
def execThermHi (tj : Int) (s : State) : Out := s.act fun c => c.thermHi tj

/-- THERM_TRIP (R498): At 120 °C the device parks, turns switched domains off and requests VMIN. -/
def execThermTrip (tj : Int) (s : State) : Out := s.act fun c => c.thermTrip tj

/-- THERM_RECOVER (R498): After a trip, cooling to 100 °C restarts the device. -/
def execThermRecover (tj : Int) (s : State) : Out := s.act fun c => c.thermRecover tj

/-- AVS_PERIOD (R500): Every 100 µs the pace law adjusts the VCORE request over PMBus. -/
def execAvsPeriod (paces : List Nat) (ack : Bool) (s : State) : Out := s.act fun c => c.avsPeriod paces ack

/-- WEAR_REFRESH (R502): Each pace monitor's WEAR is refreshed once per second. -/
def execWearRefresh (wears : List Nat) (s : State) : Out := s.act fun c => c.wearRefresh wears

end Sys2Proof.Machine
end

