-- ==== Sys2Proof/Machine/RailRows.lean ====
section
/-! DEFINITION. Rails, clocks and the host link's state. -/

namespace Sys2Proof.Machine

/-- RAIL_ENTER (R525): A rail held in its window for 100 µs sets its OK bit. -/
def execRailEnter (r : Fin 5) (s : State) : Out := s.railEnter r.1

/-- RAIL_LEAVE (R531): A rail leaving its window for more than 2 µs sets its LOST bit with the outcome of its row. -/
def execRailLeave (r : Fin 5) (s : State) : Out := s.railLeave r.1

/-- TB_PLL_LOCK (R375): The time-base PLL first locks to its reference within 2 ms of VAON, the count moving from the
on-die oscillator to the PLL and PLL_LOCK becoming 1. -/
def execTbPllLock (s : State) : Out := s.always fun c => c.tbPllLock

/-- AUDIO_PLL_LOCK (R205): The audio PLLs reach lock after PLL_EN is set and AUD_STAT.PLL_LOCK becomes 1, which a RUN
write requires. -/
def execAudioPllLock (s : State) : Out := s.act fun c => c.whenOn 44 fun c => c.audPllLock

/-- CONFIGURATION_REQUEST (R481): A PCI Express configuration request from the host is answered with Configuration
Request Retry Status before start-up, and otherwise reads or writes configuration space such as Bus Master Enable,
MSI-X enable and the D-state. -/
def execConfigurationRequest (f : Fin 2) (r : CfgReg) (write : Bool) (v : BitVec 32) (s : State) : Out :=
  s.act fun c => c.cfgRequest f.1 r write v.toNat

/-- PCIE_LINK_STATE (R488): The PCI Express link goes down or comes back up, which changes whether S4 may be entered.
-/
def execPcieLinkState (up : Bool) (s : State) : Out := s.act fun c => c.pcieLink up

/-- TESTMODE (R523): While the TESTMODE ball reads high, the always-on block holds the Moarix in power-on reset. -/
def execTestmode (high : Bool) (s : State) : Out := s.testmode high

end Sys2Proof.Machine
end

