-- ==== Sys2Proof/Machine/ResetRows.lean ====
section
/-! DEFINITION. Start-up, resets, the watchdog, the boot engine. -/

namespace Sys2Proof.Machine

/-- START_UP (R468): After a reset the always-on block checks, powers, parks, loads and releases the device. -/
def execStartUp (e : StartEnv) (s : State) : Out := s.act fun c => c.startUp e

/-- POWER_ON_RESET (R526): VAON or VDDIO_AON leaving its window holds the device in power-on reset. -/
def execPowerOnReset (vaonLost : Bool) (s : State) : Out := s.powerOnReset vaonLost

/-- POWER_ON_RESET_RELEASE (R526): Power-on reset releases 1 ms after both always-on rails are in window. -/
def execPowerOnResetRelease (straps : BitVec 10) (s : State) : Out := s.powerOnRelease straps.toNat

/-- RESET_N (R536): A low level on RESET_N for at least 1 µs begins a cold reset. -/
def execResetN (straps : BitVec 10) (s : State) : Out := s.act fun c => c.resetN straps.toNat

/-- COLD (R474): SYS_RESET KIND 2 performs a cold reset. -/
def execColdReset (m : Master) (s : State) : Out := s.act fun c => c.regWrite m .sysReset 0 0 0x7E510002

/-- KEYSTONE (R474): SYS_RESET KIND 1 performs a keystone reset. -/
def execKeystoneReset (m : Master) (s : State) : Out := s.act fun c => c.regWrite m .sysReset 0 0 0x7E510001

/-- PERST (R474): PERST# resets the host functions, or the whole keystone where PERST_FULL is 1. -/
def execPerst (s : State) : Out := s.act fun c => c.perst

/-- FUNCTION_LEVEL_RESET (R474): A Function Level Reset clears one host function's configuration. -/
def execFunctionLevelReset (f : Fin 2) (s : State) : Out := s.act fun c => c.funcReset f.1

/-- WATCHDOG_BITE (R476): The watchdog reaching 0 performs a keystone reset. -/
def execWatchdogBite (s : State) : Out := s.act fun c => c.wdogBite

/-- WATCHDOG_KICK (R476): A kick with the right key restarts the watchdog count. -/
def execWatchdogKick (m : Master) (v : BitVec 32) (s : State) : Out :=
  s.act fun c => c.regWrite m .sysWdogKick 0 0 v.toNat

/-- BOOT_READ (R478): The boot engine READ command reads 256 bytes. -/
def execBootRead (m : Master) (s : State) : Out := s.act fun c => c.regWrite m .hstBfCmd 0 0 1

/-- PROGRAM (R478): The boot engine PROGRAM command writes a 256-byte page. -/
def execBootProgram (m : Master) (s : State) : Out := s.act fun c => c.regWrite m .hstBfCmd 0 0 2

/-- ERASE4K (R478): The boot engine ERASE4K command erases a 4 KiB sector. -/
def execBootErase4k (m : Master) (s : State) : Out := s.act fun c => c.regWrite m .hstBfCmd 0 0 3

/-- ERASE64K (R478): The boot engine ERASE64K command erases a 64 KiB sector. -/
def execBootErase64k (m : Master) (s : State) : Out := s.act fun c => c.regWrite m .hstBfCmd 0 0 4

/-- BOOT_CMD_DONE (R478): A boot-memory command completes and sets DONE or FAIL. -/
def execBootCmdDone (ok : Bool) (s : State) : Out := s.act fun c => c.bfDone ok

end Sys2Proof.Machine
end

