-- ==== Sys2Proof/Machine/Scan.lean ====
section
/-! DEFINITION. What a scan head does along its frame. -/

namespace Sys2Proof.Machine

/-- LATCH (R21): At the start of the latch line the head takes the pending frame address, new sources, assignments and
latch-class registers, and begins reading line 0. -/
def execLatch (h : Fin 8) (frac : BitVec 16) (s : State) : Out :=
  s.act fun c => c.whenOn (29 + h.1) fun c => c.latch h.1 frac.toNat

/-- LINE_READ (R14): The head reads line y of its frame store during the beam line before it, in 128-bit beats. -/
def execLineRead (h : Fin 8) (y : BitVec 16) (given : BitVec 16) (s : State) : Out :=
  s.act fun c => c.whenOn (29 + h.1) fun c => c.lineRead h.1 y.toNat given.toNat

/-- VBLANK (R176): The head raises VBLANK at the start of line VA. -/
def execVblank (h : Fin 8) (s : State) : Out := s.act fun c => c.whenOn (29 + h.1) fun c => c.vblank h.1

/-- FRAME_DONE (R176): The head raises FRAME_DONE when the last active pixel passes the scan tap. -/
def execFrameDone (h : Fin 8) (s : State) : Out := s.act fun c => c.whenOn (29 + h.1) fun c => c.frameDone h.1

/-- LMATCH (R179): A line match fires at its dot and line while enabled. -/
def execLmatch (h : Fin 8) (k : Fin 2) (s : State) : Out := s.act fun c => c.whenOn (29 + h.1) fun c => c.lmatch h.1 k.1

end Sys2Proof.Machine
end

