-- ==== Sys2Proof/Machine/SeqRows.lean ====
section
/-! DEFINITION. Pin sequencers. -/

namespace Sys2Proof.Machine

/-- PSQ_STOP (R427): STOP halts the sequencer on the STOP. -/
def execPsqStop (q : Fin 64) (s : State) : Out := s.act fun c => c.psqRow q.1 0 fun _ t => t.psqStopHere q.1

/-- BRANCH (R427): BRANCH goes to ADDR where its condition holds. -/
def execPsqBranch (q : Fin 64) (s : State) : Out := s.act fun c => c.psqRow q.1 1 fun w t => t.psqBranch q.1 w

/-- AWAIT (R427): AWAIT waits for TR, a level, an edge or a task arrival. -/
def execPsqAwait (q : Fin 64) (s : State) : Out := s.act fun c => c.psqRow q.1 2 fun w t => t.psqAwait q.1 w

/-- AWAIT_END (R430): A wait ends when its condition appears, recording CAP and TR for edges. -/
def execPsqAwaitEnd (q : Fin 64) (rising : Bool) (off : Fin 3) (s : State) : Out :=
  s.act fun c => c.whenSeq q.1 fun c => c.psqAwaitEnd q.1 rising off.1

/-- STAMP (R427): STAMP sets the time register. -/
def execPsqStamp (q : Fin 64) (s : State) : Out := s.act fun c => c.psqRow q.1 3 fun w t => t.psqStamp q.1 w

/-- DRIVE (R428): DRIVE shifts bits from SR to group pins. -/
def execPsqDrive (q : Fin 64) (s : State) : Out := s.act fun c => c.psqRow q.1 4 fun w t => t.psqAt q.1 w

/-- SAMPLE (R428): SAMPLE shifts bits into SR from pins or a source. -/
def execPsqSample (q : Fin 64) (s : State) : Out := s.act fun c => c.psqRow q.1 5 fun w t => t.psqAt q.1 w

/-- PUT (R427): PUT sets pins, LC or DR from immediate fields. -/
def execPsqPut (q : Fin 64) (s : State) : Out := s.act fun c => c.psqRow q.1 6 fun w t => t.psqAt q.1 w

/-- FETCH (R431): FETCH loads SR from the TX FIFO, or from IDLE and sets UNDERRUN. -/
def execPsqFetch (q : Fin 64) (s : State) : Out := s.act fun c => (c.psqRow q.1 7 fun w t => t.psqFetch q.1 w).dmaLevels

/-- DEPOSIT (R431): DEPOSIT pushes SR into the RX FIFO, or discards and sets OVERRUN. -/
def execPsqDeposit (q : Fin 64) (s : State) : Out :=
  s.act fun c => (c.psqRow q.1 8 fun w t => t.psqDeposit q.1 w).dmaLevels

/-- COPY (R427): COPY moves one sequencer register to another. -/
def execPsqCopy (q : Fin 64) (s : State) : Out := s.act fun c => c.psqRow q.1 9 fun w t => t.psqAt q.1 w

/-- SIGNAL (R436): SIGNAL raises event 360 + J. -/
def execPsqSignal (q : Fin 64) (s : State) : Out := s.act fun c => c.psqRow q.1 10 fun w t => t.psqAt q.1 w

/-- BAD_INST (R427): A reserved sequencer operation halts the sequencer and sets BAD_INST. -/
def execPsqBadInst (q : Fin 64) (s : State) : Out := s.act fun c => c.whenSeq q.1 fun c => c.psqBad q.1

/-- TIMED_ACTION (R429): An AT action takes effect at the first tick past TR and b + 10. -/
def execPsqTimedAction (q : Fin 64) (s : State) : Out := s.act fun c => c.whenSeq q.1 fun c => c.psqTimed q.1

/-- FIFO_WAIT_END (R431): A blocking FETCH or DEPOSIT ends when data or room arrives. -/
def execPsqFifoWaitEnd (q : Fin 64) (s : State) : Out :=
  s.act fun c => c.whenSeq q.1 fun c => (c.psqFifoEnd q.1).dmaLevels

/-- PSQ_HALT (R432): HALT stops the sequencer at once, abandoning a waiting instruction. -/
def execPsqHalt (m : Master) (q : Fin 64) (s : State) : Out := s.act fun c => c.regWrite m .psqCmd q.1 0 2

/-- PSQ_RESUME (R432): RESUME continues at PC with all state. -/
def execPsqResume (m : Master) (q : Fin 64) (s : State) : Out := s.act fun c => c.regWrite m .psqCmd q.1 0 4

/-- RESTART (R432): RESTART sets PC to ENTRY and clears SR and SC. -/
def execPsqRestart (m : Master) (q : Fin 64) (s : State) : Out := s.act fun c => c.regWrite m .psqCmd q.1 0 1

/-- FLUSH (R432): FLUSH empties both FIFOs while halted. -/
def execPsqFlush (m : Master) (q : Fin 64) (s : State) : Out := s.act fun c => c.regWrite m .psqCmd q.1 0 8

/-- SEQUENCER_ROTATION (R425): A spare sequencer takes over between two instructions. -/
def execPsqRotation (q : Fin 64) (p : Fin 68) (s : State) : Out := s.act fun c => c.psqRotate q.1 p.1

end Sys2Proof.Machine
end

