-- ==== Sys2Proof/Machine/SourceRows.lean ====
section
/-! DEFINITION. Interrupt sources, claims and mailboxes. -/

namespace Sys2Proof.Machine

/-- SOURCE_EDGE (R325): An interrupt source edge or arrival sets its pending bit. -/
def execSourceEdge (n : Fin 512) (s : State) : Out :=
  s.act fun c => c.whenOn 49 fun c => if n.1 = 0 then c else c.raiseSource n.1

/-- SWSET (R324): A write to INTC_SWSET raises the named source. -/
def execSwset (m : Master) (n : BitVec 9) (s : State) : Out := s.act fun c => c.regWrite m .intcSwset 0 0 n.toNat

/-- CORE_WAKE_DONE (R329): A woken sleeper enters WAITING once its domain is powered. -/
def execCoreWakeDone (k : Fin 8) (s : State) : Out := s.act fun c => c.coreWakeDone k.1

/-- CLAIM (R330): A claim read returns the highest assigned source, clears it and raises the running priority. -/
def execClaim (m : Master) (k : Fin 8) (s : State) : Out := s.act fun c => c.regRead m .intcClaim k.1 0

/-- MAILBOX_SEND (R336): A SEND step queues the issuer's message on a channel or returns a refusal code. -/
def execMailboxSend (id : BitVec 7) (ch : BitVec 9) (s : State) : Out :=
  s.act fun c => c.whenOn 50 fun c => c.mailboxSend id.toNat ch.toNat

/-- MAILBOX_RECV (R337): A RECV step moves the oldest message to the issuer's receive words. -/
def execMailboxRecv (id : BitVec 7) (ch : BitVec 9) (s : State) : Out :=
  s.act fun c => c.whenOn 50 fun c => c.mailboxRecv id.toNat ch.toNat

/-- CHANNEL_CFG_WRITE (R340): A write to MBX_CHc_CFG sets the channel unless it is refused. -/
def execChannelCfgWrite (m : Master) (ch : Fin 256) (v : BitVec 32) (s : State) : Out :=
  s.act fun c => c.regWrite m .mbxChCfg ch.1 0 v.toNat

/-- TMO (R342): A message held beyond TIMEOUT sets TMO and raises MBX_TMO. -/
def execChannelTimeout (ch : Fin 288) (s : State) : Out := s.act fun c => c.mbxTimeout ch.1

end Sys2Proof.Machine
end

