-- ==== Sys2Proof/Machine/StoreRows.lean ====
section
/-! DEFINITION. The stores: scrubbing, the error log, repair. -/

namespace Sys2Proof.Machine

/-- SCRUB (R362): The patrol reads an unclaimed beat and handles any error. -/
def execScrub (a : BitVec 30) (s : State) : Out := s.act fun c => c.whenOn 41 fun c => c.scrub a.toNat

/-- ELOG_POP (R364): A write to FAB_ELOG_POP removes the oldest error record. -/
def execElogPop (m : Master) (s : State) : Out := s.act fun c => c.regWrite m .fabElogPop 0 0 1

/-- CE_HOUR_END (R366): A store's error hour ends and is forgotten or has set CE_HIGH. -/
def execCeHourEnd (st : Fin 64) (s : State) : Out := s.act fun c => c.whenOn 41 fun c => c.ceHourEnd st.1

/-- SPARE_GO (R367): A write of GO to FAB_SPARE_CMD starts a bank or row replacement, or is refused. -/
def execSpareGo (m : Master) (v : BitVec 32) (s : State) : Out :=
  s.act fun c => c.regWrite m .fabSpareCmd 0 0 (v.toNat % 2 ^ 31 + 2 ^ 31)

/-- COPY_DONE (R367): The spare copy ends and new accesses to the bank are held for DRAIN. -/
def execCopyDone (s : State) : Out := s.act fun c => c.whenOn 41 fun c => c.copyDone

/-- DRAIN_DONE (R367): Accepted accesses complete, the bank is fenced and the map switched to the spare. -/
def execDrainDone (s : State) : Out := s.act fun c => c.whenOn 41 fun c => c.drainDone

/-- ROW_SWITCH (R371): A frame-store row switches to its spare at a line start with no write-back in flight. -/
def execRowSwitch (s : State) : Out := s.act fun c => c.whenOn 41 fun c => c.rowSwitch

/-- LANE_ROTATION (R111): A spare physical lane replaces a lane between two courses. -/
def execLaneRotation (j : Fin 16) (p : Fin 20) (s : State) : Out :=
  s.act fun c => c.whenOn 37 fun c => c.laneRotate j.1 p.1

end Sys2Proof.Machine
end

