-- ==== Sys2Proof/Machine/TimeRows.lean ====
section
/-! DEFINITION. The time base, compare, interval and capture channels, the converter, events. -/

namespace Sys2Proof.Machine

/-- TICK (R374): The time base advances by one tick. -/
def execTick (s : State) : Out := s.always fun c => (c.samplePads.advance 1).noteCalm

/-- REF_LOST (R375): Loss of the reference makes the PLL hold and sets REF_LOST. -/
def execRefLost (s : State) : Out := s.act fun c => c.refLost

/-- REF_RETURN (R375): A returned reference is relocked without a step in the count. -/
def execRefReturn (s : State) : Out := s.act fun c => c.refReturn

/-- TB_READ (R377): A read of TB_LO returns the count and latches TB_HI for the reader. -/
def execTbRead (m : Master) (s : State) : Out := s.act fun c => c.regRead m .tbLo 0 0

/-- COMPARE_ARM (R380): A write to TIM_CMPc_VAL_HI commits V, arms the channel and evaluates it. -/
def execCompareArm (m : Master) (i : Fin 256) (v : BitVec 32) (s : State) : Out :=
  s.act fun c => c.regWrite m .cmpValHi i.1 0 v.toNat

/-- COMPARE_FIRE (R382): A compare channel fires, sets FIRED, raises its event, acts on its output and re-arms if
periodic. -/
def execCompareFire (i : Fin 256) (s : State) : Out := s.act fun c => c.whenOn 47 fun c => c.compareFire i.1

/-- DISARM (R384): DISARM clears ARMED and leaves the output as it stands. -/
def execDisarm (m : Master) (i : Fin 256) (v : BitVec 32) (s : State) : Out :=
  s.act fun c => c.regWrite m .cmpCtrl i.1 0 (v.toNat % 2 ^ 31 + 2 ^ 31)

/-- INTERVAL_START (R386): START sets RUNNING and loads RELOAD at the next prescaled tick. -/
def execIntervalStart (m : Master) (i : Fin 64) (s : State) : Out := s.act fun c => c.regWrite m .intCmd i.1 0 1

/-- CONT (R386): CONT resumes counting from COUNT. -/
def execIntervalCont (m : Master) (i : Fin 64) (s : State) : Out := s.act fun c => c.regWrite m .intCmd i.1 0 2

/-- INTERVAL_STOP (R386): STOP clears RUNNING at once. -/
def execIntervalStop (m : Master) (i : Fin 64) (s : State) : Out := s.act fun c => c.regWrite m .intCmd i.1 0 4

/-- LOAD (R386): LOAD sets COUNT to RELOAD while stopped. -/
def execIntervalLoad (m : Master) (i : Fin 64) (s : State) : Out := s.act fun c => c.regWrite m .intCmd i.1 0 8

/-- PRESCALED_TICK (R387): At a prescaled tick a running counter loads or decrements, producing a zero at 1 to 0. -/
def execPrescaledTick (i : Fin 64) (s : State) : Out := s.act fun c => c.whenOn 47 fun c => c.prescaledTick i.1

/-- CAPTURE_ACCEPT (R390): A filtered pin edge or task arrival is accepted with its instant. -/
def execCaptureAccept (i : Fin 64) (rising : Bool) (off : Fin 3) (s : State) : Out :=
  s.act fun c => c.whenOn 47 fun c => c.captureAccept i.1 rising off.1

/-- CAPTURE_COMMIT (R391): A capture commits to the readable buffer, updates SEQ, NEW, OVR and raises its event. -/
def execCaptureCommit (i : Fin 64) (s : State) : Out := s.act fun c => c.whenOn 47 fun c => c.captureCommit i.1

/-- CAPTURE_READ (R392): A read of CAP_c_LO latches the capture's other fields and clears NEW and OVR. -/
def execCaptureRead (m : Master) (i : Fin 64) (s : State) : Out := s.act fun c => c.regRead m .capLo i.1 0

/-- ADC_READY (R395): The converter settles and sets READY after enabling. -/
def execAdcReady (s : State) : Out := s.act fun c => c.whenOn 48 fun c => c.adcReady

/-- ADC_START (R395): A START or trigger begins a conversion sequence, or is discarded while busy. -/
def execAdcStart (m : Master) (s : State) : Out := s.act fun c => c.regWrite m .adcCmd 0 0 1

/-- ADC_STOP (R396): STOP ends continuous mode after the sequence in progress. -/
def execAdcStop (m : Master) (s : State) : Out := s.act fun c => c.regWrite m .adcCmd 0 0 2

/-- ADC_RESULT (R395): A step's result enters the FIFO; the last ends the sequence and raises ADC_DONE. -/
def execAdcResult (uv : BitVec 32) (s : State) : Out :=
  s.act fun c => c.whenOn 48 fun c => (c.adcResult uv.toInt).dmaLevels

/-- ADC_FIFO_POP (R397): A read of ADC_FIFO pops the oldest result word. -/
def execAdcFifoPop (m : Master) (s : State) : Out := s.act fun c => c.regRead m .adcFifo 0 0

/-- EVENT_DELIVERY (R401): At a fabric instant events are delivered to their task inputs and consumers act. -/
def execEventDelivery (s : State) : Out := s.act fun c => c.deliver.dmaLevels

/-- SWTRIG (R401): A write to EVF_SWTRIG makes an arrival at a task input. -/
def execSwtrig (m : Master) (t : BitVec 9) (s : State) : Out := s.act fun c => c.regWrite m .evfSwtrig 0 0 t.toNat

/-- SWPROD (R401): A write to EVF_SWPROD raises producer 383. -/
def execSwprod (m : Master) (v : BitVec 32) (s : State) : Out := s.act fun c => c.regWrite m .evfSwprod 0 0 v.toNat

end Sys2Proof.Machine
end

