-- ==== Sys2Proof/Machine/Dispatch.lean ====
section
/-! DEFINITION. Each command's meaning. -/

namespace Sys2Proof.Machine

def exec (i : Instr) (s : State) : Host.Outcome State Fault Refusal :=
  match i with
  | .registerWrite m a v => Sys2Proof.Machine.execRegisterWrite m a v s
  | .rcRead m a => Sys2Proof.Machine.execRcRead m a s
  | .fabricAccess a => Sys2Proof.Machine.execFabricAccess a s
  | .accessResponse m => Sys2Proof.Machine.execAccessResponse m s
  | .latch h frac => Sys2Proof.Machine.execLatch h frac s
  | .lineRead h y given => Sys2Proof.Machine.execLineRead h y given s
  | .vblank h => Sys2Proof.Machine.execVblank h s
  | .frameDone h => Sys2Proof.Machine.execFrameDone h s
  | .lmatch h k => Sys2Proof.Machine.execLmatch h k s
  | .courseBegin h => Sys2Proof.Machine.execCourseBegin h s
  | .lineCompose h => Sys2Proof.Machine.execLineCompose h s
  | .courseSeal h => Sys2Proof.Machine.execCourseSeal h s
  | .teeFrameComplete h => Sys2Proof.Machine.execTeeFrameComplete h s
  | .scanTap h r => Sys2Proof.Machine.execScanTap h r s
  | .flipArm m k v => Sys2Proof.Machine.execFlipArm m k v s
  | .fenceSignal m f => Sys2Proof.Machine.execFenceSignal m f s
  | .htagArm m h r slot v => Sys2Proof.Machine.execHtagArm m h r slot v s
  | .regionLock m h r v => Sys2Proof.Machine.execRegionLock m h r v s
  | .freezeClear m h => Sys2Proof.Machine.execFreezeClear m h s
  | .signatureRead m h r scan => Sys2Proof.Machine.execSignatureRead m h r scan s
  | .lpEnd n => Sys2Proof.Machine.execLpEnd n s
  | .lpWait n => Sys2Proof.Machine.execLpWait n s
  | .lpWaitr n => Sys2Proof.Machine.execLpWaitr n s
  | .lpWr n => Sys2Proof.Machine.execLpWr n s
  | .lpWrt n => Sys2Proof.Machine.execLpWrt n s
  | .lpAdd n => Sys2Proof.Machine.execLpAdd n s
  | .lpWrp n => Sys2Proof.Machine.execLpWrp n s
  | .lpWrm n => Sys2Proof.Machine.execLpWrm n s
  | .lpSetc n => Sys2Proof.Machine.execLpSetc n s
  | .lpDjnz n => Sys2Proof.Machine.execLpDjnz n s
  | .lpJump n => Sys2Proof.Machine.execLpJump n s
  | .lpCall n => Sys2Proof.Machine.execLpCall n s
  | .lpRet n => Sys2Proof.Machine.execLpRet n s
  | .lpSetp n => Sys2Proof.Machine.execLpSetp n s
  | .lpBadCmd n => Sys2Proof.Machine.execLpBadCmd n s
  | .lineRelease n => Sys2Proof.Machine.execLineRelease n s
  | .runaway n => Sys2Proof.Machine.execRunaway n s
  | .headRun m h v => Sys2Proof.Machine.execHeadRun m h v s
  | .headStartInstant h frac => Sys2Proof.Machine.execHeadStartInstant h frac s
  | .headStop m h v => Sys2Proof.Machine.execHeadStop m h v s
  | .pllLocked h => Sys2Proof.Machine.execPllLocked h s
  | .pllLost h => Sys2Proof.Machine.execPllLost h s
  | .genlockFrameRef f64 lines => Sys2Proof.Machine.execGenlockFrameRef f64 lines s
  | .lockLost h => Sys2Proof.Machine.execLockLost h s
  | .faddrWrite m h v => Sys2Proof.Machine.execFaddrWrite m h v s
  | .fstampRead m h => Sys2Proof.Machine.execFstampRead m h s
  | .glFperRead m => Sys2Proof.Machine.execGlFperRead m s
  | .train m h rate lanes psr good => Sys2Proof.Machine.execTrain m h rate lanes psr good s
  | .hpdPlug h rate lanes psr good => Sys2Proof.Machine.execHpdPlug h rate lanes psr good s
  | .hpdUnplug h => Sys2Proof.Machine.execHpdUnplug h s
  | .hpdIrq h failed good => Sys2Proof.Machine.execHpdIrq h failed good s
  | .auxTransaction m h v => Sys2Proof.Machine.execAuxTransaction m h v s
  | .auxReply h r => Sys2Proof.Machine.execAuxReply h r s
  | .auxTimeout h => Sys2Proof.Machine.execAuxTimeout h s
  | .psrEnter m h => Sys2Proof.Machine.execPsrEnter m h s
  | .psrExit m h => Sys2Proof.Machine.execPsrExit m h s
  | .audioRun m v => Sys2Proof.Machine.execAudioRun m v s
  | .audioStart => Sys2Proof.Machine.execAudioStart s
  | .blockCompute => Sys2Proof.Machine.execBlockCompute s
  | .blockSend => Sys2Proof.Machine.execBlockSend s
  | .holdRelease m v => Sys2Proof.Machine.execHoldRelease m v s
  | .keyOn m v => Sys2Proof.Machine.execKeyOn m v s
  | .keyOff m n => Sys2Proof.Machine.execKeyOff m n s
  | .voiceStop m n => Sys2Proof.Machine.execVoiceStop m n s
  | .timedCommand m n op => Sys2Proof.Machine.execTimedCommand m n op s
  | .heldWriteTaken k => Sys2Proof.Machine.execHeldWriteTaken k s
  | .portEnable m x v => Sys2Proof.Machine.execPortEnable m x v s
  | .clkLoss x => Sys2Proof.Machine.execClkLoss x s
  | .rateSlip x => Sys2Proof.Machine.execRateSlip x s
  | .voiceRotation n p => Sys2Proof.Machine.execVoiceRotation n p s
  | .blitGo m => Sys2Proof.Machine.execBlitGo m s
  | .blitAbort m => Sys2Proof.Machine.execBlitAbort m s
  | .blitBegin => Sys2Proof.Machine.execBlitBegin s
  | .blitBurst => Sys2Proof.Machine.execBlitBurst s
  | .blitWmark => Sys2Proof.Machine.execBlitWmark s
  | .blitDone => Sys2Proof.Machine.execBlitDone s
  | .blitError => Sys2Proof.Machine.execBlitError s
  | .dmaStart m n => Sys2Proof.Machine.execDmaStart m n s
  | .dmaHalt m n => Sys2Proof.Machine.execDmaHalt m n s
  | .dmaResume m n => Sys2Proof.Machine.execDmaResume m n s
  | .dmaAbort m n => Sys2Proof.Machine.execDmaAbort m n s
  | .dmaBell m n => Sys2Proof.Machine.execDmaBell m n s
  | .descriptorReturn n => Sys2Proof.Machine.execDescriptorReturn n s
  | .dmaBurstStart => Sys2Proof.Machine.execDmaBurstStart s
  | .pointerUpdate n => Sys2Proof.Machine.execPointerUpdate n s
  | .descriptorFinish n => Sys2Proof.Machine.execDescriptorFinish n s
  | .instructionIssue k => Sys2Proof.Machine.execInstructionIssue k s
  | .syncComplete k => Sys2Proof.Machine.execSyncComplete k s
  | .fabResult k => Sys2Proof.Machine.execFabResult k s
  | .wfiEnd k => Sys2Proof.Machine.execWfiEnd k s
  | .interruptEntry k => Sys2Proof.Machine.execInterruptEntry k s
  | .accTimeout k => Sys2Proof.Machine.execAccTimeout k s
  | .coreRun m k => Sys2Proof.Machine.execCoreRun m k s
  | .coreHalt m k => Sys2Proof.Machine.execCoreHalt m k s
  | .coreStep m k => Sys2Proof.Machine.execCoreStep m k s
  | .coreReset m k => Sys2Proof.Machine.execCoreReset m k s
  | .windowRead m k o => Sys2Proof.Machine.execWindowRead m k o s
  | .windowWrite m k o v => Sys2Proof.Machine.execWindowWrite m k o v s
  | .coreRotation k p => Sys2Proof.Machine.execCoreRotation k p s
  | .sourceEdge n => Sys2Proof.Machine.execSourceEdge n s
  | .swset m n => Sys2Proof.Machine.execSwset m n s
  | .coreWakeDone k => Sys2Proof.Machine.execCoreWakeDone k s
  | .claim m k => Sys2Proof.Machine.execClaim m k s
  | .mailboxSend id ch => Sys2Proof.Machine.execMailboxSend id ch s
  | .mailboxRecv id ch => Sys2Proof.Machine.execMailboxRecv id ch s
  | .channelCfgWrite m ch v => Sys2Proof.Machine.execChannelCfgWrite m ch v s
  | .channelTimeout ch => Sys2Proof.Machine.execChannelTimeout ch s
  | .scrub a => Sys2Proof.Machine.execScrub a s
  | .elogPop m => Sys2Proof.Machine.execElogPop m s
  | .ceHourEnd st => Sys2Proof.Machine.execCeHourEnd st s
  | .spareGo m v => Sys2Proof.Machine.execSpareGo m v s
  | .copyDone => Sys2Proof.Machine.execCopyDone s
  | .drainDone => Sys2Proof.Machine.execDrainDone s
  | .rowSwitch => Sys2Proof.Machine.execRowSwitch s
  | .laneRotation j p => Sys2Proof.Machine.execLaneRotation j p s
  | .tick => Sys2Proof.Machine.execTick s
  | .refLost => Sys2Proof.Machine.execRefLost s
  | .refReturn => Sys2Proof.Machine.execRefReturn s
  | .tbRead m => Sys2Proof.Machine.execTbRead m s
  | .compareArm m n v => Sys2Proof.Machine.execCompareArm m n v s
  | .compareFire n => Sys2Proof.Machine.execCompareFire n s
  | .disarm m n v => Sys2Proof.Machine.execDisarm m n v s
  | .intervalStart m n => Sys2Proof.Machine.execIntervalStart m n s
  | .intervalCont m n => Sys2Proof.Machine.execIntervalCont m n s
  | .intervalStop m n => Sys2Proof.Machine.execIntervalStop m n s
  | .intervalLoad m n => Sys2Proof.Machine.execIntervalLoad m n s
  | .prescaledTick n => Sys2Proof.Machine.execPrescaledTick n s
  | .captureAccept n rising off => Sys2Proof.Machine.execCaptureAccept n rising off s
  | .captureCommit n => Sys2Proof.Machine.execCaptureCommit n s
  | .captureRead m n => Sys2Proof.Machine.execCaptureRead m n s
  | .adcReady => Sys2Proof.Machine.execAdcReady s
  | .adcStart m => Sys2Proof.Machine.execAdcStart m s
  | .adcStop m => Sys2Proof.Machine.execAdcStop m s
  | .adcResult code => Sys2Proof.Machine.execAdcResult code s
  | .adcFifoPop m => Sys2Proof.Machine.execAdcFifoPop m s
  | .eventDelivery => Sys2Proof.Machine.execEventDelivery s
  | .swtrig m t => Sys2Proof.Machine.execSwtrig m t s
  | .swprod m v => Sys2Proof.Machine.execSwprod m v s
  | .funcChange m p v => Sys2Proof.Machine.execFuncChange m p v s
  | .pinSet m b v => Sys2Proof.Machine.execPinSet m b v s
  | .pinClr m b v => Sys2Proof.Machine.execPinClr m b v s
  | .pinTgl m b v => Sys2Proof.Machine.execPinTgl m b v s
  | .lockKey m v => Sys2Proof.Machine.execLockKey m v s
  | .pinPark m => Sys2Proof.Machine.execPinPark m s
  | .unpark m => Sys2Proof.Machine.execUnpark m s
  | .vioChange b v => Sys2Proof.Machine.execVioChange b v s
  | .wakeEdge p rising => Sys2Proof.Machine.execWakeEdge p rising s
  | .pinEdge p level k => Sys2Proof.Machine.execPinEdge p level k s
  | .serialPush m x v => Sys2Proof.Machine.execSerialPush m x v s
  | .serialPop m x => Sys2Proof.Machine.execSerialPop m x s
  | .uartFrame u rx => Sys2Proof.Machine.execUartFrame u rx s
  | .spiFrame q w => Sys2Proof.Machine.execSpiFrame q w s
  | .i2cByte n e => Sys2Proof.Machine.execI2cByte n e s
  | .psqStop q => Sys2Proof.Machine.execPsqStop q s
  | .psqBranch q => Sys2Proof.Machine.execPsqBranch q s
  | .psqAwait q => Sys2Proof.Machine.execPsqAwait q s
  | .psqAwaitEnd q rising off => Sys2Proof.Machine.execPsqAwaitEnd q rising off s
  | .psqStamp q => Sys2Proof.Machine.execPsqStamp q s
  | .psqDrive q => Sys2Proof.Machine.execPsqDrive q s
  | .psqSample q => Sys2Proof.Machine.execPsqSample q s
  | .psqPut q => Sys2Proof.Machine.execPsqPut q s
  | .psqFetch q => Sys2Proof.Machine.execPsqFetch q s
  | .psqDeposit q => Sys2Proof.Machine.execPsqDeposit q s
  | .psqCopy q => Sys2Proof.Machine.execPsqCopy q s
  | .psqSignal q => Sys2Proof.Machine.execPsqSignal q s
  | .psqBadInst q => Sys2Proof.Machine.execPsqBadInst q s
  | .psqTimedAction q => Sys2Proof.Machine.execPsqTimedAction q s
  | .psqFifoWaitEnd q => Sys2Proof.Machine.execPsqFifoWaitEnd q s
  | .psqHalt m q => Sys2Proof.Machine.execPsqHalt m q s
  | .psqResume m q => Sys2Proof.Machine.execPsqResume m q s
  | .psqRestart m q => Sys2Proof.Machine.execPsqRestart m q s
  | .psqFlush m q => Sys2Proof.Machine.execPsqFlush m q s
  | .psqRotation q p => Sys2Proof.Machine.execPsqRotation q p s
  | .packetReceive l p good => Sys2Proof.Machine.execPacketReceive l p good s
  | .linkAck l n => Sys2Proof.Machine.execLinkAck l n s
  | .linkNak l => Sys2Proof.Machine.execLinkNak l s
  | .linkCredit l vl n => Sys2Proof.Machine.execLinkCredit l vl n s
  | .ackTimeout l => Sys2Proof.Machine.execAckTimeout l s
  | .retrain l good peer => Sys2Proof.Machine.execRetrain l good peer s
  | .laneSpare l p => Sys2Proof.Machine.execLaneSpare l p s
  | .routeNotice chip l => Sys2Proof.Machine.execRouteNotice chip l s
  | .responseTimeout tag => Sys2Proof.Machine.execResponseTimeout tag s
  | .broadcast m a size v => Sys2Proof.Machine.execBroadcast m a size v s
  | .talign l t1 t2 t3 t4 adj up => Sys2Proof.Machine.execTalign l t1 t2 t3 t4 adj up s
  | .tickAdjust => Sys2Proof.Machine.execTickAdjust s
  | .lateJoin n => Sys2Proof.Machine.execLateJoin n s
  | .startUp e => Sys2Proof.Machine.execStartUp e s
  | .powerOnReset vaonLost => Sys2Proof.Machine.execPowerOnReset vaonLost s
  | .powerOnResetRelease straps => Sys2Proof.Machine.execPowerOnResetRelease straps s
  | .resetN straps => Sys2Proof.Machine.execResetN straps s
  | .coldReset m => Sys2Proof.Machine.execColdReset m s
  | .keystoneReset m => Sys2Proof.Machine.execKeystoneReset m s
  | .perst => Sys2Proof.Machine.execPerst s
  | .functionLevelReset f => Sys2Proof.Machine.execFunctionLevelReset f s
  | .watchdogBite => Sys2Proof.Machine.execWatchdogBite s
  | .watchdogKick m v => Sys2Proof.Machine.execWatchdogKick m v s
  | .bootRead m => Sys2Proof.Machine.execBootRead m s
  | .bootProgram m => Sys2Proof.Machine.execBootProgram m s
  | .bootErase4k m => Sys2Proof.Machine.execBootErase4k m s
  | .bootErase64k m => Sys2Proof.Machine.execBootErase64k m s
  | .bootCmdDone ok => Sys2Proof.Machine.execBootCmdDone ok s
  | .barRequest f bar write o size v => Sys2Proof.Machine.execBarRequest f bar write o size v s
  | .outboundAccess e => Sys2Proof.Machine.execOutboundAccess e s
  | .outboundTimeout n => Sys2Proof.Machine.execOutboundTimeout n s
  | .vectorUnmask f v => Sys2Proof.Machine.execVectorUnmask f v s
  | .smbBootStatus => Sys2Proof.Machine.execSmbBootStatus s
  | .smbId => Sys2Proof.Machine.execSmbId s
  | .smbDigest => Sys2Proof.Machine.execSmbDigest s
  | .smbSetAddress pecOk a => Sys2Proof.Machine.execSmbSetAddress pecOk a s
  | .smbRead => Sys2Proof.Machine.execSmbRead s
  | .smbWrite pecOk v => Sys2Proof.Machine.execSmbWrite pecOk v s
  | .smbWriteStatus => Sys2Proof.Machine.execSmbWriteStatus s
  | .footPark pecOk => Sys2Proof.Machine.execFootPark pecOk s
  | .footReload pecOk => Sys2Proof.Machine.execFootReload pecOk s
  | .footCold pecOk => Sys2Proof.Machine.execFootCold pecOk s
  | .domainOff m d => Sys2Proof.Machine.execDomainOff m d s
  | .coreGate k => Sys2Proof.Machine.execCoreGate k s
  | .stateEntry => Sys2Proof.Machine.execStateEntry s
  | .wake => Sys2Proof.Machine.execWake s
  | .stateExit => Sys2Proof.Machine.execStateExit s
  | .alarm => Sys2Proof.Machine.execAlarm s
  | .psmWake m => Sys2Proof.Machine.execPsmWake m s
  | .rearm m v => Sys2Proof.Machine.execRearm m v s
  | .toleranceChange => Sys2Proof.Machine.execToleranceChange s
  | .thermHi tj => Sys2Proof.Machine.execThermHi tj s
  | .thermTrip tj => Sys2Proof.Machine.execThermTrip tj s
  | .thermRecover tj => Sys2Proof.Machine.execThermRecover tj s
  | .avsPeriod paces ack => Sys2Proof.Machine.execAvsPeriod paces ack s
  | .wearRefresh wears => Sys2Proof.Machine.execWearRefresh wears s
  | .assayRequest m cls idx => Sys2Proof.Machine.execAssayRequest m cls idx s
  | .assayAbort m => Sys2Proof.Machine.execAssayAbort m s
  | .assayRun => Sys2Proof.Machine.execAssayRun s
  | .assayResult code detail rows => Sys2Proof.Machine.execAssayResult code detail rows s
  | .resPop m => Sys2Proof.Machine.execResPop m s
  | .lgrPop m => Sys2Proof.Machine.execLgrPop m s
  | .maintenanceEnter m => Sys2Proof.Machine.execMaintenanceEnter m s
  | .railEnter r => Sys2Proof.Machine.execRailEnter r s
  | .railLeave r => Sys2Proof.Machine.execRailLeave r s
  | .tbPllLock => Sys2Proof.Machine.execTbPllLock s
  | .audioPllLock => Sys2Proof.Machine.execAudioPllLock s
  | .configurationRequest f r write v => Sys2Proof.Machine.execConfigurationRequest f r write v s
  | .pcieLinkState up => Sys2Proof.Machine.execPcieLinkState up s
  | .testmode high => Sys2Proof.Machine.execTestmode high s

end Sys2Proof.Machine
end

