-- ==== Sys2Proof/Safety.lean ====
section
/-! DEFINITION. What the claims are stated in: when commands act, what a register access leaves, and the invariants. This
block has no fault, so a run is safe where its commands act as the spec says. -/

namespace Sys2Proof.Machine

/-- Power-on reset does not hold, so that the units act (R526). -/
abbrev Live (s : State) : Prop := s.sup.por = false

/-- The state with its chip put to t: the queue and the supply as they were. -/
abbrev State.withChip (s : State) (t : Chip) : State := { s with chip := t }

/-- An access of a master that no engine of this package stands for. -/
def given (m : Master) (write : Bool) (addr size data : Nat) (poison : Bool) : Access :=
  { mst := m, owner := .none, write := write, addr := addr, size := size, data := data, poison := poison }

/-- No earlier write of the access's master to its 4 KiB page is still waiting (R32, R353). -/
abbrev Free (c : Chip) (a : Access) : Prop := ((c.issueQ ++ c.held).any fun b => b.holdsBack a) = false

/-- Register (i, j) of a family answers master m: its address decodes to it, the fabric is powered, its unit does not
refuse the access, and no earlier write holds it back (R13, R23, R334, R353). -/
abbrev Served (c : Chip) (m : Master) (id : RegId) (i j : Nat) (write : Bool) : Prop :=
  decodeReg (id.addr i j) = some (id, i, j) ∧ id.addr i j % 4 = 0 ∧ 0x3C000000 ≤ id.addr i j ∧ id.addr i j < 2 ^ 30 ∧
    c.domOn 41 = true ∧ c.regRefuses m id i write = none ∧ Free c (given m write (c.localAddr (id.addr i j)) 4 0 false)

/-- The chip that a write to a register of this family finds: the audio engine first takes what is due (R202). -/
def Chip.taken (c : Chip) (id : RegId) : Chip := if id.block = .aud then c.audTake else c

/-- What master m's write of v to register (i, j) leaves, its effect on the chip s being t: the levels that pace DMA are
looked at again, and OKAY is on its way to m (R260, R348). -/
def Chip.afterWrite (t s : Chip) (m : Master) (id : RegId) (i j v : Nat) : Chip :=
  t.dmaLevels.respond (given m true (s.localAddr (id.addr i j)) 4 v false) .okay 0

/-- What master m's read of register (i, j) leaves, the value being d and its effect on the chip s being t. -/
def Chip.afterRead (t s : Chip) (m : Master) (id : RegId) (i j d : Nat) : Chip :=
  t.dmaLevels.respond (given m false (s.localAddr (id.addr i j)) 4 0 false) .okay d

/-- Engine n may execute a command, no bank is being drained, and the word at its program address is w, whose code is op
(R85, R367). -/
abbrev LpeCmd (c : Chip) (n op w : Nat) : Prop :=
  c.domOn (29 + n) = true ∧ c.fld F.fabSpareStat_PHASE ≠ 2 ∧ c.lpeReady n = true ∧ (c.lpeFetch (c.lpe n).pc).1 = .word w ∧ bits w 31 28 = op

/-- The running engine n has a step left, and the word at its program address is w. -/
abbrev LpeWord (c : Chip) (n w : Nat) : Prop :=
  c.lpeExhausted n = false ∧ (c.lpe n).running = true ∧ (c.lpeFetch (c.lpe n).pc).1 = .word w

/-- Engine n has read the word at its program address: the address is past it, and a step is spent (R96). -/
def Chip.lpeNext (c : Chip) (n : Nat) : Chip :=
  ((c.lpeFetch (c.lpe n).pc).2.updLpe n fun e => { e with pc := e.pc + 4 }).lpeSpend n 1

/-- A word that may follow a branch: an aligned address of the pattern store (R86). -/
abbrev LpeTarget (a : Nat) : Prop := a % 4 = 0 ∧ 0x08000000 ≤ a ∧ a < 0x16000000

/-- Every byte of the stores reads in t as in s. -/
def SameBytes (t s : Chip) : Prop := ∀ a, Memory.byte t.mem a = Memory.byte s.mem a

/-- The commands that act while power-on reset holds: the time base counts, its PLL locks, the rails and the outside of the
pins go on, and power-on reset itself begins and ends (R526). -/
def actsInReset (i : Instr) : Bool :=
  match i with
  | .tick | .tbPllLock | .railEnter _ | .railLeave _ | .vioChange _ _ | .pinEdge _ _ _ | .powerOnReset _
  | .powerOnResetRelease _ | .testmode _ => true
  | _ => false

/-- While the TESTMODE ball reads high, power-on reset holds (R523). -/
abbrev TestmodeInv (s : State) : Prop := s.sup.testmode = true → s.sup.por = true

/-- The stores are listed in their one canonical form: addresses rising, no byte listed that reads as unlisted ones do. -/
abbrev MemoryInv (s : State) : Prop := Memory.wf s.chip.mem = true

/-- A register of a hallmark region (Tables 5.2 and 5.3). -/
abbrev RegionReg (id : RegId) : Prop :=
  id ∈ [.hmkCfg, .hmkRectH, .hmkRectV, .hmkExp, .hmkHval0, .hmkHtag0, .hmkHval1, .hmkHtag1, .hmkLastc, .hmkLastcFrm, .hmkLasts,
    .hmkLastsFrm, .hmkStat, .hmkMiscnt]

/-- Sequencer q runs, its unit powered, with instruction w of operation op before it, in which nothing is reserved (R427). -/
abbrev SeqRuns (c : Chip) (q op w : Nat) : Prop :=
  c.domOn (55 + c.physOf 5 q / 17) = true ∧ c.psqState q = 2 ∧ c.psqInst q = w ∧ bits w 31 28 = op ∧ psqReserved w = false

/-- Sequencer q waits on instruction w, its unit powered (R430, R431). -/
abbrev SeqWaits (c : Chip) (q w : Nat) (x : PsqWait) : Prop :=
  c.domOn (55 + c.physOf 5 q / 17) = true ∧ c.psqState q = 3 ∧ c.psqInst q = w ∧ (c.psq q).wait = some x

end Sys2Proof.Machine
end

