-- ==== Sys2Proof/Certificates/Slice0/Obligations.lean ====
section
/-! DEFINITION. The statements for the provers. -/

open Sys2Proof Sys2Proof.Machine

/-- With a command at the front of the queue, one step is exec of that command on the state with the queue's rest. On an
empty queue a step answers the state unchanged: the block idles, which is the model's choice (log entry 60). (rests on
spec/opcode_table.json) -/
def Obligations.StepRunsFront : Prop :=
  (∀ (s : State) (i : Instr) (rest : List Instr),
    s.pending = i :: rest →
    step s = exec i { s with pending := rest }) ∧
  (∀ (s : State),
    s.pending = [] →
    step s = .next s)

/-- Every command of the table, with every operand and in every state, answers a next state, never a fault or a refusal, and
takes nothing from the queue that waits and puts nothing into it. (rests on spec/11_fabric_stores.md,
spec/opcode_table.json) -/
def Obligations.CommandsNeverStop : Prop :=
  ∀ (i : Instr) (s : State),
    ∃ t, exec i s = .next t ∧ t.pending = s.pending

/-- In every state in which TESTMODE reading high means that power-on reset holds, and after every step from it, that stays
so: no command, power-on reset's release among them, ends the reset while the ball reads high. (rests on
spec/17_balls_supplies.md) -/
def Obligations.TestmodeKept : Prop :=
  ∀ (s t : State),
    TestmodeInv s → step s = .next t →
    TestmodeInv t

/-- After power-on reset SYS_BOOT.COPY reads 3, SYS_RSTCAUSE shows POR alone, the ports are parked, no switched domain is
on, PSM_CTRL has AUTO with ENTRY_DLY 20 and GATE_DLY 10, PSM_VLIM 900 and 550 mV, OBCHIP 1022, and vectors 0 of both
functions follow producers 339 and 340. The state after power-on reset meets the invariants of TESTMODE and of the stores'
canonical form, no command waits, no byte is listed, and start-up is due; that an unlisted byte reads 0 is the model's
choice (log entry 3). (rests on spec/00_scope.md, spec/12_time_events_measurement.md, spec/13_pins_sequencers.md,
spec/15_keystone_start.md, spec/16_power_assay_spares.md, spec/17_balls_supplies.md) -/
def Obligations.ResetState : Prop :=
  (State.reset.chip.fld F.sysBoot_COPY = 3 ∧ State.reset.chip.fld F.sysBoot_STATE = 0 ∧ State.reset.chip.word .sysRstcause
      = 1 ∧ State.reset.chip.on F.pinStat_PARKED = true ∧ (∀ d : Fin 66, State.reset.chip.domOn d.1 = false) ∧
      State.reset.chip.fld F.psmCtrl_AUTO = 1 ∧ State.reset.chip.fld F.psmCtrl_ENTRY_DLY = 20 ∧ State.reset.chip.fld
      F.psmCtrl_GATE_DLY = 10 ∧ State.reset.chip.fld F.psmVlim_VMAX = 900 ∧ State.reset.chip.fld F.psmVlim_VMIN = 550 ∧
      State.reset.chip.fld F.hstObcfg_OBCHIP = 1022 ∧ State.reset.chip.word .hstF0vec = 2 ^ 31 + 339 ∧ State.reset.chip.word
      .hstF1vec = 2 ^ 31 + 340) ∧
  (TestmodeInv State.reset ∧ MemoryInv State.reset ∧ State.reset.pending = [] ∧ State.reset.chip.mem = [] ∧
      State.reset.chip.tb = 0 ∧ State.reset.chip.boot.due = some 0)

/-- While power-on reset holds, every command but the count's tick, its PLL's lock, the rails, the banks' supplies, the
level at a port, TESTMODE, and the begin and end of power-on reset itself leaves the whole state as it was. (rests on
spec/17_balls_supplies.md) -/
def Obligations.PowerOnResetHolds : Prop :=
  ∀ (s : State) (i : Instr),
    s.sup.por = true → actsInReset i = false →
    exec i s = .next s

/-- The local address of every register of every family, at every index the family has, decodes to that register, lies in
the register space, and is a multiple of 4: no two registers share an address. (rests on spec/01_one_frame.md,
spec/05_hallmarks.md, spec/11_fabric_stores.md, spec/12_time_events_measurement.md, spec/15_keystone_start.md,
spec/16_power_assay_spares.md) -/
def Obligations.RegisterAddresses : Prop :=
  ∀ (id : RegId) (i j : Nat),
    i < id.row.n1 → j < id.row.n2 →
    decodeReg (id.addr i j) = some (id, i, j) ∧ id.addr i j % 4 = 0 ∧ 0x3C000000 ≤ id.addr i j ∧ id.addr i j < 2 ^ 30

/-- From every state whose stores are listed with rising addresses and no byte that reads as unlisted ones do, one step,
whatever its command, leaves them so listed: equal contents stay equal data. (rests on spec/02_layer_stack.md,
spec/11_fabric_stores.md, spec/16_power_assay_spares.md, spec/17_balls_supplies.md) -/
def Obligations.MemoryKept : Prop :=
  ∀ (s t : State),
    MemoryInv s → step s = .next t →
    MemoryInv t

/-- A register write that is served (its address decodes to the register, the fabric and the register's unit take it)
completes: the unit's effect on the written value, then one OKAY response (afterWrite, which also looks at the DMA request
levels again). For HST_WINCHIP, a plain RW register, that effect is CHIP = bits [9:0] of the value; for PSM_ALARM_CTRL it is
that FIRED, W1C, loses the bit written 1 and EN takes bit 0. (rests on spec/00_scope.md, spec/01_one_frame.md,
spec/11_fabric_stores.md) -/
def Obligations.RegisterWrites : Prop :=
  (∀ (s : State) (m : Master) (id : RegId) (i j : Nat) (a : BitVec 40) (v : BitVec 32),
    Live s → Served s.chip m id i j true → a.toNat = s.chip.localAddr (id.addr i j) →
    exec (.registerWrite m a v) s = .next (s.withChip (((s.chip.taken id).writeReg m id i j v.toNat).afterWrite s.chip m id
      i j v.toNat))) ∧
  (∀ (s : State) (m : Master) (a : BitVec 40) (v : BitVec 32),
    Live s → Served s.chip m .hstWinchip 0 0 true → a.toNat = s.chip.localAddr (RegId.addr .hstWinchip 0 0) →
    exec (.registerWrite m a v) s = .next (s.withChip ((s.chip.setFld F.hstWinchip_CHIP 0 0 (bits v.toNat 9 0)).afterWrite
      s.chip m .hstWinchip 0 0 v.toNat))) ∧
  (∀ (s : State) (m : Master) (a : BitVec 40) (v : BitVec 32),
    Live s → Served s.chip m .psmAlarmCtrl 0 0 true → a.toNat = s.chip.localAddr (RegId.addr .psmAlarmCtrl 0 0) →
    exec (.registerWrite m a v) s = .next (s.withChip (((s.chip.w1c F.psmAlarmCtrl_FIRED 0 0 v.toNat).setFld
      F.psmAlarmCtrl_EN 0 0 (bits v.toNat 0 0)).afterWrite s.chip m .psmAlarmCtrl 0 0 v.toNat)))

/-- A served read of PSM_OFFCNT, whose fields are RC, is answered with COUNT and SAT and leaves both 0. A served read of
HST_WINCHIP, which has no RC field, is answered with CHIP and leaves every register as it was. (rests on spec/00_scope.md,
spec/11_fabric_stores.md, spec/16_power_assay_spares.md) -/
def Obligations.ReadClears : Prop :=
  (∀ (s : State) (m : Master) (a : BitVec 40),
    Live s → Served s.chip m .psmOffcnt 0 0 false → a.toNat = s.chip.localAddr (RegId.addr .psmOffcnt 0 0) →
    exec (.rcRead m a) s = .next (s.withChip (((s.chip.setFld F.psmOffcnt_SAT 0 0 0).setFld F.psmOffcnt_COUNT 0 0
      0).afterRead s.chip m .psmOffcnt 0 0 (s.chip.fld F.psmOffcnt_SAT * 2 ^ 31 + s.chip.fld F.psmOffcnt_COUNT)))) ∧
  (∀ (s : State) (m : Master) (a : BitVec 40),
    Live s → Served s.chip m .hstWinchip 0 0 false → a.toNat = s.chip.localAddr (RegId.addr .hstWinchip 0 0) →
    exec (.rcRead m a) s = .next (s.withChip (s.chip.afterRead s.chip m .hstWinchip 0 0 (s.chip.fld F.hstWinchip_CHIP))))

/-- A write to a register of this package whose unit refuses it (regRefuses: its domain, master or state; the mailbox
channels' own CFG and STAT registers aside) ends with that error response, its data 0, and has no other effect. A write to a
reserved offset of the register space, or to an address of it that is not a multiple of 4, ends with DECODE and has no other
effect. (rests on spec/01_one_frame.md, spec/10_anvil_system.md, spec/11_fabric_stores.md) -/
def Obligations.RefusedAccesses : Prop :=
  (∀ (s : State) (m : Master) (a : BitVec 40) (v : BitVec 32) (id : RegId) (i j : Nat) (k : RespKind),
    Live s → s.chip.domOn 41 = true → a.toNat / 2 ^ 30 = s.chip.chipNo → 0x3C000000 ≤ a.toNat % 2 ^ 30 → a.toNat % 4 = 0 →
      decodeReg (a.toNat % 2 ^ 30) = some (id, i, j) → s.chip.regRefuses m id i true = some k → id ≠ .mbxChCfg → id ≠
      .mbxChStat → Free s.chip (given m true a.toNat 4 v.toNat false) →
    exec (.registerWrite m a v) s = .next (s.withChip (s.chip.respond (given m true a.toNat 4 v.toNat false) k 0))) ∧
  (∀ (s : State) (m : Master) (a : BitVec 40) (v : BitVec 32),
    Live s → a.toNat / 2 ^ 30 = s.chip.chipNo → 0x3C000000 ≤ a.toNat % 2 ^ 30 → (a.toNat % 4 ≠ 0 ∨ decodeReg (a.toNat % 2 ^
      30) = none) → Free s.chip (given m true a.toNat 4 v.toNat false) →
    exec (.registerWrite m a v) s = .next (s.withChip (s.chip.respond (given m true a.toNat 4 v.toNat false) .decode 0)))

/-- In every store that serves it and that no repair holds: a naturally aligned write (the ingot store takes none, R124)
leaves in the bytes it names what it carried, every other byte as it was, the queue and the supplies as they were, and puts
one OKAY response on its way; a naturally aligned read leaves every byte as it was and is answered with the bytes named,
POISON where a unit it touches is poisoned and OKAY otherwise. (rests on spec/01_one_frame.md, spec/02_layer_stack.md,
spec/11_fabric_stores.md) -/
def Obligations.StoreAccesses : Prop :=
  (∀ (s : State) (m : Master) (p : Bool) (a : BitVec 40) (n : Nat) (d : BitVec 128),
    Live s → s.chip.domOn 41 = true → a.toNat / 2 ^ 30 = s.chip.chipNo → a.toNat % 2 ^ 30 < 0x17210000 → ¬ (0x16000000 ≤
      a.toNat % 2 ^ 30 ∧ a.toNat % 2 ^ 30 < 0x17000000) → natural (a.toNat % 2 ^ 30) n = true → s.chip.storeUp (a.toNat % 2
      ^ 30) = true → s.chip.heldByRepair (a.toNat % 2 ^ 30) n = false → Free s.chip (given m true a.toNat n d.toNat p) →
    ∃ t, exec (.fabricAccess (.given m true p a n d)) s = .next t ∧ t.pending = s.pending ∧ t.sup = s.sup ∧ t.chip.resps =
      s.chip.resps ++ [⟨m, .none, .okay, true, a.toNat, n, 0⟩] ∧ Memory.read t.chip.mem (a.toNat % 2 ^ 30) n = d.toNat % 2 ^
      (8 * n) ∧ ∀ x, (x < a.toNat % 2 ^ 30 ∨ a.toNat % 2 ^ 30 + n ≤ x) → Memory.byte t.chip.mem x = Memory.byte s.chip.mem
      x) ∧
  (∀ (s : State) (m : Master) (a : BitVec 40) (n : Nat) (d : BitVec 128),
    Live s → s.chip.domOn 41 = true → a.toNat / 2 ^ 30 = s.chip.chipNo → a.toNat % 2 ^ 30 < 0x17210000 → natural (a.toNat %
      2 ^ 30) n = true → s.chip.storeUp (a.toNat % 2 ^ 30) = true → s.chip.heldByRepair (a.toNat % 2 ^ 30) n = false → Free
      s.chip (given m false a.toNat n d.toNat false) →
    ∃ t, exec (.fabricAccess (.given m false false a n d)) s = .next t ∧ SameBytes t.chip s.chip ∧ t.chip.resps =
      s.chip.resps ++ [⟨m, .none, if (s.chip.memRead (a.toNat % 2 ^ 30) n).2.1 then .poison else .okay, false, a.toNat, n,
      Memory.read s.chip.mem (a.toNat % 2 ^ 30) n⟩])

/-- The nth issued access, where no earlier access of the list and no held one holds it back (R32, R353), leaves the list
and is routed as its address says. The oldest response to a master, where no engine's owner waits for it, is taken from the
list, logged as its kind asks (logResp), and the DMA levels are looked at again. Of kind DECODE with an empty error log,
that log is one record of kind 4 with the master, its chip, the store, the address and the low 32 bits of the count, and
producer 343 is raised. (rests on spec/11_fabric_stores.md) -/
def Obligations.AccessesAndResponses : Prop :=
  (∀ (s : State) (n : Nat) (a : Access),
    Live s → s.chip.issueQ[n]? = some a → (∀ b ∈ s.chip.issueQ.take n ++ s.chip.held, b.holdsBack a = false) →
    exec (.fabricAccess (.issued n)) s = .next (s.withChip ({ s.chip with issueQ := s.chip.issueQ.eraseIdx n }.route a))) ∧
  (∀ (s : State) (m : Master) (r : Resp) (rest : List Resp),
    Live s → takeResp (fun r => r.mst == m && !r.coreRead) s.chip.resps = some (r, rest) → r.owner = .none →
    exec (.accessResponse m) s = .next (s.withChip ((({ s.chip with resps := rest }).logResp r).dmaLevels))) ∧
  (∀ (s : State) (m : Master) (r : Resp) (rest : List Resp),
    Live s → s.chip.elog = [] → takeResp (fun r => r.mst == m && !r.coreRead) s.chip.resps = some (r, rest) → r.owner =
      .none → r.kind = .decode →
    exec (.accessResponse m) s = .next (s.withChip
      ((({ s.chip with resps := rest, elog := [⟨4, r.mst.idNo, s.chip.masterChip r.mst, s.chip.recordStore r.addr, r.addr, s.chip.tb.toNat % 2 ^ 32⟩] }).raise
      343).dmaLevels)))

/-- An access to the register space of this package that is not of four bytes, or not aligned to four, ends with a DECODE
response with data 0 and no other effect, a read as a write. An aligned access of four bytes to a register that serves it is
accepted: a write has the unit's effect on its low 32 bits, a read answers the register's value. (states R26) -/
def Obligations.RegisterSpaceAccesses : Prop :=
  (∀ (s : State) (m : Master) (wr p : Bool) (a : BitVec 40) (n : Nat) (d : BitVec 128),
    Live s → a.toNat / 2 ^ 30 = s.chip.chipNo → 0x3C000000 ≤ a.toNat % 2 ^ 30 → (n ≠ 4 ∨ a.toNat % 4 ≠ 0) → Free s.chip
      (given m wr a.toNat n d.toNat p) →
    exec (.fabricAccess (.given m wr p a n d)) s = .next (s.withChip (s.chip.respond (given m wr a.toNat n d.toNat p)
      .decode 0))) ∧
  (∀ (s : State) (m : Master) (id : RegId) (i j : Nat) (a : BitVec 40) (d : BitVec 128),
    Live s → Served s.chip m id i j true → a.toNat = s.chip.localAddr (id.addr i j) →
    exec (.fabricAccess (.given m true false a 4 d)) s = .next (s.withChip (((s.chip.taken id).writeReg m id i j (d.toNat %
      2 ^ 32)).afterWrite s.chip m id i j d.toNat))) ∧
  (∀ (s : State) (m : Master) (id : RegId) (i j : Nat) (a : BitVec 40),
    Live s → Served s.chip m id i j false → a.toNat = s.chip.localAddr (id.addr i j) →
    exec (.fabricAccess (.given m false false a 4 0)) s = .next (s.withChip ((s.chip.readReg m id i j).2.afterRead s.chip m
      id i j (s.chip.readReg m id i j).1)))

/-- While SUPV of a region is 1 in its pending or its active copy, a served write by a master other than 0x11 to any
register of the region (CFG, RECT, EXP, HVAL, HTAG, LASTC, LASTS, STAT and their companions) changes nothing but that WR_REJ
is set, which raises the status event of the head's hallmarks where WR_REJ was 0. A read of any register of a region by any
master is answered as 0x11's would be. (states R149) -/
def Obligations.SupervisedRegions : Prop :=
  (∀ (s : State) (m : Master) (id : RegId) (h r : Nat) (a : BitVec 40) (v : BitVec 32),
    Live s → Served s.chip m id h r true → RegionReg id → a.toNat = s.chip.localAddr (id.addr h r) → (s.chip.fld
      F.hmkCfg_SUPV h r = 1 ∨ (s.chip.region h r).act.supv = true) → m ≠ .own 0x11 →
    exec (.registerWrite m a v) s = .next (s.withChip ((if s.chip.on F.hmkStat_WR_REJ h r then s.chip else (s.chip.setFld
      F.hmkStat_WR_REJ h r 1).raise (13 * h + 12)).afterWrite s.chip m id h r v.toNat))) ∧
  (∀ (s : State) (m : Master) (id : RegId) (h r : Nat) (a : BitVec 40),
    Live s → Served s.chip (.own 0x11) id h r false → Free s.chip (given m false a.toNat 4 0 false) → RegionReg id → a.toNat
      = s.chip.localAddr (id.addr h r) →
    exec (.rcRead m a) s = .next (s.withChip ((s.chip.readReg m id h r).2.afterRead s.chip m id h r (s.chip.readReg m id h
      r).1)))

/-- A write of REQ queues (class, index) while fewer than 8 wait, and with 8 sets QFULL and raises 381 where it was 0. ABORT
with nothing running empties the queue and clears ASSAY_WAIT; with a frame-store bank under test it also enters a result
with code 5 and ends the request. ASSAY_RUN of an idle controller: an index that does not exist gives a result with code 4;
a class 8 or 9 outside maintenance one with code 3; a core without a free spare of its group sets ASSAY_WAIT; in maintenance
the core's unit itself is powered and begins its test; with a spare the core moves to it, the old unit is unusable, a MAP
change is queued and the test begins. A passing result of class 7 clears BUSY and is entered with the detail; results are 16
at most in each case (log entry 35). The two POP writes remove the oldest record. The ENTER key by a master other than 0x11
and 0x18 sets DENY; by one of those it halts the cores, clears RUN of the heads and of audio, halts the DMA channels and the
sequencers, parks the ports and sets MAINT. (rests on spec/16_power_assay_spares.md) -/
def Obligations.Assay : Prop :=
  (∀ (s : State) (m : Master) (cls : BitVec 4) (idx : BitVec 12),
    Live s → Served s.chip m .asyReq 0 0 true → s.chip.asy.queue.length < 8 →
    exec (.assayRequest m cls idx) s = .next (s.withChip ((s.chip.updAsy fun a =>
      { a with queue := a.queue ++ [(cls.toNat, idx.toNat)] }).afterWrite s.chip m .asyReq 0 0 ((2 ^ 31 + cls.toNat * 2 ^ 20
      + idx.toNat))))) ∧
  (∀ (s : State) (m : Master) (cls : BitVec 4) (idx : BitVec 12),
    Live s → Served s.chip m .asyReq 0 0 true → 8 ≤ s.chip.asy.queue.length → s.chip.on F.asyStat_QFULL = false →
    exec (.assayRequest m cls idx) s = .next (s.withChip (((s.chip.setFld F.asyStat_QFULL 0 0 1).raise 381).afterWrite
      s.chip m .asyReq 0 0 ((2 ^ 31 + cls.toNat * 2 ^ 20 + idx.toNat))))) ∧
  (∀ (s : State) (m : Master),
    Live s → Served s.chip m .asyReq 0 0 true → s.chip.on F.asyStat_BUSY = false →
    exec (.assayAbort m) s = .next (s.withChip (((s.chip.updAsy fun a => { a with queue := [] }).setFld F.asyStat_ASSAY_WAIT
      0 0 0).afterWrite s.chip m .asyReq 0 0 ((2 ^ 30))))) ∧
  (∀ (s : State) (m : Master) (p : Nat),
    Live s → Served s.chip m .asyReq 0 0 true → s.chip.on F.asyStat_BUSY = true → s.chip.asy.phys = some p → s.chip.fld
      F.asyStat_CLASS = 7 → s.chip.asy.results.length < 16 → s.chip.asy.marked = false →
    exec (.assayAbort m) s = .next (s.withChip (((((((s.chip.updAsy fun a => { a with queue := [] }).setFld
      F.asyStat_ASSAY_WAIT 0 0 0).setFld F.asyStat_BUSY 0 0 0).updAsy fun a =>
      { a with phys := none, logical := none, marked := false, results := a.results ++ [⟨5, 7, s.chip.fld F.asyStat_INDEX, p, s.chip.now % 2 ^ 32, 0⟩] }).asyStick
      F.asyStat_RESULT)).afterWrite s.chip m .asyReq 0 0 ((2 ^ 30))))) ∧
  (∀ (s : State) (cls idx : Nat) (rest : List (Nat × Nat)),
    Live s → s.chip.domOn 65 = true → s.chip.on F.asyStat_BUSY = false → s.chip.asy.queue = (cls, idx) :: rest → indexOk cls
      idx = false → s.chip.asy.results.length < 16 →
    exec (.assayRun) s = .next (s.withChip ((((s.chip.setFld F.asyStat_ASSAY_WAIT 0 0 0).updAsy fun a =>
      { a with queue := rest, results := a.results ++ [⟨4, cls, idx, 0, s.chip.now % 2 ^ 32, 0⟩] }).asyStick
      F.asyStat_RESULT)))) ∧
  (∀ (s : State) (cls idx : Nat) (rest : List (Nat × Nat)),
    Live s → s.chip.domOn 65 = true → s.chip.on F.asyStat_BUSY = false → s.chip.asy.queue = (cls, idx) :: rest → indexOk cls
      idx = true → cls = 8 ∨ cls = 9 → s.chip.on F.asyStat_MAINT = false → s.chip.asy.results.length < 16 →
    exec (.assayRun) s = .next (s.withChip ((((s.chip.setFld F.asyStat_ASSAY_WAIT 0 0 0).updAsy fun a =>
      { a with queue := rest, results := a.results ++ [⟨3, cls, idx, 0, s.chip.now % 2 ^ 32, 0⟩] }).asyStick
      F.asyStat_RESULT)))) ∧
  (∀ (s : State) (i : Nat) (rest : List (Nat × Nat)),
    Live s → s.chip.domOn 65 = true → s.chip.on F.asyStat_BUSY = false → s.chip.asy.queue = (0, i) :: rest → i < 8 →
      s.chip.on F.asyStat_MAINT = false → s.chip.dead.contains i = false → s.chip.freeSpares 0 (i / 4) = [] →
    exec (.assayRun) s = .next (s.withChip (s.chip.setFld F.asyStat_ASSAY_WAIT 0 0 1))) ∧
  (∀ (s : State) (i : Nat) (rest : List (Nat × Nat)),
    Live s → s.chip.domOn 65 = true → s.chip.on F.asyStat_BUSY = false → s.chip.asy.queue = (0, i) :: rest → i < 8 →
      s.chip.on F.asyStat_MAINT = true → s.chip.dead.contains i = false →
    exec (.assayRun) s = .next (s.withChip ((((((s.chip.asyPower 0 (s.chip.physOf 0 i) true).setFld F.asyStat_BUSY 0 0
      1).setFld F.asyStat_ASSAY_WAIT 0 0 0).setFld F.asyStat_CLASS 0 0 0).setFld F.asyStat_INDEX 0 0 i).updAsy fun a =>
      { a with queue := a.queue.drop 1, phys := some (s.chip.physOf 0 i), marked := false }))) ∧
  (∀ (s : State) (i p : Nat) (rest : List (Nat × Nat)) (ps : List Nat) (t : Chip),
    Live s → s.chip.domOn 65 = true → s.chip.on F.asyStat_BUSY = false → s.chip.asy.queue = (0, i) :: rest → i < 8 →
      s.chip.on F.asyStat_MAINT = false → s.chip.dead.contains i = false → s.chip.freeSpares 0 (i / 4) = p :: ps →
      s.chip.coreRotate i p = t → t.physOf 0 i = p →
    exec (.assayRun) s = .next (s.withChip (((({ t with unusable := t.unusable ++ [s.chip.physOf 0 i] }).queueChange ⟨2, 0,
      i, p, 0, 0, 0⟩).asyBegin 0 i (s.chip.physOf 0 i)).updAsy fun a => { a with marked := true }))) ∧
  (∀ (s : State) (code : BitVec 4) (detail : BitVec 32) (rows : List Nat) (p : Nat),
    Live s → s.chip.domOn 65 = true → s.chip.on F.asyStat_BUSY = true → s.chip.asy.phys = some p → s.chip.asy.logical = none
      → s.chip.asy.marked = false → s.chip.repair = none → s.chip.fld F.asyStat_CLASS = 7 → code = 0 →
      s.chip.asy.results.length < 16 →
    exec (.assayResult code detail rows) s = .next (s.withChip (((s.chip.setFld F.asyStat_BUSY 0 0 0).updAsy fun a =>
      { a with phys := none, logical := none, marked := false, results := a.results ++ [⟨0, 7, s.chip.fld F.asyStat_INDEX, p, s.chip.now % 2 ^ 32, detail.toNat⟩] }).asyStick
      F.asyStat_RESULT))) ∧
  (∀ (s : State) (m : Master),
    Live s → Served s.chip m .asyResPop 0 0 true →
    exec (.resPop m) s = .next (s.withChip ((s.chip.updAsy fun a => { a with results := a.results.drop 1 }).afterWrite
      s.chip m .asyResPop 0 0 1))) ∧
  (∀ (s : State) (m : Master),
    Live s → Served s.chip m .asyLgrPop 0 0 true →
    exec (.lgrPop m) s = .next (s.withChip ((s.chip.updAsy fun a => { a with changes := a.changes.drop 1 }).afterWrite
      s.chip m .asyLgrPop 0 0 1))) ∧
  (∀ (s : State) (m : Master),
    Live s → Served s.chip m .asyMaint 0 0 true → m ≠ .own 0x11 → m ≠ .own 0x18 →
    exec (.maintenanceEnter m) s = .next (s.withChip ((s.chip.setFld F.asyStat_DENY 0 0 1).afterWrite s.chip m .asyMaint 0 0
      0x3D7C0001))) ∧
  (∀ (s : State) (m : Master) (t1 t2 t3 t4 t5 : Chip),
    Live s → Served s.chip m .asyMaint 0 0 true → m = .own 0x11 ∨ m = .own 0x18 → (List.range 8).foldl (fun t k =>
      t.coreHalt k) s.chip = t1 → (List.range 8).foldl (fun t h => if t.on F.shCtrl_RUN h then t.setFld F.shCtrl_RUN h 0 0
      else t) t1 = t2 → t2.writeAudCtrl (t2.word .audCtrl % 2 ^ 32 - b2n (t2.on F.audCtrl_RUN) * 2 ^ F.audCtrl_RUN.lo) = t3
      → t3.chans.foldl (fun t k => t.dmaHalt k) t3 = t4 → (List.range 64).foldl (fun t q => t.psqHalt q) t4 = t5 →
    exec (.maintenanceEnter m) s = .next (s.withChip (((t5.setParked true).setFld F.asyStat_MAINT 0 0 1).afterWrite s.chip m
      .asyMaint 0 0 0x3D7C0001)))

/-- RAIL_ENTER: a rail already OK changes nothing; one without a loss to mend sets OK and lets the PCI Express domain power;
VCORE or VMEM after a loss of either, with both good, makes the cold reset of Table 17.8. RAIL_LEAVE of a good rail sets
LOST, clears OK, and: VCORE or VMEM parks the ports, turns the 66 domains off, and marks the loss (VMEM also that the stores
are to be zeroed); a serdes rail sends UP links to retraining, untrains the DisplayPort links with LINK_LOSS and takes PCI
Express down; VDAC ends the genlock reference and, where the time base follows it, loses that reference. While power-on
reset holds only the OK bit moves. TESTMODE high begins power-on reset and holds it; low ends the hold. (rests on
spec/17_balls_supplies.md) -/
def Obligations.Rails : Prop :=
  (∀ (s : State) (r : Fin 5),
    Live s → s.chip.fld (railOk r.1) = 1 →
    exec (.railEnter r) s = .next s) ∧
  (∀ (s : State) (r : Fin 5),
    Live s → s.chip.fld (railOk r.1) = 0 → (r.1 ≠ 2 ∧ r.1 ≠ 3 ∨ s.chip.fld (railLost r.1) = 0) → s.chip.boot.railsLost =
      false →
    exec (.railEnter r) s = .next (s.withChip (s.chip.setFld (railOk r.1) 0 0 1).powerPcie)) ∧
  (∀ (s : State) (r : Fin 2) (t : Chip),
    Live s → s.chip.fld (railOk r.1) = 0 → s.chip.boot.railsLost = true → s.chip.setFld (railOk r.1) 0 0 1 = t → t.fld
      F.sysSupply_VCORE_OK = 1 → t.fld F.sysSupply_VMEM_OK = 1 →
    exec (.railEnter ⟨r.1, by omega⟩) s = .next (s.withChip ((t.updBoot fun b =>
      { b with railsLost := false, due := none }).resetTo true 0).powerPcie)) ∧
  (∀ (s : State) (r : Fin 5),
    Live s → s.chip.fld (railOk r.1) = 1 → r.1 ≤ 1 →
    exec (.railLeave r) s = .next (s.withChip (((((s.chip.setFld (railOk r.1) 0 0 0).setFld (railLost r.1) 0 0 1).setParked
      true).setDoms (List.range 66) false).updBoot fun b =>
      { b with railsLost := true, zero := b.zero || decide (r.1 = 1), vmem := b.vmem || decide (r.1 = 1) }))) ∧
  (∀ (s : State) (r : Fin 5),
    Live s → s.chip.fld (railOk r.1) = 1 → (r.1 = 2 ∨ r.1 = 3) →
    exec (.railLeave r) s = .next (s.withChip (((List.range 8).foldl (fun t h => if t.fld F.shOut_OUTSEL h ≤ 1 ∧ t.on
      F.shDpstat_TRAINED h then (t.setFld F.shDpstat_TRAINED h 0 0).headStat F.shDpstat_LINK_LOSS h else t) ((List.range
      4).foldl (fun t l => if t.fld F.lnklStat_STATE l = 2 then t.setFld F.lnklStat_STATE l 0 3 else t) ((s.chip.setFld
      (railOk r.1) 0 0 0).setFld (railLost r.1) 0 0 1))).updPcie fun p => { p with up := false }))) ∧
  (∀ (s : State),
    Live s → s.chip.fld F.sysSupply_VDAC_OK = 1 →
    exec (.railLeave 4) s = .next (s.withChip (if 1 ≤ s.chip.fld F.tbStat_REFSRC then ((s.chip.setFld F.sysSupply_VDAC_OK 0
      0 0).setFld F.sysSupply_LOST_VDAC 0 0 1).genlockAbsent.refLost else ((s.chip.setFld F.sysSupply_VDAC_OK 0 0 0).setFld
      F.sysSupply_LOST_VDAC 0 0 1).genlockAbsent))) ∧
  (∀ (s : State) (r : Fin 5),
    s.sup.por = true →
    exec (.railEnter r) s = .next (s.withChip (s.chip.setFld (railOk r.1) 0 0 1)) ∧ exec (.railLeave r) s = .next
      (s.withChip (s.chip.setFld (railOk r.1) 0 0 0))) ∧
  (∀ (s : State),
    exec (.testmode true) s = .next
      { s with sup := ⟨true, true⟩, chip := if s.sup.por then s.chip else s.chip.powerOff false }) ∧
  (∀ (s : State),
    exec (.testmode false) s = .next { s with sup := { s.sup with testmode := false } })

/-- A write of POP removes the oldest error record. A patrol read of an uncorrectable beat of a served store counts it,
turns it into poison and logs kind 3 for master 0x50; one of a correctable beat counts and corrects it. A correctable-error
hour that began at least 3,600 s ago is forgotten. (rests on spec/11_fabric_stores.md) -/
def Obligations.ErrorLog : Prop :=
  (∀ (s : State) (m : Master),
    Live s → Served s.chip m .fabElogPop 0 0 true →
    exec (.elogPop m) s = .next (s.withChip (({ s.chip with elog := s.chip.elog.drop 1 }).afterWrite s.chip m .fabElogPop 0
      0 1))) ∧
  (∀ (s : State) (a : BitVec 30),
    Live s → s.chip.domOn 41 = true → s.chip.on F.fabCtrl_SCRUB_EN = true → a.toNat / 16 * 16 < 0x17000000 → s.chip.storeUp
      (a.toNat / 16 * 16) = true → Store.get? (a.toNat / 16 * 16) s.chip.marks = some .uncorrectable →
    exec (.scrub a) s = .next (s.withChip
      ({ (s.chip.countUe (s.chip.storeOf (a.toNat / 16 * 16))) with marks := NStore.set s.chip.marks (a.toNat / 16 * 16) .poison }.logErr
      3 (.own 0x50) (s.chip.storeOf (a.toNat / 16 * 16)) (s.chip.localAddr (a.toNat / 16 * 16))))) ∧
  (∀ (s : State) (a : BitVec 30),
    Live s → s.chip.domOn 41 = true → s.chip.on F.fabCtrl_SCRUB_EN = true → a.toNat / 16 * 16 < 0x17000000 → s.chip.storeUp
      (a.toNat / 16 * 16) = true → Store.get? (a.toNat / 16 * 16) s.chip.marks = some .correctable →
    exec (.scrub a) s = .next (s.withChip
      ({ (s.chip.countCe (s.chip.storeOf (a.toNat / 16 * 16))) with marks := NStore.del s.chip.marks (a.toNat / 16 * 16) }))) ∧
  (∀ (s : State) (i : Fin 64) (b n : Nat),
    Live s → s.chip.domOn 41 = true → Store.get? i.1 s.chip.ceHours = some (b, n) → 3600000000000 ≤ sub64 s.chip.tb.toNat b
      →
    exec (.ceHourEnd i) s = .next (s.withChip ({ s.chip with ceHours := NStore.del s.chip.ceHours i.1 })))

/-- GO on a bank with a free spare stores ROW and STORE and begins with BUSY and phase COPY, on the free spare of the lowest
number (log entry 27); GO while BUSY only sets REASON 1 and SPARE_FAIL. COPY_DONE in phase COPY checks the covered units,
sets PROGRESS 255 and goes to DRAIN for a bank and to SWITCH for a row. DRAIN_DONE gives the bank its spare in the map,
retires the old one, ends the repair and sets SPARE_DONE. ROW_SWITCH, with the head stopped or at the start of a beam line
with no write-back of that buffer in flight, adds 1 to USED and ends the repair. (rests on spec/11_fabric_stores.md) -/
def Obligations.StoreRepair : Prop :=
  (∀ (s : State) (m : Master) (v : BitVec 32) (p : Nat) (rest : List Nat),
    Live s → Served s.chip m .fabSpareCmd 0 0 true → s.chip.on F.fabSpareStat_BUSY = false → bits v.toNat 5 0 < 28 →
      s.chip.bankSpares = p :: rest →
    exec (.spareGo m v) s = .next (s.withChip ((((s.chip.setFld F.fabSpareCmd_ROW 0 0 (bits v.toNat 27 16)).setFld
      F.fabSpareCmd_STORE 0 0 (bits v.toNat 5 0)).spareBegin ⟨bits v.toNat 5 0, 0, p, false⟩).afterWrite s.chip m
      .fabSpareCmd 0 0 ((v.toNat % 2 ^ 31 + 2 ^ 31))))) ∧
  (∀ (s : State) (m : Master) (v : BitVec 32),
    Live s → Served s.chip m .fabSpareCmd 0 0 true → s.chip.on F.fabSpareStat_BUSY = true →
    exec (.spareGo m v) s = .next (s.withChip (((s.chip.setFld F.fabSpareStat_REASON 0 0 1).stick F.fabStat_SPARE_FAIL 0
      342).afterWrite s.chip m .fabSpareCmd 0 0 ((v.toNat % 2 ^ 31 + 2 ^ 31))))) ∧
  (∀ (s : State) (r : Repair),
    Live s → s.chip.domOn 41 = true → s.chip.repair = some r → s.chip.fld F.fabSpareStat_PHASE = 1 →
    exec (.copyDone) s = .next (s.withChip (((s.chip.checkUnits ((s.chip.marks.map fun p => p.1).filter r.covers)).2.setFld
      F.fabSpareStat_PROGRESS 0 0 255).setFld F.fabSpareStat_PHASE 0 0 (if r.store < 28 then 2 else 3)))) ∧
  (∀ (s : State) (r : Repair),
    Live s → s.chip.domOn 41 = true → s.chip.repair = some r → s.chip.fld F.fabSpareStat_PHASE = 2 →
    exec (.drainDone) s = .next (s.withChip
      ({ s.chip.setFld F.fabMap_PHYS r.store 0 r.spare with unusable := s.chip.unusable ++ [2 * 4096 + s.chip.fld F.fabMap_PHYS r.store] }.spareEnd))) ∧
  (∀ (s : State) (r : Repair),
    Live s → s.chip.domOn 41 = true → s.chip.repair = some r → s.chip.fld F.fabSpareStat_PHASE = 3 → s.chip.on
      F.shStat_RUNNING ((r.store - 32) / 2) = false ∨ s.chip.atLineStart ((r.store - 32) / 2) = true ∧
      s.chip.writeBackInFlight ((r.store - 32) / 2) ((r.store - 32) % 2) = false →
    exec (.rowSwitch) s = .next (s.withChip ((s.chip.setFld F.fabFsrow_USED (r.store - 32) 0 (s.chip.fld F.fabFsrow_USED
      (r.store - 32) + 1)).spareEnd)))

/-- Where spare p of its class serves nothing and is good, a logical unit is served by p from then on: a lane between two
courses and a core with no access outstanding, no instruction blocked and nothing issued since the last line start of head 0
or 15 µs instant (log entry 74) also hand their domain's state to p's domain and turn the old one off; a voice moves as it
is; a sequencer moves where it waits for nothing and none of its timed actions is due within 2,000 tk, and one whose next
SAMPLE has AT with TR within that time does not. (rests on spec/01_one_frame.md, spec/04_chasing.md, spec/07_sound.md,
spec/10_anvil_system.md, spec/13_pins_sequencers.md) -/
def Obligations.Rotations : Prop :=
  (∀ (s : State) (j : Fin 16) (p : Fin 20),
    Live s → s.chip.domOn 37 = true → s.chip.spareFree 1 16 p.1 = true → s.chip.laneBetween j.1 = true →
    exec (.laneRotation j p) s = .next (s.withChip (((s.chip.moveUnit 1 j.1 p.1).setDom (9 + p.1) (s.chip.domOn (9 +
      s.chip.physOf 1 j.1))).setDom (9 + s.chip.physOf 1 j.1) false))) ∧
  (∀ (s : State) (k : Fin 8) (p : Fin 9),
    Live s → s.chip.spareFree 0 8 p.1 = true → (s.chip.core k.1).fab = [] → (s.chip.core k.1).blocked = none → sub64
      s.chip.now s.chip.rotationInstant ≤ sub64 s.chip.now (s.chip.core k.1).issuedAt →
    exec (.coreRotation k p) s = .next (s.withChip (((s.chip.moveUnit 0 k.1 p.1).setDom p.1 (s.chip.domOn (s.chip.physOf 0
      k.1))).setDom (s.chip.physOf 0 k.1) false))) ∧
  (∀ (s : State) (i : Fin 512) (p : Fin 544),
    Live s → s.chip.domOn 42 = true → s.chip.spareFree 4 512 p.1 = true →
    exec (.voiceRotation i p) s = .next (s.withChip (s.chip.moveUnit 4 i.1 p.1))) ∧
  (∀ (s : State) (q : Fin 64) (p : Fin 68),
    Live s → s.chip.spareFree 5 64 p.1 = true → (s.chip.psq q.1).wait = none → s.chip.psqSoon q.1 = false →
    exec (.psqRotation q p) s = .next (s.withChip (s.chip.moveUnit 5 q.1 p.1))) ∧
  (∀ (s : State) (q : Fin 64) (p : Fin 68),
    Live s → s.chip.psqState q.1 = 2 → bit (s.chip.psqInst q.1) 27 = true → bits (s.chip.psqInst q.1) 31 28 = 5 → reached
      (s.chip.psq q.1).tr (s.chip.now + 2000) = false →
    exec (.psqRotation q p) s = .next (s.withChip (s.chip)))

/-- A tick adds 1 to the count, whatever holds, leaves the stores, the queue and the supplies as they were, and, where the
count does not wrap, every register field. The tick that wraps the count to 0 sets WRAP. Loss of the reference clears
PLL_LOCK and sets REF_LOST with event 272; its return and the PLL's lock set PLL_LOCK and nothing else. A read of TB_LO
answers bits [31:0] and keeps bits [63:32] for the same reader. (rests on spec/12_time_events_measurement.md) -/
def Obligations.TimeBase : Prop :=
  (∀ (s : State),
    ∃ t, exec .tick s = .next t ∧ t.pending = s.pending ∧ t.sup = s.sup ∧ t.chip.tb = s.chip.tb + 1 ∧ SameBytes t.chip
      s.chip ∧ (s.chip.now + 1 < 2 ^ 64 → t.chip.flds = s.chip.flds)) ∧
  (∀ (s : State),
    s.chip.tb = BitVec.allOnes 64 →
    ∃ t, exec .tick s = .next t ∧ t.chip.tb = 0 ∧ t.chip.on F.tbStat_WRAP = true) ∧
  (∀ (s : State),
    Live s →
    exec (.refLost) s = .next (s.withChip ((s.chip.setFld F.tbStat_PLL_LOCK 0 0 0).stick F.tbStat_REF_LOST 0 272))) ∧
  (∀ (s : State),
    Live s →
    exec (.refReturn) s = .next (s.withChip (s.chip.setFld F.tbStat_PLL_LOCK 0 0 1))) ∧
  (∀ (s : State),
    exec .tbPllLock s = .next (s.withChip (s.chip.setFld F.tbStat_PLL_LOCK 0 0 1))) ∧
  (∀ (s : State) (m : Master),
    Live s → Served s.chip m .tbLo 0 0 false →
    exec (.tbRead m) s = .next (s.withChip
      (({ s.chip with tbHi := NStore.set s.chip.tbHi (tbReader m) (s.chip.now / 2 ^ 32) }).afterRead s.chip m .tbLo 0 0
      (s.chip.now % 2 ^ 32))))

/-- With no old value due, a write to VAL_HI commits the staged VAL_LO with it and sets ARMED, evaluated now: a value not
due waits; one due (on time or late) of a channel not paired below another fires at once. COMPARE_FIRE of a due channel sets
FIRED (LATE too where late), raises its event, acts on its output by ACT (set, clear, invert or keep; ACT 1 of a paired odd
channel sets the output below), and with PERIOD 0 clears ARMED; on time with another PERIOD it adds that to V; a channel
that is not due changes nothing. DISARM of an even, unpaired channel takes ACT and clears ARMED, OUT as it was; of an odd
one with PAIR 1 it also sets PAIR and clears OUT. A channel fires at most once in a tick: that a re-armed one is judged in
the next is the model's choice (log entry 87). (rests on spec/12_time_events_measurement.md) -/
def Obligations.CompareChannels : Prop :=
  (∀ (s : State) (m : Master) (i : Fin 256) (v : BitVec 32) (t : Chip),
    Live s → Served s.chip m .cmpValHi i.1 0 true → s.chip.cmpDue i.1 = none → ((((s.chip.setFld F.cmpValLo_V i.1 0
      (s.chip.cmp i.1).stage).setFld F.cmpValHi_V i.1 0 v.toNat).setFld F.cmpStat_ARMED i.1 0 1).updCmp i.1 fun x =>
      { x with since := s.chip.now, again := (s.chip.cmp i.1).firedAt == some s.chip.now }) = t → t.cmpDue i.1 = none →
    exec (.compareArm m i v) s = .next (s.withChip ((t).afterWrite s.chip m .cmpValHi i.1 0 v.toNat))) ∧
  (∀ (s : State) (m : Master) (i : Fin 256) (v : BitVec 32) (t : Chip) (late : Bool),
    Live s → Served s.chip m .cmpValHi i.1 0 true → s.chip.cmpDue i.1 = none → ((((s.chip.setFld F.cmpValLo_V i.1 0
      (s.chip.cmp i.1).stage).setFld F.cmpValHi_V i.1 0 v.toNat).setFld F.cmpStat_ARMED i.1 0 1).updCmp i.1 fun x =>
      { x with since := s.chip.now, again := (s.chip.cmp i.1).firedAt == some s.chip.now }) = t → t.paired i.1 = false →
      t.cmpDue i.1 = some late →
    exec (.compareArm m i v) s = .next (s.withChip ((t.cmpFire i.1 late).afterWrite s.chip m .cmpValHi i.1 0 v.toNat))) ∧
  (∀ (s : State) (i : Fin 256),
    Live s → s.chip.domOn 47 = true → s.chip.paired i.1 = false → s.chip.cmpDue i.1 = some false → s.chip.fld
      F.cmpPeriod_PERIOD i.1 = 0 →
    exec (.compareFire i) s = .next (s.withChip (((((s.chip.setFld F.cmpStat_FIRED i.1 0 1).raise (if i.1 < 32 then 104 +
      i.1 else 136 + (i.1 - 32) / 32)).cmpAct i.1).setFld F.cmpStat_ARMED i.1 0 0).updCmp i.1 fun x =>
      { x with again := false, firedAt := some s.chip.now }))) ∧
  (∀ (s : State) (i : Fin 256),
    Live s → s.chip.domOn 47 = true → s.chip.paired i.1 = false → s.chip.cmpDue i.1 = some true → s.chip.fld
      F.cmpPeriod_PERIOD i.1 = 0 →
    exec (.compareFire i) s = .next (s.withChip ((((((s.chip.setFld F.cmpStat_FIRED i.1 0 1).setFld F.cmpStat_LATE i.1 0
      1).raise (if i.1 < 32 then 104 + i.1 else 136 + (i.1 - 32) / 32)).cmpAct i.1).setFld F.cmpStat_ARMED i.1 0 0).updCmp
      i.1 fun x => { x with again := false, firedAt := some s.chip.now }))) ∧
  (∀ (s : State) (i : Fin 256),
    Live s → s.chip.domOn 47 = true → s.chip.paired i.1 = false → s.chip.cmpDue i.1 = some false → s.chip.fld
      F.cmpPeriod_PERIOD i.1 ≠ 0 →
    exec (.compareFire i) s = .next (s.withChip (((((s.chip.setFld F.cmpStat_FIRED i.1 0 1).raise (if i.1 < 32 then 104 +
      i.1 else 136 + (i.1 - 32) / 32)).cmpAct i.1).setFld64 F.cmpValLo_V F.cmpValHi_V i.1 0 ((s.chip.fld64 F.cmpValLo_V
      F.cmpValHi_V i.1 + s.chip.fld F.cmpPeriod_PERIOD i.1) % 2 ^ 64)).updCmp i.1 fun x =>
      { x with since := s.chip.now, again := true, firedAt := some s.chip.now }))) ∧
  (∀ (c : Chip) (i : Nat),
    c.paired i = false → (c.cmp (i + 1)).firedAt ≠ some c.now →
    c.cmpAct i = c.setFld F.cmpStat_OUT i 0 (if c.fld F.cmpCtrl_ACT i = 1 then 1 else if c.fld F.cmpCtrl_ACT i = 2 then 0
      else if c.fld F.cmpCtrl_ACT i = 3 then 1 - c.fld F.cmpStat_OUT i else c.fld F.cmpStat_OUT i)) ∧
  (∀ (c : Chip) (i : Nat),
    i % 2 = 1 → c.on F.cmpCtrl_PAIR i = true → c.fld F.cmpCtrl_ACT i = 1 →
    c.cmpAct i = c.setFld F.cmpStat_OUT (i - 1) 0 1) ∧
  (∀ (s : State) (i : Fin 256),
    Live s → s.chip.domOn 47 = true → s.chip.cmpDue i.1 = none →
    exec (.compareFire i) s = .next (s.withChip (s.chip))) ∧
  (∀ (s : State) (m : Master) (i : Fin 256) (v : BitVec 32),
    Live s → Served s.chip m .cmpCtrl i.1 0 true → i.1 % 2 = 0 → s.chip.on F.cmpCtrl_PAIR i.1 = false →
    exec (.disarm m i v) s = .next (s.withChip ((((s.chip.setFld F.cmpCtrl_ACT i.1 0 (bits v.toNat 9 8)).setFld
      F.cmpStat_ARMED i.1 0 0).updCmp i.1 fun x => { x with again := false }).afterWrite s.chip m .cmpCtrl i.1 0 ((v.toNat %
      2 ^ 31 + 2 ^ 31))))) ∧
  (∀ (s : State) (m : Master) (i : Fin 256) (v : BitVec 32),
    Live s → Served s.chip m .cmpCtrl i.1 0 true → i.1 % 2 = 1 → bits v.toNat 4 4 = 1 →
    exec (.disarm m i v) s = .next (s.withChip (((((((s.chip.setFld F.cmpCtrl_ACT i.1 0 (bits v.toNat 9 8)).setFld
      F.cmpCtrl_PAIR i.1 0 1)).setFld F.cmpStat_OUT i.1 0 0).setFld F.cmpStat_ARMED i.1 0 0).updCmp i.1 fun x =>
      { x with again := false }).afterWrite s.chip m .cmpCtrl i.1 0 ((v.toNat % 2 ^ 31 + 2 ^ 31)))))

/-- START with RELOAD not 0 sets RUNNING, its load waiting for the next prescaled tick; with RELOAD 0 it sets CFG_ERR. CONT
of a stopped counter with COUNT not 0 sets RUNNING; STOP clears RUNNING and a waiting load; LOAD of a stopped counter copies
RELOAD. A prescaled tick of a running counter (a multiple of 2^PRE passed since the last) performs a waiting load; or lowers
COUNT by 1 above 1; or at COUNT 1 or less in the one-shot mode sets ZERO, raises 143 + i, leaves COUNT 0 and stops. (rests
on spec/12_time_events_measurement.md) -/
def Obligations.IntervalCounters : Prop :=
  (∀ (s : State) (m : Master) (i : Fin 64),
    Live s → Served s.chip m .intCmd i.1 0 true → s.chip.fld F.intReload_RELOAD i.1 ≠ 0 →
    exec (.intervalStart m i) s = .next (s.withChip (((s.chip.setFld F.intStat_RUNNING i.1 0 1).updIntv i.1 fun _ => ⟨true,
      s.chip.now⟩).afterWrite s.chip m .intCmd i.1 0 1))) ∧
  (∀ (s : State) (m : Master) (i : Fin 64),
    Live s → Served s.chip m .intCmd i.1 0 true → s.chip.fld F.intReload_RELOAD i.1 = 0 →
    exec (.intervalStart m i) s = .next (s.withChip ((s.chip.setFld F.intStat_CFG_ERR i.1 0 1).afterWrite s.chip m .intCmd
      i.1 0 1))) ∧
  (∀ (s : State) (m : Master) (i : Fin 64),
    Live s → Served s.chip m .intCmd i.1 0 true → s.chip.fld F.intCount_COUNT i.1 ≠ 0 → s.chip.on F.intStat_RUNNING i.1 =
      false →
    exec (.intervalCont m i) s = .next (s.withChip (((s.chip.setFld F.intStat_RUNNING i.1 0 1).updIntv i.1 fun _ => ⟨false,
      s.chip.now⟩).afterWrite s.chip m .intCmd i.1 0 2))) ∧
  (∀ (s : State) (m : Master) (i : Fin 64),
    Live s → Served s.chip m .intCmd i.1 0 true →
    exec (.intervalStop m i) s = .next (s.withChip (((s.chip.setFld F.intStat_RUNNING i.1 0 0).updIntv i.1 fun x =>
      { x with load := false }).afterWrite s.chip m .intCmd i.1 0 4))) ∧
  (∀ (s : State) (m : Master) (i : Fin 64),
    Live s → Served s.chip m .intCmd i.1 0 true → s.chip.on F.intStat_RUNNING i.1 = false →
    exec (.intervalLoad m i) s = .next (s.withChip ((s.chip.setFld F.intCount_COUNT i.1 0 (s.chip.fld F.intReload_RELOAD
      i.1)).afterWrite s.chip m .intCmd i.1 0 8))) ∧
  (∀ (s : State) (i : Fin 64),
    Live s → s.chip.domOn 47 = true → s.chip.on F.intStat_RUNNING i.1 = true → 2 ^ s.chip.fld F.intCtrl_PRE i.1 -
      (s.chip.intv i.1).last % 2 ^ s.chip.fld F.intCtrl_PRE i.1 ≤ sub64 s.chip.now (s.chip.intv i.1).last → (s.chip.intv
      i.1).load = true → s.chip.fld F.intReload_RELOAD i.1 ≠ 0 →
    exec (.prescaledTick i) s = .next (s.withChip ((s.chip.updIntv i.1 fun _ => ⟨false, s.chip.now⟩).setFld F.intCount_COUNT
      i.1 0 (s.chip.fld F.intReload_RELOAD i.1)))) ∧
  (∀ (s : State) (i : Fin 64),
    Live s → s.chip.domOn 47 = true → s.chip.on F.intStat_RUNNING i.1 = true → 2 ^ s.chip.fld F.intCtrl_PRE i.1 -
      (s.chip.intv i.1).last % 2 ^ s.chip.fld F.intCtrl_PRE i.1 ≤ sub64 s.chip.now (s.chip.intv i.1).last → (s.chip.intv
      i.1).load = false → 1 < s.chip.fld F.intCount_COUNT i.1 →
    exec (.prescaledTick i) s = .next (s.withChip ((s.chip.updIntv i.1 fun _ => ⟨false, s.chip.now⟩).setFld F.intCount_COUNT
      i.1 0 (s.chip.fld F.intCount_COUNT i.1 - 1)))) ∧
  (∀ (s : State) (i : Fin 64),
    Live s → s.chip.domOn 47 = true → s.chip.on F.intStat_RUNNING i.1 = true → 2 ^ s.chip.fld F.intCtrl_PRE i.1 -
      (s.chip.intv i.1).last % 2 ^ s.chip.fld F.intCtrl_PRE i.1 ≤ sub64 s.chip.now (s.chip.intv i.1).last → (s.chip.intv
      i.1).load = false → s.chip.fld F.intCount_COUNT i.1 ≤ 1 → s.chip.on F.intCtrl_MODE i.1 = false →
    exec (.prescaledTick i) s = .next (s.withChip (((((s.chip.updIntv i.1 fun _ => ⟨false, s.chip.now⟩).setFld
      F.intStat_ZERO i.1 0 1).raise (143 + i.1)).setFld F.intCount_COUNT i.1 0 0).setFld F.intStat_RUNNING i.1 0 0)))

/-- CAPTURE_ACCEPT of an enabled edge channel, once a tick, puts the instant of the filtered edge now at its port, of the
direction the command names and within 1 tk as it says, behind the waiting captures. CAPTURE_COMMIT with BIND 0 takes the
oldest once 16 tk have passed: its value, SEQ plus 1, NEW, OVR where NEW stood, and event 207 + c. A read of CAP_c_LO
commits what is due, answers the low 32 bits of the value, and with nothing waiting and NEW set latches HI, SEQ and NEW and
clears NEW and OVR. (rests on spec/12_time_events_measurement.md) -/
def Obligations.CaptureChannels : Prop :=
  (∀ (s : State) (i : Fin 64) (r : Bool) (o : Fin 3) (e : Nat),
    Live s → s.chip.domOn 47 = true → s.chip.on F.capCtrl_EN i.1 = true → s.chip.on F.capCtrl_KIND i.1 = false → (s.chip.cap
      i.1).acceptAt ≠ some s.chip.now → s.chip.edgeAt (s.chip.fld F.capCtrl_PORT i.1) (s.chip.fld F.capCtrl_FILT i.1) = some
      (e, r) → edgeIs (s.chip.fld F.capCtrl_EDGE i.1) r = true →
    exec (.captureAccept i r o) s = .next (s.withChip (s.chip.updCap i.1 fun x =>
      { x with waiting := x.waiting ++ [(sub64 (e + o.1) 1, s.chip.now, 0)], acceptAt := some s.chip.now }))) ∧
  (∀ (s : State) (i : Fin 64) (v a hop : Nat) (rest : List (Nat × Nat × Nat)),
    Live s → s.chip.domOn 47 = true → s.chip.on F.capCtrl_BIND i.1 = false → (s.chip.cap i.1).waiting = (v, a, hop) :: rest
      → 16 ≤ sub64 s.chip.now a →
    exec (.captureCommit i) s = .next (s.withChip ((s.chip.updCap i.1 fun x =>
      { x with waiting := rest, value := v, seq := (x.seq + 1) % 256, isNew := true, ovr := x.ovr || x.isNew, oor := false, blank := false, x := 0, y := 0, frame := 0 }).raiseHop
      (207 + i.1) hop))) ∧
  (∀ (s : State) (m : Master) (i : Fin 64),
    Live s → Served s.chip m .capLo i.1 0 false →
    exec (.captureRead m i) s = .next (s.withChip (((s.chip.captureRead i.1).2).afterRead s.chip m .capLo i.1 0
      (((s.chip.captureCommit i.1).cap i.1).value % 2 ^ 32)))) ∧
  (∀ (c : Chip) (i : Nat),
    (c.cap i).waiting = [] → (c.cap i).isNew = true →
    ((c.captureRead i).2.cap i).isNew = false ∧ ((c.captureRead i).2.cap i).ovr = false ∧ (c.captureRead i).2.fld
      F.capStatus_NEW i = 1 ∧ (c.captureRead i).2.fld F.capHi_T i = (c.cap i).value / 2 ^ 32 % 2 ^ 32 ∧ (c.captureRead
      i).2.fld F.capStatus_SEQ i = (c.cap i).seq % 256)

/-- ADC_READY with EN 1 sets READY. START of an idle ready converter sets BUSY and begins step 0 now; while BUSY it sets
TRIG_LOST only. STOP asks for the end after the sequence. A result due of a step whose port is analogue, not the last, with
room in the FIFO, off its mark and outside a window, adds the word of sequence, channel and floor(V x 4096 / 2.5 V) limited
to 4,095, and goes to the next step. A result of a port not analogue in its window with a full FIFO sets NOTANA and OVR,
counts OVR, and goes on. A read of ADC_FIFO answers and removes the oldest word, or answers 0 and changes nothing. (rests on
spec/12_time_events_measurement.md) -/
def Obligations.Converter : Prop :=
  (∀ (s : State),
    Live s → s.chip.domOn 48 = true → s.chip.on F.adcCtrl_EN = true →
    exec (.adcReady) s = .next (s.withChip (s.chip.setFld F.adcStat_READY 0 0 1))) ∧
  (∀ (s : State) (m : Master),
    Live s → Served s.chip m .adcCmd 0 0 true → s.chip.on F.adcStat_BUSY = false → s.chip.on F.adcStat_READY = true →
    exec (.adcStart m) s = .next (s.withChip
      (({ (s.chip.setFld F.adcStat_BUSY 0 0 1) with adc := { s.chip.adc with start := s.chip.now, step := 0, hop := none, stop := false, ana := none } }).afterWrite
      s.chip m .adcCmd 0 0 1))) ∧
  (∀ (s : State) (m : Master),
    Live s → Served s.chip m .adcCmd 0 0 true → s.chip.on F.adcStat_BUSY = true →
    exec (.adcStart m) s = .next (s.withChip ((s.chip.setFld F.adcStat_TRIG_LOST 0 0 1).afterWrite s.chip m .adcCmd 0 0 1))) ∧
  (∀ (s : State) (m : Master),
    Live s → Served s.chip m .adcCmd 0 0 true →
    exec (.adcStop m) s = .next (s.withChip (({ s.chip with adc := { s.chip.adc with stop := true } }).afterWrite s.chip m
      .adcCmd 0 0 2))) ∧
  (∀ (s : State) (uv : BitVec 32),
    Live s → s.chip.domOn 48 = true → s.chip.on F.adcStat_BUSY = true → 508 + 500 * s.chip.adc.step ≤ sub64 s.chip.now
      s.chip.adc.start → s.chip.adc.ana = none → s.chip.fld F.pinCfg_FUNC (s.chip.adcChan s.chip.adc.step) = 11 →
      s.chip.adc.step < s.chip.fld F.adcCtrl_LENM1 → s.chip.adc.fifo.length < 32 → s.chip.adc.fifo.length + 1 ≠ s.chip.fld
      F.adcFifomark_MARK → bit (s.chip.fld F.adcWinen_EN) (s.chip.adcChan s.chip.adc.step) = false →
    exec (.adcResult uv) s = .next (s.withChip
      ({ s.chip with adc := { s.chip.adc with fifo := s.chip.adc.fifo ++ [2 ^ 31 + s.chip.adc.seq % 256 * 2 ^ 16 + s.chip.adcChan s.chip.adc.step * 2 ^ 12 + min 4095 (uv.toInt * 4096 / 2500000).toNat], step := s.chip.adc.step + 1 } }.dmaLevels))) ∧
  (∀ (s : State) (uv : BitVec 32),
    Live s → s.chip.domOn 48 = true → s.chip.on F.adcStat_BUSY = true → 508 + 500 * s.chip.adc.step ≤ sub64 s.chip.now
      s.chip.adc.start → s.chip.adc.ana = some false → s.chip.adc.step < s.chip.fld F.adcCtrl_LENM1 → s.chip.adc.fifo.length
      = 32 →
    exec (.adcResult uv) s = .next (s.withChip
      ({ (((s.chip.setFld F.adcStat_NOTANA 0 0 1).setFld F.adcStat_OVR 0 0 1).bump F.adcOvrcnt_COUNT F.adcOvrcnt_SAT) with adc := { s.chip.adc with step := s.chip.adc.step + 1, ana := none } }.dmaLevels))) ∧
  (∀ (s : State) (m : Master) (w : Nat) (rest : List Nat),
    Live s → Served s.chip m .adcFifo 0 0 false → s.chip.adc.fifo = w :: rest →
    exec (.adcFifoPop m) s = .next (s.withChip (({ s.chip with adc := { s.chip.adc with fifo := rest } }).afterRead s.chip m
      .adcFifo 0 0 (w)))) ∧
  (∀ (s : State) (m : Master),
    Live s → Served s.chip m .adcFifo 0 0 false → s.chip.adc.fifo = [] →
    exec (.adcFifoPop m) s = .next (s.withChip ((s.chip).afterRead s.chip m .adcFifo 0 0 (0))))

/-- EVF_SWTRIG puts an arrival for the task input it names in the queue, EVF_SWPROD raises producer 383. At a fabric instant
not yet taken: with nothing due and nothing waiting only the instant is noted; one due arrival at a flag sets VAL of the
flag and goes to the host's vectors; one due arrival at an ungated interrupt source (65 to 127) without COUNT raises that
source. (rests on spec/12_time_events_measurement.md) -/
def Obligations.EventsDelivered : Prop :=
  (∀ (s : State) (m : Master) (t : BitVec 9),
    Live s → Served s.chip m .evfSwtrig 0 0 true →
    exec (.swtrig m t) s = .next (s.withChip
      (({ s.chip with evq := s.chip.evq ++ ([⟨1023, s.chip.now, 0, [t.toNat], [], []⟩] : List Arrival) }).afterWrite s.chip
      m .evfSwtrig 0 0 t.toNat))) ∧
  (∀ (s : State) (m : Master) (v : BitVec 32),
    Live s → Served s.chip m .evfSwprod 0 0 true →
    exec (.swprod m v) s = .next (s.withChip ((s.chip.raise 383).afterWrite s.chip m .evfSwprod 0 0 v.toNat))) ∧
  (∀ (s : State),
    Live s → s.chip.domOn 47 = true → s.chip.evAt ≠ some (s.chip.now / 4 * 4) → (s.chip.evq.filter fun a => a.due
      s.chip.now) = [] → s.chip.countWaiting = [] →
    exec (.eventDelivery) s = .next (s.withChip ({ s.chip with evAt := some (s.chip.now / 4 * 4) }.dmaLevels))) ∧
  (∀ (s : State) (p n f : Nat) (a : Nat),
    Live s → s.chip.domOn 47 = true → s.chip.evAt ≠ some (s.chip.now / 4 * 4) → s.chip.evq = ([⟨p, a, n, [], [f], []⟩] :
      List Arrival) → (a + 7) / 4 * 4 - a ≤ sub64 s.chip.now a → s.chip.countWaiting = [] → p < 384 →
    exec (.eventDelivery) s = .next (s.withChip ((({ s.chip with evq := [], evAt := some (s.chip.now / 4 * 4) }.setFld
      F.evfFlag_VAL f 0 1).hostEvent p).dmaLevels))) ∧
  (∀ (s : State) (k a : Nat),
    Live s → s.chip.domOn 47 = true → s.chip.evAt ≠ some (s.chip.now / 4 * 4) → s.chip.evq = ([⟨1023, a, 0, [k], [], []⟩] :
      List Arrival) → (a + 7) / 4 * 4 - a ≤ sub64 s.chip.now a → s.chip.countWaiting = [] → s.chip.gatePass k = true → 64 <
      k ∧ k < 128 → s.chip.on F.evfTask_COUNT k = false →
    exec (.eventDelivery) s = .next (s.withChip (({ s.chip with evq := [], evAt := some (s.chip.now / 4 * 4) }.raiseSource
      k).dmaLevels)))

/-- At a latch instant that is due, a head with RUN 1 and no self-refresh armed takes the next frame number (here not
wrapping) and what R21 takes at the instant; with RUN 0 it stops; armed, it stops and sets PSR_ACT. VBLANK at the start of
line VA, FRAME_DONE after the last active dot, and a line match k enabled at its dot and line (before the latch line) raise
producers 13h + 2, 13h + 3 and 13h + 4 + k, once in a tick. A line that may be read now (within its window, each once and in
order) is read: it becomes the line the head holds, with HA pixels, and the next one is expected. The instants are tested
against the count; the sender chooses the fraction of a tick (log entry 72). (rests on spec/01_one_frame.md,
spec/06_scan_heads.md) -/
def Obligations.ScanFrames : Prop :=
  (∀ (s : State) (h : Fin 8) (fr : BitVec 16),
    Live s → s.chip.domOn (29 + h.1) = true → s.chip.on F.shStat_RUNNING h.1 = true → s.chip.latchDue h.1 (s.chip.now16 +
      fr.toNat) = true → s.chip.on F.shCtrl_RUN h.1 = true → (s.chip.head h.1).psrArm = false → s.chip.fld F.shFrame_FRAME
      h.1 + 1 < 2 ^ 32 →
    exec (.latch h fr) s = .next (s.withChip ((s.chip.setFld F.shFrame_FRAME h.1 0 (s.chip.fld F.shFrame_FRAME h.1 +
      1)).latchTake h.1 (s.chip.now16 + fr.toNat)))) ∧
  (∀ (s : State) (h : Fin 8) (fr : BitVec 16),
    Live s → s.chip.domOn (29 + h.1) = true → s.chip.on F.shStat_RUNNING h.1 = true → s.chip.latchDue h.1 (s.chip.now16 +
      fr.toNat) = true → s.chip.on F.shCtrl_RUN h.1 = false →
    exec (.latch h fr) s = .next (s.withChip ((s.chip.setFld F.shStat_RUNNING h.1 0 0).stopComp h.1))) ∧
  (∀ (s : State) (h : Fin 8) (fr : BitVec 16),
    Live s → s.chip.domOn (29 + h.1) = true → s.chip.on F.shStat_RUNNING h.1 = true → s.chip.latchDue h.1 (s.chip.now16 +
      fr.toNat) = true → s.chip.on F.shCtrl_RUN h.1 = true → (s.chip.head h.1).psrArm = true →
    exec (.latch h fr) s = .next (s.withChip (((s.chip.setFld F.shStat_RUNNING h.1 0 0).setFld F.shDpstat_PSR_ACT h.1 0
      1).stopComp h.1))) ∧
  (∀ (s : State) (h : Fin 8),
    Live s → s.chip.domOn (29 + h.1) = true → s.chip.lineStart h.1 (s.chip.fld F.shVtime_VA h.1) = true → NStore.get 0
      (s.chip.head h.1).fired 2 ≠ s.chip.ticks + 1 →
    exec (.vblank h) s = .next (s.withChip ((s.chip.updHead h.1 fun x =>
      { x with fired := NStore.put0 x.fired 2 (s.chip.ticks + 1) }).raise (13 * h.1 + 2)))) ∧
  (∀ (s : State) (h : Fin 8),
    Live s → s.chip.domOn (29 + h.1) = true → s.chip.inTick h.1 (s.chip.beam16 h.1 (s.chip.fld F.shHtime_HA h.1) (s.chip.fld
      F.shVtime_VA h.1 - 1)) = true → NStore.get 0 (s.chip.head h.1).fired 3 ≠ s.chip.ticks + 1 →
    exec (.frameDone h) s = .next (s.withChip ((s.chip.updHead h.1 fun x =>
      { x with fired := NStore.put0 x.fired 3 (s.chip.ticks + 1) }).raise (13 * h.1 + 3)))) ∧
  (∀ (s : State) (h : Fin 8) (k : Fin 2) (x y : Nat),
    Live s → s.chip.domOn (29 + h.1) = true → s.chip.on F.shLmatch_EN h.1 k.1 = true → s.chip.fld F.shLmatch_DOT h.1 k.1 = x
      → s.chip.fld F.shLmatch_LINE h.1 k.1 = y → x < s.chip.fld F.shHtime_HT h.1 → y < s.chip.fld F.shVtime_VT h.1 - 1 →
      s.chip.inTick h.1 (s.chip.beam16 h.1 x y) = true → NStore.get 0 (s.chip.head h.1).fired (4 + k.1) ≠ s.chip.ticks + 1 →
    exec (.lmatch h k) s = .next (s.withChip ((s.chip.updHead h.1 fun z =>
      { z with fired := NStore.put0 z.fired (4 + k.1) (s.chip.ticks + 1) }).raise (13 * h.1 + (4 + k.1))))) ∧
  (∀ (s : State) (h : Fin 8) (y g : BitVec 16),
    Live s → s.chip.domOn (29 + h.1) = true → s.chip.readable h.1 y.toNat = true →
    ∃ t, exec (.lineRead h y g) s = .next (s.withChip t) ∧ (t.head h.1).lineNo = y.toNat ∧ (t.head h.1).nextLine = y.toNat +
      1 ∧ (t.head h.1).lineOut.length = s.chip.fld F.shHtime_HA h.1)

/-- A course that is ready, neither first nor last of its frame, with lanes and in a mode other than 1, takes the queued
writes of the lines before it, refreshes the line copies of its layers, begins with no line composed, reads its course
copies and decides on its ingot. A course whose next line is not released counts one stall. A released line is composed; the
last line of a course also hands the course to a buffer and goes to the next course. The seal of a buffered course of mode
0, not the last, writes its rows to the frame store, keeps the least slack, gives its rows to the compose taps and the tee,
and counts the course. A teed frame whose tee writes have all been answered sends its fence to the chip it names. (rests on
spec/01_one_frame.md, spec/03_line_programs.md, spec/04_chasing.md) -/
def Obligations.Composition : Prop :=
  (∀ (s : State) (h : Fin 8) (k : Nat) (x : Machine.Frm),
    Live s → s.chip.domOn 37 = true → (s.chip.comp h.1).course = k + 1 → s.chip.frm h.1 (s.chip.comp h.1).frame = x →
      s.chip.courseReady h.1 (courseEnd (s.chip.va h.1) (2 ^ x.chLog2) (k + 1)) = true → x.mode ≠ 1 → (s.chip.lanesOf
      h.1).isEmpty = false → k + 2 < courseCount (s.chip.va h.1) (2 ^ x.chLog2) →
    exec (.courseBegin h) s = .next (s.withChip ((((x.set.foldl (fun t l => t.refreshCopies l.k) (s.chip.takeWrites h.1
      (s.chip.comp h.1).frame ((k + 1) * 2 ^ x.chLog2 - 1))).updComp h.1 fun z =>
      { z with composing := true, line := (k + 1) * 2 ^ x.chLog2, cur := [], stalled := false }).courseReads
      h.1).courseIngot h.1 false))) ∧
  (∀ (s : State) (h : Fin 8),
    Live s → s.chip.domOn 37 = true → (s.chip.comp h.1).composing = true → (s.chip.lanesOf h.1).isEmpty = false →
      s.chip.lineOut h.1 (s.chip.comp h.1).frame (s.chip.comp h.1).line = false → (s.chip.comp h.1).stalled = false →
    exec (.lineCompose h) s = .next (s.withChip (((s.chip.lpeStat F.lpeStat_STALL h.1).bump F.lpeStallcnt_COUNT
      F.lpeStallcnt_SAT h.1).updComp h.1 fun z => { z with stalled := true }))) ∧
  (∀ (s : State) (h : Fin 8) (t : Chip),
    Live s → s.chip.domOn 37 = true → (s.chip.comp h.1).composing = true → (s.chip.lanesOf h.1).isEmpty = false →
      s.chip.lineOut h.1 (s.chip.comp h.1).frame (s.chip.comp h.1).line = true → s.chip.composeLine h.1 = some t →
      (s.chip.comp h.1).line < courseEnd (s.chip.va h.1) (2 ^ (s.chip.frm h.1 (s.chip.comp h.1).frame).chLog2) (s.chip.comp
      h.1).course →
    exec (.lineCompose h) s = .next (s.withChip (t))) ∧
  (∀ (s : State) (h : Fin 8) (t : Chip),
    Live s → s.chip.domOn 37 = true → (s.chip.comp h.1).composing = true → (s.chip.lanesOf h.1).isEmpty = false →
      s.chip.lineOut h.1 (s.chip.comp h.1).frame (s.chip.comp h.1).line = true → s.chip.composeLine h.1 = some t →
      (s.chip.comp h.1).line = courseEnd (s.chip.va h.1) (2 ^ (s.chip.frm h.1 (s.chip.comp h.1).frame).chLog2) (s.chip.comp
      h.1).course → (s.chip.comp h.1).course + 1 < courseCount (s.chip.va h.1) (2 ^ (s.chip.frm h.1 (s.chip.comp
      h.1).frame).chLog2) →
    exec (.lineCompose h) s = .next (s.withChip (((t.updComp h.1 fun z =>
      { z with composing := false, cur := [], bufs := z.bufs ++ [⟨z.frame, z.course, z.course * 2 ^ (s.chip.frm h.1 (s.chip.comp h.1).frame).chLog2, z.cur, none⟩] }).nextCourse
      h.1).settleBufs h.1))) ∧
  (∀ (s : State) (h : Fin 8) (b : CourseBuf) (rest : List CourseBuf) (x : Machine.Frm) (d : Nat),
    Live s → s.chip.domOn 37 = true → (s.chip.comp h.1).bufs = b :: rest → s.chip.frm h.1 b.frame = x → x.mode = 0 →
      b.course + 1 < courseCount (s.chip.va h.1) (2 ^ x.chLog2) → (((s.chip.updComp h.1 fun z =>
      { z with bufs := rest }).dueAt h.1 b.frame b.y0 - s.chip.now16) / 65536).toNat = d →
    exec (.courseSeal h) s = .next (s.withChip ((((((((s.chip.updComp h.1 fun z => { z with bufs := rest }).writeRows h.1
      x.base b.y0 b.lines).updFrm h.1 b.frame fun z =>
      { z with slack := some ((z.slack.map fun e => min e d).getD d) }).composeTaps h.1 b.y0 b.lines b.lines.length true
      b.frame).teeCourse h.1 b).courseDone h.1 b.frame b.course).settleBufs h.1)))) ∧
  (∀ (s : State) (h : Fin 8) (x : TeeFin),
    Live s → s.chip.domOn 37 = true → s.chip.teeReady h.1 = some x →
    exec (.teeFrameComplete h) s = .next (s.withChip ((s.chip.updComp h.1 fun z =>
      { z with teeFin := z.teeFin.filter fun y => y.frame != x.frame }).submit
      { mst := .own (0x38 + h.1), owner := .teeFence, write := true, addr := x.chip * 2 ^ 30 + RegId.addr .cpsFsig 0 0, size := 4, data := x.fence, poison := false })))

/-- A write by any master, of this package or another, to CPS_FSIG sets SIG of the fence it names where SIG is 0, and leaves
SIG and sets OVR where SIG is already 1; nothing else of the compositor changes. (states R128) -/
def Obligations.FenceSignals : Prop :=
  (∀ (s : State) (m : Master) (f : BitVec 8),
    Live s → Served s.chip m .cpsFsig 0 0 true → s.chip.on F.cpsFence_SIG f.toNat = false →
    exec (.fenceSignal m f) s = .next (s.withChip ((s.chip.setFld F.cpsFence_SIG f.toNat 0 1).afterWrite s.chip m .cpsFsig 0
      0 f.toNat))) ∧
  (∀ (s : State) (m : Master) (f : BitVec 8),
    Live s → Served s.chip m .cpsFsig 0 0 true → s.chip.on F.cpsFence_SIG f.toNat = true →
    exec (.fenceSignal m f) s = .next (s.withChip ((s.chip.setFld F.cpsFence_OVR f.toNat 0 1).afterWrite s.chip m .cpsFsig 0
      0 f.toNat)))

/-- A served write to CPS_FLIPk takes NOFENCE and FENCE. ARM becomes bit 31 where layer k is bound to a scanning head, and 0
where it is not. (rests on spec/02_layer_stack.md, spec/04_chasing.md) -/
def Obligations.FlipArms : Prop :=
  (∀ (s : State) (m : Master) (k : Fin 256) (v : BitVec 32),
    Live s → Served s.chip m .cpsFlip k.1 0 true → s.chip.layIdle k.1 = false →
    exec (.flipArm m k v) s = .next (s.withChip ((((s.chip.setFld F.cpsFlip_NOFENCE k.1 0 (v.toNat / 2 ^ 30)).setFld
      F.cpsFlip_FENCE k.1 0 v.toNat).setFld F.cpsFlip_ARM k.1 0 (v.toNat / 2 ^ 31)).afterWrite s.chip m .cpsFlip k.1 0
      v.toNat))) ∧
  (∀ (s : State) (m : Master) (k : Fin 256) (v : BitVec 32),
    Live s → Served s.chip m .cpsFlip k.1 0 true → s.chip.layIdle k.1 = true →
    exec (.flipArm m k v) s = .next (s.withChip ((((s.chip.setFld F.cpsFlip_NOFENCE k.1 0 (v.toNat / 2 ^ 30)).setFld
      F.cpsFlip_FENCE k.1 0 v.toNat).setFld F.cpsFlip_ARM k.1 0 0).afterWrite s.chip m .cpsFlip k.1 0 v.toNat)))

/-- A write to HTAGs not turned away takes TAG, sets ARMEDs with its event, and arms slot s with the value of HVALs; one
turned away (s = 1) changes only WR_REJ with its event. A write of LOCK not turned away: to a locked region only LOCK_REJ
with its event; to an unlocked one of a scanning head it takes the seven fields of HMK_CFG. Writing 1 to FROZEN, where it
stands and either the freeze is no supervisory one or the master is 0x11, clears FROZEN and FRZ_SUPV and holds composition
until the next latch line. A read of LASTS or LASTC answers SIG and latches the frame number. SCAN_TAP of an enabled, shown
region whose last row has passed completes its scan signature and begins anew. (rests on spec/05_hallmarks.md) -/
def Obligations.Hallmarks : Prop :=
  (∀ (s : State) (m : Master) (h : Fin 8) (r : Fin 64) (v : BitVec 32),
    Live s → Served s.chip m .hmkHtag0 h.1 r.1 true → s.chip.supvBars m h.1 r.1 = false →
    exec (.htagArm m h r 0 v) s = .next (s.withChip ((((s.chip.setFld F.hmkHtag0_TAG h.1 r.1 v.toNat).hmkStat
      F.hmkStat_ARMED0 h.1 r.1).updRegion h.1 r.1 fun x =>
      { x with slot0 := some (s.chip.fld F.hmkHval0_VAL h.1 r.1, v.toNat) }).afterWrite s.chip m .hmkHtag0 h.1 r.1
      v.toNat))) ∧
  (∀ (s : State) (m : Master) (h : Fin 8) (r : Fin 64) (v : BitVec 32),
    Live s → Served s.chip m .hmkHtag1 h.1 r.1 true → s.chip.supvBars m h.1 r.1 = false →
    exec (.htagArm m h r 1 v) s = .next (s.withChip ((((s.chip.setFld F.hmkHtag1_TAG h.1 r.1 v.toNat).hmkStat
      F.hmkStat_ARMED1 h.1 r.1).updRegion h.1 r.1 fun x =>
      { x with slot1 := some (s.chip.fld F.hmkHval1_VAL h.1 r.1, v.toNat) }).afterWrite s.chip m .hmkHtag1 h.1 r.1
      v.toNat))) ∧
  (∀ (s : State) (m : Master) (h : Fin 8) (r : Fin 64) (v : BitVec 32),
    Live s → Served s.chip m .hmkHtag1 h.1 r.1 true → s.chip.supvBars m h.1 r.1 = true →
    exec (.htagArm m h r 1 v) s = .next (s.withChip ((s.chip.hmkStat F.hmkStat_WR_REJ h.1 r.1).afterWrite s.chip m .hmkHtag1
      h.1 r.1 v.toNat))) ∧
  (∀ (s : State) (m : Master) (h : Fin 8) (r : Fin 64) (v : BitVec 32),
    Live s → Served s.chip m .hmkCfg h.1 r.1 true → s.chip.supvBars m h.1 r.1 = false → s.chip.on F.hmkCfg_LOCK h.1 r.1 =
      true →
    exec (.regionLock m h r v) s = .next (s.withChip ((s.chip.hmkStat F.hmkStat_LOCK_REJ h.1 r.1).afterWrite s.chip m
      .hmkCfg h.1 r.1 ((v.toNat % 2 ^ 31 + 2 ^ 31))))) ∧
  (∀ (s : State) (m : Master) (h : Fin 8) (r : Fin 64) (v : BitVec 32),
    Live s → Served s.chip m .hmkCfg h.1 r.1 true → s.chip.supvBars m h.1 r.1 = false → s.chip.on F.hmkCfg_LOCK h.1 r.1 =
      false → s.chip.on F.shStat_RUNNING h.1 = true →
    exec (.regionLock m h r v) s = .next (s.withChip (([F.hmkCfg_LOCK, F.hmkCfg_SUPV, F.hmkCfg_FREEZE, F.hmkCfg_BLANK,
      F.hmkCfg_MODE, F.hmkCfg_TAPS, F.hmkCfg_EN].foldl (fun t f => t.writeFld f h.1 r.1 (v.toNat % 2 ^ 31 + 2 ^ 31))
      s.chip).afterWrite s.chip m .hmkCfg h.1 r.1 ((v.toNat % 2 ^ 31 + 2 ^ 31))))) ∧
  (∀ (s : State) (m : Master) (h : Fin 8),
    Live s → Served s.chip m .hmkHstat h.1 0 true → s.chip.on F.hmkHstat_FROZEN h.1 = true → s.chip.on F.hmkHstat_FRZ_SUPV
      h.1 = false ∨ m = .own 0x11 →
    exec (.freezeClear m h) s = .next (s.withChip (((((s.chip.w1c F.hmkHstat_FWRAP h.1 0 1).setFld F.hmkHstat_FROZEN h.1 0
      0).setFld F.hmkHstat_FRZ_SUPV h.1 0 0).updComp h.1 fun z => { z with frozenHold := true }).afterWrite s.chip m
      .hmkHstat h.1 0 1))) ∧
  (∀ (s : State) (m : Master) (h : Fin 8) (r : Fin 64),
    Live s → Served s.chip m .hmkLasts h.1 r.1 false →
    exec (.signatureRead m h r true) s = .next (s.withChip ((s.chip.setFld F.hmkLastsFrm_FRAME h.1 r.1 (s.chip.region h.1
      r.1).frmS).afterRead s.chip m .hmkLasts h.1 r.1 (s.chip.fld F.hmkLasts_SIG h.1 r.1)))) ∧
  (∀ (s : State) (m : Master) (h : Fin 8) (r : Fin 64),
    Live s → Served s.chip m .hmkLastc h.1 r.1 false →
    exec (.signatureRead m h r false) s = .next (s.withChip ((s.chip.setFld F.hmkLastcFrm_FRAME h.1 r.1 (s.chip.region h.1
      r.1).frmC).afterRead s.chip m .hmkLastc h.1 r.1 (s.chip.fld F.hmkLastc_SIG h.1 r.1)))) ∧
  (∀ (s : State) (h : Fin 8) (r : Fin 64) (x : Region),
    Live s → s.chip.domOn 37 = true → s.chip.region h.1 r.1 = x → s.chip.on F.shStat_RUNNING h.1 = true → x.act.en = true →
      s.chip.regionShown h.1 x.act = true → s.chip.tapPassed h.1 x = true →
    exec (.scanTap h r) s = .next (s.withChip ((s.chip.updRegion h.1 r.1 fun z => { z with scan := {} }).tapComplete h.1 r.1
      x.act true x.scan.frame (crcEnd x.scan.crc))))

/-- With the command word at the engine's address read and paid for (LpeCmd), and its second word where it has one: END ends
the frame's program; WAIT for this or a later line releases up to it, for an earlier one sets WAIT_PAST and releases its
own; WAITR releases up to the present line plus its count; SETC sets a counter; DJNZ with a count above 1 lowers it and
branches, and at 1 makes it 0 and goes on; JUMP branches; CALL pushes the return address and branches with fewer than 4
held, and stops the engine with STACK otherwise; RET branches to the last pushed, and stops with STACK with none; SETP sets
the table pointer; codes 14 and 15 stop with BAD_CMD. A held WAIT releases its lines when the engine goes on; an engine
whose steps are spent stops with RUNAWAY. (rests on spec/03_line_programs.md) -/
def Obligations.LineProgramControl : Prop :=
  (∀ (s : State) (n : Fin 8) (w : Nat),
    Live s → LpeCmd s.chip n.1 0 w →
    exec (.lpEnd n) s = .next (s.withChip ((s.chip.lpeNext n.1).lpeEnd n.1))) ∧
  (∀ (s : State) (n : Fin 8) (w : Nat),
    Live s → LpeCmd s.chip n.1 1 w → ((s.chip.lpeNext n.1).lpe n.1).line ≤ bits w 15 0 →
    exec (.lpWait n) s = .next (s.withChip ((s.chip.lpeNext n.1).lpeRelease n.1 (bits w 15 0)))) ∧
  (∀ (s : State) (n : Fin 8) (w : Nat),
    Live s → LpeCmd s.chip n.1 1 w → bits w 15 0 < ((s.chip.lpeNext n.1).lpe n.1).line →
    exec (.lpWait n) s = .next (s.withChip (((s.chip.lpeNext n.1).lpeStat F.lpeStat_WAIT_PAST n.1).lpeRelease n.1
      ((s.chip.lpeNext n.1).lpe n.1).line))) ∧
  (∀ (s : State) (n : Fin 8) (w : Nat),
    Live s → LpeCmd s.chip n.1 2 w →
    exec (.lpWaitr n) s = .next (s.withChip ((s.chip.lpeNext n.1).lpeRelease n.1 (((s.chip.lpeNext n.1).lpe n.1).line + bits
      w 15 0)))) ∧
  (∀ (s : State) (n : Fin 8) (w : Nat),
    Live s → LpeCmd s.chip n.1 8 w →
    exec (.lpSetc n) s = .next (s.withChip ((s.chip.lpeNext n.1).updLpe n.1 fun e =>
      { e with counters := e.counters.set (bits w 25 24) (bits w 15 0) }))) ∧
  (∀ (s : State) (n : Fin 8) (w a d : Nat),
    Live s → LpeCmd s.chip n.1 9 w → LpeWord (s.chip.lpeNext n.1) n.1 a → LpeTarget a → (((s.chip.lpeNext n.1).lpeNext
      n.1).lpe n.1).counters.getD (bits w 25 24) 0 = d + 2 →
    exec (.lpDjnz n) s = .next (s.withChip ((((s.chip.lpeNext n.1).lpeNext n.1).updLpe n.1 fun e =>
      { e with counters := e.counters.set (bits w 25 24) (d + 1) }).lpeBranch n.1 a))) ∧
  (∀ (s : State) (n : Fin 8) (w a : Nat),
    Live s → LpeCmd s.chip n.1 9 w → LpeWord (s.chip.lpeNext n.1) n.1 a → LpeTarget a → (((s.chip.lpeNext n.1).lpeNext
      n.1).lpe n.1).counters.getD (bits w 25 24) 0 = 1 →
    exec (.lpDjnz n) s = .next (s.withChip (((s.chip.lpeNext n.1).lpeNext n.1).updLpe n.1 fun e =>
      { e with counters := e.counters.set (bits w 25 24) 0 }))) ∧
  (∀ (s : State) (n : Fin 8) (w a : Nat),
    Live s → LpeCmd s.chip n.1 10 w → LpeWord (s.chip.lpeNext n.1) n.1 a → LpeTarget a →
    exec (.lpJump n) s = .next (s.withChip (((s.chip.lpeNext n.1).lpeNext n.1).lpeBranch n.1 a))) ∧
  (∀ (s : State) (n : Fin 8) (w a : Nat),
    Live s → LpeCmd s.chip n.1 11 w → LpeWord (s.chip.lpeNext n.1) n.1 a → LpeTarget a → (((s.chip.lpeNext n.1).lpeNext
      n.1).lpe n.1).stack.length < 4 →
    exec (.lpCall n) s = .next (s.withChip ((((s.chip.lpeNext n.1).lpeNext n.1).updLpe n.1 fun e =>
      { e with stack := e.pc :: e.stack }).lpeBranch n.1 a))) ∧
  (∀ (s : State) (n : Fin 8) (w a : Nat),
    Live s → LpeCmd s.chip n.1 11 w → LpeWord (s.chip.lpeNext n.1) n.1 a → LpeTarget a → 4 ≤ (((s.chip.lpeNext n.1).lpeNext
      n.1).lpe n.1).stack.length →
    exec (.lpCall n) s = .next (s.withChip (((s.chip.lpeNext n.1).lpeNext n.1).lpeStop n.1 F.lpeStat_STACK))) ∧
  (∀ (s : State) (n : Fin 8) (w a : Nat) (rest : List Nat),
    Live s → LpeCmd s.chip n.1 12 w → ((s.chip.lpeNext n.1).lpe n.1).stack = a :: rest →
    exec (.lpRet n) s = .next (s.withChip (((s.chip.lpeNext n.1).updLpe n.1 fun e => { e with stack := rest }).lpeBranch n.1
      a))) ∧
  (∀ (s : State) (n : Fin 8) (w : Nat),
    Live s → LpeCmd s.chip n.1 12 w → ((s.chip.lpeNext n.1).lpe n.1).stack = [] →
    exec (.lpRet n) s = .next (s.withChip ((s.chip.lpeNext n.1).lpeStop n.1 F.lpeStat_STACK))) ∧
  (∀ (s : State) (n : Fin 8) (w a : Nat),
    Live s → LpeCmd s.chip n.1 13 w → LpeWord (s.chip.lpeNext n.1) n.1 a → LpeTarget a →
    exec (.lpSetp n) s = .next (s.withChip (((s.chip.lpeNext n.1).lpeNext n.1).updLpe n.1 fun e => { e with tp := a }))) ∧
  (∀ (s : State) (n : Fin 8) (w : Nat),
    Live s → LpeCmd s.chip n.1 14 w ∨ LpeCmd s.chip n.1 15 w →
    exec (.lpBadCmd n) s = .next (s.withChip ((s.chip.lpeNext n.1).lpeStop n.1 F.lpeStat_BAD_CMD))) ∧
  (∀ (s : State) (n : Fin 8) (y : Nat),
    Live s → s.chip.domOn (29 + n.1) = true → (s.chip.lpe n.1).running = true → s.chip.frozen n.1 = false → (s.chip.lpe
      n.1).hold = some y →
    exec (.lineRelease n) s = .next (s.withChip (s.chip.lpeRelease n.1 y))) ∧
  (∀ (s : State) (n : Fin 8),
    Live s → s.chip.domOn (29 + n.1) = true → (s.chip.lpe n.1).running = true → (s.chip.lpe n.1).hold = none →
      s.chip.lpeExhausted n.1 = true → s.chip.frozen n.1 = false →
    exec (.runaway n) s = .next (s.withChip (s.chip.lpeStop n.1 F.lpeStat_RUNAWAY)))

/-- With the command word read and paid for, and its value word (from the program, for WRT from the table pointer, which
moves on by 4): WR, WRT and ADD of one value make one layer write (ADD adding), WRP of one makes one palette entry's write,
and WRM of one makes one matrix component's write. What the line does with each write is lpeLayWrite and lpeWrite (R88, R93;
log entry 88). (rests on spec/03_line_programs.md) -/
def Obligations.LineProgramWrites : Prop :=
  (∀ (s : State) (n : Fin 8) (w v : Nat),
    Live s → LpeCmd s.chip n.1 3 w → LpeWord (s.chip.lpeNext n.1) n.1 v → bits w 27 24 = 0 →
    exec (.lpWr n) s = .next (s.withChip (((s.chip.lpeNext n.1).lpeNext n.1).lpeLayWrite n.1 (bits w 23 16) (bits w 11 0) v
      false))) ∧
  (∀ (s : State) (n : Fin 8) (w v : Nat),
    Live s → LpeCmd s.chip n.1 4 w → (s.chip.lpeNext n.1).lpeExhausted n.1 = false → ((s.chip.lpeNext n.1).lpe n.1).running
      = true → ((s.chip.lpeNext n.1).lpeFetch ((s.chip.lpeNext n.1).lpe n.1).tp).1 = .word v → bits w 27 24 = 0 →
    exec (.lpWrt n) s = .next (s.withChip (((((s.chip.lpeNext n.1).lpeFetch ((s.chip.lpeNext n.1).lpe n.1).tp).2.updLpe n.1
      fun e => { e with tp := e.tp + 4 }).lpeSpend n.1 1).lpeLayWrite n.1 (bits w 23 16) (bits w 11 0) v false))) ∧
  (∀ (s : State) (n : Fin 8) (w v : Nat),
    Live s → LpeCmd s.chip n.1 5 w → LpeWord (s.chip.lpeNext n.1) n.1 v →
    exec (.lpAdd n) s = .next (s.withChip (((s.chip.lpeNext n.1).lpeNext n.1).lpeLayWrite n.1 (bits w 23 16) (bits w 11 0) v
      true))) ∧
  (∀ (s : State) (n : Fin 8) (w v : Nat),
    Live s → LpeCmd s.chip n.1 6 w → LpeWord (s.chip.lpeNext n.1) n.1 v → bits w 27 24 = 0 →
    exec (.lpWrp n) s = .next (s.withChip (((s.chip.lpeNext n.1).lpeNext n.1).lpeWrite n.1 (.store (0x17000000 + bits w 23
      14 * 0x400 + bits w 13 6 % 256 * 4) v)))) ∧
  (∀ (s : State) (n : Fin 8) (w v : Nat),
    Live s → LpeCmd s.chip n.1 7 w → LpeWord (s.chip.lpeNext n.1) n.1 v → bits w 27 24 = 0 → bits w 11 0 * 4 + bits w 15 14
      < 16384 →
    exec (.lpWrm n) s = .next (s.withChip (((s.chip.lpeNext n.1).lpeNext n.1).lpeWrite n.1 (.store (0x17200000 + (bits w 11
      0 * 4 + bits w 15 14) * 4) v))))

/-- A write of RUN 1 to a head that does not scan sets RUN and arms a start 100 µs on where its settings may start, and
otherwise drops a waiting start and sets CFG_ERR; RUN 0 clears RUN and a waiting start; both take PLL_EN by R163. At its
starting instant a head whose settings are good scans frame 0 with a new latch line. PLL_LOCK rises with PLL_EN 1; losing it
in a scanning head keeps the frequency and sets PLL_LOST. The first frame reference sets PRESENT; a third that agrees sets
the period, the lines and STABLE. Three frame periods without one: PRESENT and STABLE fall, LOST is set, and a GENLOCK head
holds its frequency with LOCK_LOST. A write to SHn_FADDR of a scanning head not in page mode waits with FADDR_PEND; of a
stopped one it is active at once. Reads of FSTAMP_LO and GL_FPER answer the low part and latch the rest. (rests on
spec/06_scan_heads.md) -/
def Obligations.HeadControl : Prop :=
  (∀ (s : State) (m : Master) (h : Fin 8) (v : BitVec 32) (t : Chip),
    Live s → Served s.chip m .shCtrl h.1 0 true → (s.chip.writePllEn h.1 (bit v.toNat 1)).setFld F.shCtrl_RUN h.1 0 1 = t →
      t.on F.shStat_RUNNING h.1 = false → t.startOk h.1 = true →
    exec (.headRun m h v) s = .next (s.withChip ((t.updHead h.1 fun x =>
      { x with waiting := true, startAfter := t.ticks + 100000, resume := false, hold := false }).afterWrite s.chip m
      .shCtrl h.1 0 ((v.toNat / 2 * 2 + 1))))) ∧
  (∀ (s : State) (m : Master) (h : Fin 8) (v : BitVec 32) (t : Chip),
    Live s → Served s.chip m .shCtrl h.1 0 true → (s.chip.writePllEn h.1 (bit v.toNat 1)).setFld F.shCtrl_RUN h.1 0 1 = t →
      t.on F.shStat_RUNNING h.1 = false → t.startOk h.1 = false →
    exec (.headRun m h v) s = .next (s.withChip (((t.updHead h.1 fun x => { x with waiting := false }).headStat
      F.shStat_CFG_ERR h.1).afterWrite s.chip m .shCtrl h.1 0 ((v.toNat / 2 * 2 + 1))))) ∧
  (∀ (s : State) (m : Master) (h : Fin 8) (v : BitVec 32),
    Live s → Served s.chip m .shCtrl h.1 0 true →
    exec (.headStop m h v) s = .next (s.withChip ((((s.chip.writePllEn h.1 (bit v.toNat 1)).setFld F.shCtrl_RUN h.1 0
      0).updHead h.1 fun x => { x with waiting := false }).afterWrite s.chip m .shCtrl h.1 0 ((v.toNat / 2 * 2))))) ∧
  (∀ (s : State) (h : Fin 8) (fr : BitVec 16) (t16 : Nat) (u : Chip),
    Live s → s.chip.domOn (29 + h.1) = true → (s.chip.head h.1).waiting = true → (s.chip.head h.1).resume = false →
      s.chip.startAt h.1 fr.toNat = some t16 → (s.chip.updHead h.1 fun y =>
      { y with waiting := false, resume := false, hold := false, psrArm := false, heldDot := 0, cur := none, prev := none })
      = u → u.timingOk h.1 = true →
    exec (.headStartInstant h fr) s = .next (s.withChip (((((u.setFld F.shStat_RUNNING h.1 0 1).setFld F.shDpstat_PSR_ACT
      h.1 0 0).setFld F.shFrame_FRAME h.1 0 0).dropFrms h.1).latchTake h.1 t16))) ∧
  (∀ (s : State) (h : Fin 8),
    Live s → s.chip.domOn (29 + h.1) = true → s.chip.on F.shCtrl_PLL_EN h.1 = true →
    exec (.pllLocked h) s = .next (s.withChip ((s.chip.setFld F.shStat_PLL_LOCK h.1 0 1).updHead h.1 fun x =>
      { x with heldDot := 0 }))) ∧
  (∀ (s : State) (h : Fin 8),
    Live s → s.chip.domOn (29 + h.1) = true → s.chip.on F.shStat_RUNNING h.1 = true →
    exec (.pllLost h) s = .next (s.withChip (((s.chip.setFld F.shStat_PLL_LOCK h.1 0 0).updHead h.1 fun x =>
      { x with heldDot := s.chip.dot24 h.1 }).headStat F.shStat_PLL_LOST h.1))) ∧
  (∀ (s : State) (f : Fin 64) (l : BitVec 16),
    Live s → s.chip.domOn 29 = true → s.chip.on F.glCtrl_EN = true → s.chip.on F.sysSupply_VDAC_OK = true →
      s.chip.genlock.seen = false → s.chip.on F.glStat_STABLE = false →
    exec (.genlockFrameRef f l) s = .next (s.withChip
      (({ s.chip with genlock := ⟨true, s.chip.ticks * 64 + f.1, [], s.chip.genlock.badSince⟩ }.setFld F.glStat_PRESENT 0 0
      1).setFld F.glStat_STABLE 0 0 0))) ∧
  (∀ (s : State) (f : Fin 64) (l : BitVec 16) (fs : List (Nat × Nat)),
    Live s → s.chip.domOn 29 = true → s.chip.on F.glCtrl_EN = true → s.chip.on F.sysSupply_VDAC_OK = true →
      s.chip.genlock.seen = true → (((s.chip.ticks * 64 + f.1 - s.chip.genlock.ref64, l.toNat) ::
      s.chip.genlock.frames).take 3) = fs → framesAgree fs = true →
    exec (.genlockFrameRef f l) s = .next (s.withChip
      (((({ s.chip with genlock := ⟨true, s.chip.ticks * 64 + f.1, fs, s.chip.genlock.badSince⟩ }.setFld F.glStat_PRESENT 0
      0 1).setFld F.glFper_PER 0 0 (s.chip.ticks * 64 + f.1 - s.chip.genlock.ref64)).setFld F.glLines_LINES 0 0
      l.toNat).setFld F.glStat_STABLE 0 0 1))) ∧
  (∀ (s : State) (h : Fin 8),
    Live s → s.chip.domOn (29 + h.1) = true → 3 * s.chip.framePer h.1 ≤ sub64 s.chip.tb.toNat (s.chip.genlock.ref64 / 64) →
      s.chip.on F.glStat_PRESENT = true → s.chip.on F.shStat_RUNNING h.1 = true → s.chip.fld F.shLock_SYNCSRC h.1 = 1 →
      (s.chip.head h.1).hold = false →
    exec (.lockLost h) s = .next (s.withChip (((((s.chip.setFld F.glStat_LOST 0 0 1).genlockAbsent.updHead h.1 fun x =>
      { x with hold := true, heldPer := s.chip.lockPer64 h.1 }).setFld F.shStat_LOCKED h.1 0 0).headStat F.shStat_LOCK_LOST
      h.1)))) ∧
  (∀ (s : State) (m : Master) (h : Fin 8) (v : BitVec 32),
    Live s → Served s.chip m .shFaddr h.1 0 true → s.chip.on F.shStat_RUNNING h.1 = true → s.chip.fld F.cpsCtrlAct_MODE h.1
      ≠ 2 →
    exec (.faddrWrite m h v) s = .next (s.withChip (((s.chip.setFld F.shFaddr_OFFSET h.1 0 (bits v.toNat 23 12)).setFld
      F.shStat_FADDR_PEND h.1 0 1).afterWrite s.chip m .shFaddr h.1 0 v.toNat))) ∧
  (∀ (s : State) (m : Master) (h : Fin 8) (v : BitVec 32),
    Live s → Served s.chip m .shFaddr h.1 0 true → s.chip.on F.shStat_RUNNING h.1 = false →
    exec (.faddrWrite m h v) s = .next (s.withChip ((((s.chip.setFld F.shFaddr_OFFSET h.1 0 (bits v.toNat 23 12)).setFld
      F.shFaddrAct_OFFSET h.1 0 (bits v.toNat 23 12)).setFld F.shStat_FADDR_PEND h.1 0 0).afterWrite s.chip m .shFaddr h.1 0
      v.toNat))) ∧
  (∀ (s : State) (m : Master) (h : Fin 8) (x : Stamp),
    Live s → Served s.chip m .shFstampLo h.1 0 false → (s.chip.head h.1).cur = some x →
    exec (.fstampRead m h) s = .next (s.withChip (((s.chip.setFld F.shFstampHi_T h.1 0 (x.time / 65536 / 2 ^ 32)).setFld
      F.shFstampFr_FR h.1 0 (x.time % 65536)).afterRead s.chip m .shFstampLo h.1 0 (x.time / 65536 % 2 ^ 32)))) ∧
  (∀ (s : State) (m : Master),
    Live s → Served s.chip m .glFper 0 0 false →
    exec (.glFperRead m) s = .next (s.withChip ((s.chip.setFld F.glFperHi_PERHI 0 0 (s.chip.genlock.per64 / 2 ^
      32)).afterRead s.chip m .glFper 0 0 (s.chip.genlock.per64 % 2 ^ 32))))

/-- TRAIN with its request on trains: the first of the configurations, best first, that fits the picture and that the sink
locks to sets RATE, LANES and TRAINED; with none TRAINED is cleared and LT_FAIL set. Plugging notes the sink and sets HPD,
training where AUTO_LT is 1; unplugging clears TRAINED and HPD and sets HPD_CHG; an HPD pulse sets HPD_IRQ, and with lost
link status and AUTO_LT also LINK_LOSS and a training. A write to AUXCTRL while BUSY sets CFG_REJ; of a native request it
takes the fields and sets BUSY. A reply ends the transaction: an ACK with at most LENM1 + 1 bytes and DONE, a NACK with
NACK, the eighth DEFER with DEFER (an earlier one counts), 400 µs with TIMEOUT. PSR_ENTER on an eDP head that scans with
PSR_EN and a sink that can arms the entry, without such a sink it sets PSR_ERR; PSR_EXIT in self-refresh with good settings
arms a start. (rests on spec/06_scan_heads.md) -/
def Obligations.DisplayPort : Prop :=
  (∀ (s : State) (m : Master) (h : Fin 8) (v : BitVec 32),
    Live s → Served s.chip m .shAuxctrl h.1 0 true → s.chip.on F.shAuxstat_BUSY h.1 = true →
    exec (.auxTransaction m h v) s = .next (s.withChip ((s.chip.headStat F.shStat_CFG_REJ h.1).afterWrite s.chip m
      .shAuxctrl h.1 0 v.toNat))) ∧
  (∀ (s : State) (m : Master) (h : Fin 8) (v : BitVec 32),
    Live s → Served s.chip m .shAuxctrl h.1 0 true → s.chip.on F.shAuxstat_BUSY h.1 = false → bits v.toNat 31 28 = 8 ∨ bits
      v.toNat 31 28 = 9 →
    exec (.auxTransaction m h v) s = .next (s.withChip ((((((s.chip.setFld F.shAuxctrl_CMD h.1 0 (bits v.toNat 31
      28)).setFld F.shAuxctrl_ADDR h.1 0 (bits v.toNat 27 8)).setFld F.shAuxctrl_LENM1 h.1 0 (v.toNat % 16)).setFld
      F.shAuxstat_BUSY h.1 0 1).updHead h.1 fun x => { x with auxTries := 0, auxAt := s.chip.tb.toNat }).afterWrite s.chip m
      .shAuxctrl h.1 0 v.toNat))) ∧
  (∀ (s : State) (h : Fin 8) (d : List Byte),
    Live s → s.chip.domOn (29 + h.1) = true → s.chip.on F.shAuxstat_BUSY h.1 = true → (s.chip.head h.1).trainReq = false →
    exec (.auxReply h (.ack d)) s = .next (s.withChip ((((s.chip.putAux h.1 0 (d.take (s.chip.fld F.shAuxctrl_LENM1 h.1 +
      1))).setFld F.shAuxstat_COUNT h.1 0 (d.take (s.chip.fld F.shAuxctrl_LENM1 h.1 + 1)).length).setFld F.shAuxstat_DONE
      h.1 0 1).setFld F.shAuxstat_BUSY h.1 0 0))) ∧
  (∀ (s : State) (h : Fin 8),
    Live s → s.chip.domOn (29 + h.1) = true → s.chip.on F.shAuxstat_BUSY h.1 = true → (s.chip.head h.1).trainReq = false →
    exec (.auxReply h .nack) s = .next (s.withChip ((s.chip.setFld F.shAuxstat_NACK h.1 0 1).setFld F.shAuxstat_BUSY h.1 0
      0))) ∧
  (∀ (s : State) (h : Fin 8),
    Live s → s.chip.domOn (29 + h.1) = true → s.chip.on F.shAuxstat_BUSY h.1 = true → (s.chip.head h.1).trainReq = false →
      (s.chip.head h.1).auxTries < 7 →
    exec (.auxReply h .defer) s = .next (s.withChip (s.chip.updHead h.1 fun x =>
      { x with auxTries := x.auxTries + 1, auxAt := s.chip.tb.toNat }))) ∧
  (∀ (s : State) (h : Fin 8),
    Live s → s.chip.domOn (29 + h.1) = true → s.chip.on F.shAuxstat_BUSY h.1 = true → (s.chip.head h.1).trainReq = false → 7
      ≤ (s.chip.head h.1).auxTries →
    exec (.auxReply h .defer) s = .next (s.withChip ((s.chip.setFld F.shAuxstat_DEFER h.1 0 1).setFld F.shAuxstat_BUSY h.1 0
      0))) ∧
  (∀ (s : State) (h : Fin 8),
    Live s → s.chip.domOn (29 + h.1) = true → s.chip.on F.shAuxstat_BUSY h.1 = true → (s.chip.head h.1).trainReq = false →
      400000 ≤ sub64 s.chip.tb.toNat (s.chip.head h.1).auxAt →
    exec (.auxTimeout h) s = .next (s.withChip ((s.chip.setFld F.shAuxstat_TIMEOUT h.1 0 1).setFld F.shAuxstat_BUSY h.1 0
      0))) ∧
  (∀ (s : State) (h : Fin 8) (r : Fin 4) (l : Fin 3) (p : Bool) (g : BitVec 16),
    Live s → s.chip.domOn (29 + h.1) = true → s.chip.on F.shDpcfg_AUTO_LT h.1 = true →
    exec (.hpdPlug h r l p g) s = .next (s.withChip (((s.chip.setSink h.1 r.1 l.1 p).setFld F.shDpstat_HPD h.1 0 1).train
      h.1 g.toNat))) ∧
  (∀ (s : State) (h : Fin 8) (r : Fin 4) (l : Fin 3) (p : Bool) (g : BitVec 16),
    Live s → s.chip.domOn (29 + h.1) = true → s.chip.on F.shDpcfg_AUTO_LT h.1 = false →
    exec (.hpdPlug h r l p g) s = .next (s.withChip ((s.chip.setSink h.1 r.1 l.1 p).setFld F.shDpstat_HPD h.1 0 1))) ∧
  (∀ (s : State) (h : Fin 8),
    Live s → s.chip.domOn (29 + h.1) = true →
    exec (.hpdUnplug h) s = .next (s.withChip (((s.chip.setFld F.shDpstat_TRAINED h.1 0 0).setFld F.shDpstat_HPD h.1 0
      0).headStat F.shDpstat_HPD_CHG h.1))) ∧
  (∀ (s : State) (h : Fin 8) (g : BitVec 16),
    Live s → s.chip.domOn (29 + h.1) = true →
    exec (.hpdIrq h false g) s = .next (s.withChip (s.chip.headStat F.shDpstat_HPD_IRQ h.1))) ∧
  (∀ (s : State) (h : Fin 8) (g : BitVec 16),
    Live s → s.chip.domOn (29 + h.1) = true → s.chip.on F.shDpcfg_AUTO_LT h.1 = true →
    exec (.hpdIrq h true g) s = .next (s.withChip ((((s.chip.headStat F.shDpstat_HPD_IRQ h.1).headStat F.shDpstat_LINK_LOSS
      h.1).setFld F.shDpstat_TRAINED h.1 0 0).train h.1 g.toNat))) ∧
  (∀ (s : State) (m : Master) (h : Fin 8),
    Live s → Served s.chip m .shDpcmd h.1 0 true → s.chip.fld F.shOut_OUTSEL h.1 = 1 → s.chip.on F.shDpcfg_PSR_EN h.1 = true
      → (s.chip.head h.1).sinkPsr = true → s.chip.on F.shStat_RUNNING h.1 = true →
    exec (.psrEnter m h) s = .next (s.withChip ((s.chip.updHead h.1 fun x => { x with psrArm := true }).afterWrite s.chip m
      .shDpcmd h.1 0 2))) ∧
  (∀ (s : State) (m : Master) (h : Fin 8),
    Live s → Served s.chip m .shDpcmd h.1 0 true → (s.chip.head h.1).sinkPsr = false →
    exec (.psrEnter m h) s = .next (s.withChip ((s.chip.headStat F.shDpstat_PSR_ERR h.1).afterWrite s.chip m .shDpcmd h.1 0
      2))) ∧
  (∀ (s : State) (m : Master) (h : Fin 8),
    Live s → Served s.chip m .shDpcmd h.1 0 true → s.chip.on F.shDpstat_PSR_ACT h.1 = true → s.chip.startOk h.1 = true →
    exec (.psrExit m h) s = .next (s.withChip ((s.chip.updHead h.1 fun x =>
      { x with waiting := true, startAfter := s.chip.ticks + 100000, resume := true, hold := false }).afterWrite s.chip m
      .shDpcmd h.1 0 4))) ∧
  (∀ (s : State) (m : Master) (h : Fin 8) (r : Fin 4) (l : Fin 3) (p : Bool) (g : BitVec 16) (t : Chip),
    Live s → Served s.chip m .shDpcmd h.1 0 true → (s.chip.updHead h.1 fun x => { x with trainReq := true }).afterWrite
      s.chip m .shDpcmd h.1 0 1 = t → (t.head h.1).trainReq = true → t.domOn (29 + h.1) = true →
    exec (.train m h r l p g) s = .next (s.withChip ((t.setSink h.1 r.1 l.1 p).train h.1 g.toNat))) ∧
  (∀ (c : Chip) (h g r l : Nat),
    (trainOrder (min (c.fld F.shDpcfg_MAXRATE h) (c.head h).sinkRate) (min (c.fld F.shDpcfg_LANES h) (c.head
      h).sinkLanes)).find? (fun x => c.dpFits h x.1 x.2 && bit g (x.1 + 4 * x.2)) = some (r, l) →
    c.train h g = (((c.updHead h fun x => { x with trainReq := false, auxAt := c.tb.toNat }).setFld F.shDpstat_RATE h 0
      r).setFld F.shDpstat_LANES h 0 l).setFld F.shDpstat_TRAINED h 0 1) ∧
  (∀ (c : Chip) (h g : Nat),
    (trainOrder (min (c.fld F.shDpcfg_MAXRATE h) (c.head h).sinkRate) (min (c.fld F.shDpcfg_LANES h) (c.head
      h).sinkLanes)).find? (fun x => c.dpFits h x.1 x.2 && bit g (x.1 + 4 * x.2)) = none →
    c.train h g = ((c.updHead h fun x => { x with trainReq := false, auxAt := c.tb.toNat }).setFld F.shDpstat_TRAINED h 0
      0).headStat F.shDpstat_LT_FAIL h)

/-- With PLL_EN the PLLs' lock sets PLL_LOCK. RUN of a stopped engine takes TICKDIV and HOLD and, with PLL_LOCK and without
TBLOCK, arms a start 100 µs on; without PLL_LOCK it sets CFG_ERR. RUN 0 disarms, and stops a running engine at its next
BLOCK_SEND (log entry 76). The start's instant is written to EPOCH. Block k, due, is computed from the registers as they
were when its computation began (regsFor; those HOLD keeps where HOLD is set): sixteen effects begin, then eight samples.
Clearing HOLD ends what it holds and releases held commands. BLOCK_SEND at G(8k): a complete block is sent with its instant
in BSTAMP, and 276 raised where TICKDIV has passed; without a complete block the late block is counted; a stopping engine
stops. A write to an audio register is made to audTake: what running computations read is kept first (R202). (rests on
spec/07_sound.md) -/
def Obligations.AudioEngine : Prop :=
  (∀ (s : State),
    Live s → s.chip.domOn 44 = true → s.chip.on F.audClk_PLL_EN = true →
    exec (.audioPllLock) s = .next (s.withChip (s.chip.setFld F.audStat_PLL_LOCK 0 0 1))) ∧
  (∀ (s : State) (m : Master) (v : BitVec 32) (t : Chip),
    Live s → Served s.chip m .audCtrl 0 0 true → bit v.toNat 0 = true → ((s.chip.audTake.setFld F.audCtrl_TICKDIV 0 0
      (v.toNat / 2 ^ 8)).setHold (bit v.toNat 1)) = t → s.chip.on F.audStat_RUNNING = false → s.chip.snd.arm = none →
      s.chip.on F.audStat_PLL_LOCK = true → s.chip.on F.audClk_TBLOCK = false →
    exec (.audioRun m v) s = .next (s.withChip (((t.setFld F.audCtrl_RUN 0 0 1).updSnd fun d =>
      { d with arm := some (3 * (s.chip.now + 100000), 0) }).afterWrite s.chip m .audCtrl 0 0 v.toNat))) ∧
  (∀ (s : State) (m : Master) (v : BitVec 32) (t : Chip),
    Live s → Served s.chip m .audCtrl 0 0 true → bit v.toNat 0 = true → ((s.chip.audTake.setFld F.audCtrl_TICKDIV 0 0
      (v.toNat / 2 ^ 8)).setHold (bit v.toNat 1)) = t → s.chip.on F.audStat_RUNNING = false → s.chip.snd.arm = none →
      s.chip.on F.audStat_PLL_LOCK = false →
    exec (.audioRun m v) s = .next (s.withChip ((t.audStick F.audStat_CFG_ERR).afterWrite s.chip m .audCtrl 0 0 v.toNat))) ∧
  (∀ (s : State) (m : Master) (v : BitVec 32) (t : Chip),
    Live s → Served s.chip m .audCtrl 0 0 true → bit v.toNat 0 = false → ((s.chip.audTake.setFld F.audCtrl_TICKDIV 0 0
      (v.toNat / 2 ^ 8)).setHold (bit v.toNat 1)) = t →
    exec (.audioRun m v) s = .next (s.withChip (((t.setFld F.audCtrl_RUN 0 0 0).updSnd fun d =>
      { d with arm := none, stopping := s.chip.on F.audStat_RUNNING }).afterWrite s.chip m .audCtrl 0 0 v.toNat))) ∧
  (∀ (s : State) (m : Master) (v : BitVec 32),
    Live s → Served s.chip m .audCtrl 0 0 true → v.toNat % 2 = 1 → s.chip.on F.audStat_RUNNING = true → s.chip.snd.stopping
      = false →
    exec (.holdRelease m v) s = .next (s.withChip ((((s.chip.audTake.setFld F.audCtrl_TICKDIV 0 0 (v.toNat / 2 ^ 8)).setHold
      false).setFld F.audCtrl_RUN 0 0 1).afterWrite s.chip m .audCtrl 0 0 ((v.toNat / 4 * 4 + v.toNat % 2))))) ∧
  (∀ (s : Chip),
    (s.setHold false).snd.held = none ∧ (s.setHold false).on F.audCtrl_HOLD = false ∧ ∀ v, ((s.setHold false).voice v).cmds
      = (s.voice v).cmds.map fun x => if x.held then { x with held := false, from_ := s.nextTaking } else x) ∧
  (∀ (s : State) (a n : Nat),
    Live s → s.chip.domOn 44 = true → s.chip.snd.arm = some (a, n) → notBefore3 (3 * s.chip.now : Nat) (a : Nat) = true →
      s.chip.on F.audStat_RUNNING = false → s.chip.on F.audClk_TBLOCK = false →
    exec (.audioStart) s = .next (s.withChip (((s.chip.setFld64 F.audEpochLo_EPOCH F.audEpochHi_EPOCH 0 0 (a / 3)).setFld
      F.audStat_RUNNING 0 0 1).updSnd fun d =>
      { d with arm := none, block := n / 8, sent := n / 8, ticks := 0, mixes := [] }))) ∧
  (∀ (s : State) (w : Chip) (k : Nat),
    Live s → s.chip.domOn 44 = true → s.chip.fld F.fabSpareStat_PHASE ≠ 2 → s.chip.on F.audStat_RUNNING = true →
      s.chip.snd.stopping = false → s.chip.snd.block = k → s.chip.blockDue k = true →
      { s.chip with flds := s.chip.regsFor k } = w →
    exec (.blockCompute) s = .next (s.withChip (((((List.range 8).foldl (fun t i => t.audSample w (8 * k + i) i)
      ((List.range 16).foldl (fun t e => t.effBegin w e) ((s.chip.updSnd fun d =>
      { d with outs := [], taken := d.taken.filter fun p => decide (k < p.1) }).takeTargets w))).audTally).updSnd fun d =>
      { d with block := k + 1, ready := d.ready ++ [(k, d.outs)], outs := [] }).dmaLevels))) ∧
  (∀ (s : Chip) (k : Nat),
    s.snd.taken = [] → s.snd.held = none →
    s.regsFor k = s.flds.filter fun p => p.1.id.block == .aud) ∧
  (∀ (s : Chip) (k : Nat) (h : List (FKey × Nat)),
    s.snd.taken = [] → s.snd.held = some h →
    s.regsFor k = h ++ s.flds.filter fun p => p.1.id.block == .aud && !heldByHold p.1.id) ∧
  (∀ (s : State) (o : NStore (List Int)) (k : Nat),
    Live s → s.chip.domOn 44 = true → s.chip.on F.audStat_RUNNING = true → s.chip.snd.sent = k → s.chip.sendDue k = true →
      s.chip.snd.stopping = false → s.chip.snd.ready = [(k, o)] → s.chip.fld F.audCtrl_TICKDIV ≤ s.chip.snd.ticks →
    exec (.blockSend) s = .next (s.withChip (((s.chip.updSnd fun d => { d with sending := o }).updSnd fun d =>
      { d with sent := k + 1, ticks := 0, bstamp := s.chip.now, ready := [] }).raise 276))) ∧
  (∀ (s : State) (k : Nat),
    Live s → s.chip.domOn 44 = true → s.chip.on F.audStat_RUNNING = true → s.chip.snd.sent = k → s.chip.sendDue k = true →
      s.chip.snd.stopping = false → s.chip.snd.ready = [] → s.chip.snd.ticks < s.chip.fld F.audCtrl_TICKDIV →
    exec (.blockSend) s = .next (s.withChip ((s.chip.blockLate k).updSnd fun d =>
      { d with sent := k + 1, ticks := d.ticks + 1, bstamp := s.chip.now, ready := d.ready.filter fun p => decide (k < p.1) }))) ∧
  (∀ (s : State) (k : Nat),
    Live s → s.chip.domOn 44 = true → s.chip.on F.audStat_RUNNING = true → s.chip.snd.sent = k → s.chip.sendDue k = true →
      s.chip.snd.stopping = true →
    exec (.blockSend) s = .next (s.withChip (s.chip.audStop)))

/-- KEYON, KEYOFF and STOP wait at the voice for the first block that takes them, held where HOLD is 1, and replace one that
waits; with AT the command carries the instant of AT_LO and AT_HI and is not held. HELD_WRITE_TAKEN clears PEND of a slot
that does not crossfade and changes nothing of one that does. An enable write to a port that is enabled sets CFG_REJ and
nothing else; to one that is not it takes the port's fields and sets EN and RUNNING where they are a valid combination.
CLK_LOSS of a running target-mode port sets CLKLOSS. RATE_SLIP of a running input, or of a running output in target mode,
counts one slip. (rests on spec/07_sound.md) -/
def Obligations.VoicesAndPorts : Prop :=
  (∀ (s : State) (m : Master) (i : Fin 512) (n : Nat),
    Live s → Served s.chip m .vCmd i.1 0 true → s.chip.audTake.nextTaking = n →
    exec (.keyOn m i) s = .next (s.withChip ((s.chip.audTake.updVoice i.1 fun x =>
      { x with cmds := x.cmds.filter (fun y => !y.held && decide (y.from_ < n)) ++ [⟨1, none, n, s.chip.on F.audCtrl_HOLD⟩] }).afterWrite
      s.chip m .vCmd i.1 0 1))) ∧
  (∀ (s : State) (m : Master) (i : Fin 512) (n : Nat),
    Live s → Served s.chip m .vCmd i.1 0 true → s.chip.audTake.nextTaking = n →
    exec (.keyOff m i) s = .next (s.withChip ((s.chip.audTake.updVoice i.1 fun x =>
      { x with cmds := x.cmds.filter (fun y => !y.held && decide (y.from_ < n)) ++ [⟨2, none, n, s.chip.on F.audCtrl_HOLD⟩] }).afterWrite
      s.chip m .vCmd i.1 0 2))) ∧
  (∀ (s : State) (m : Master) (i : Fin 512) (n : Nat),
    Live s → Served s.chip m .vCmd i.1 0 true → s.chip.audTake.nextTaking = n →
    exec (.voiceStop m i) s = .next (s.withChip ((s.chip.audTake.updVoice i.1 fun x =>
      { x with cmds := x.cmds.filter (fun y => !y.held && decide (y.from_ < n)) ++ [⟨3, none, n, s.chip.on F.audCtrl_HOLD⟩] }).afterWrite
      s.chip m .vCmd i.1 0 3))) ∧
  (∀ (s : State) (m : Master) (i : Fin 512) (op : BitVec 2) (n : Nat),
    Live s → Served s.chip m .vCmd i.1 0 true → s.chip.audTake.nextTaking = n →
    exec (.timedCommand m i op) s = .next (s.withChip ((s.chip.audTake.updVoice i.1 fun x =>
      { x with cmds := x.cmds.filter (fun y => !y.held && decide (y.from_ < n)) ++ [⟨op.toNat, some (s.chip.fld64 F.vAtLo_T F.vAtHi_T i.1), n, false⟩] }).afterWrite
      s.chip m .vCmd i.1 0 ((4 + op.toNat))))) ∧
  (∀ (s : State) (k : BitVec 16) (f : Fd) (i j : Nat),
    Live s → s.chip.domOn 44 = true → (s.chip.slot k.toNat).fading = false → (s.chip.slotRegs k.toNat).2.2.2 = (f, i, j) →
    exec (.heldWriteTaken k) s = .next (s.withChip (s.chip.setFld f i j 0))) ∧
  (∀ (s : State) (k : BitVec 16),
    Live s → s.chip.domOn 44 = true → (s.chip.slot k.toNat).fading = true →
    exec (.heldWriteTaken k) s = .next (s.withChip (s.chip))) ∧
  (∀ (s : State) (m : Master) (x : Fin 36) (v : BitVec 32),
    Live s → Served s.chip m (audioPortReg x.1).1 (audioPortReg x.1).2 0 true → s.chip.on (portF F.outCfg_EN F.spdCfg_EN
      F.dpaCfg_EN F.inCfg_EN x.1).1 (portF F.outCfg_EN F.spdCfg_EN F.dpaCfg_EN F.inCfg_EN x.1).2 = true →
    exec (.portEnable m x v) s = .next (s.withChip ((s.chip.audTake.portStick x.1 F.outStat_CFG_REJ F.spdStat_CFG_REJ
      F.dpaStat_CFG_REJ F.inStat_CFG_REJ).afterWrite s.chip m (audioPortReg x.1).1 (audioPortReg x.1).2 0 (v.toNat % 2 ^ 31
      + 2 ^ 31)))) ∧
  (∀ (s : State) (m : Master) (x : Fin 36) (v : BitVec 32) (t : Chip),
    Live s → Served s.chip m (audioPortReg x.1).1 (audioPortReg x.1).2 0 true → s.chip.on (portF F.outCfg_EN F.spdCfg_EN
      F.dpaCfg_EN F.inCfg_EN x.1).1 (portF F.outCfg_EN F.spdCfg_EN F.dpaCfg_EN F.inCfg_EN x.1).2 = false → (portFields
      x.1).foldl (fun t f => t.writeFld f (portF F.outCfg_EN F.spdCfg_EN F.dpaCfg_EN F.inCfg_EN x.1).2 0 (v.toNat % 2 ^ 31 +
      2 ^ 31)) s.chip.audTake = t → (¬ (x.1 < 16 ∨ 28 ≤ x.1) ∨ i2sInvalid ((portFields x.1).foldl (fun a f => a + t.fld f
      (portF F.outCfg_EN F.spdCfg_EN F.dpaCfg_EN F.inCfg_EN x.1).2 * 2 ^ f.lo) 0) = false) →
    exec (.portEnable m x v) s = .next (s.withChip (((t.setFld (portF F.outCfg_EN F.spdCfg_EN F.dpaCfg_EN F.inCfg_EN x.1).1
      (portF F.outCfg_EN F.spdCfg_EN F.dpaCfg_EN F.inCfg_EN x.1).2 0 1).setFld (portF F.outStat_RUNNING F.spdStat_RUNNING
      F.dpaStat_RUNNING F.inStat_RUNNING x.1).1 (portF F.outStat_RUNNING F.spdStat_RUNNING F.dpaStat_RUNNING
      F.inStat_RUNNING x.1).2 0 1).afterWrite s.chip m (audioPortReg x.1).1 (audioPortReg x.1).2 0 (v.toNat % 2 ^ 31 + 2 ^
      31)))) ∧
  (∀ (s : State) (x : Fin 36),
    Live s → s.chip.domOn 44 = true → s.chip.portRunning x.1 = true → x.1 < 16 ∨ 28 ≤ x.1 → s.chip.on (portF F.outCfg_CLKSRC
      F.outCfg_CLKSRC F.outCfg_CLKSRC F.inCfg_CLKSRC x.1).1 (portF F.outCfg_CLKSRC F.outCfg_CLKSRC F.outCfg_CLKSRC
      F.inCfg_CLKSRC x.1).2 = true →
    exec (.clkLoss x) s = .next (s.withChip (s.chip.portStick x.1 F.outStat_CLKLOSS F.spdStat_CLKLOSS F.dpaStat_CLKLOSS
      F.inStat_CLKLOSS))) ∧
  (∀ (s : State) (x : Fin 36),
    Live s → s.chip.domOn 44 = true → s.chip.portRunning x.1 = true → 28 ≤ x.1 ∨ (x.1 < 16 ∧ s.chip.on F.outCfg_CLKSRC x.1 =
      true) →
    exec (.rateSlip x) s = .next (s.withChip (s.chip.portSlip x.1 1)))

/-- GO with fewer than four commands held, the running one counted, copies the staging set to the tail of the queue; with
four it sets QFULL with event 330. ABORT empties the queue, and with a running command ends it at once with ABORTED where
none of its accesses is outstanding, a due watermark fired first, and else marks it to end. BLIT_BEGIN of an idle engine
takes the front command: BAD_FMT or OVERLAP with event 330 where it is refused, else it runs with ROW not valid. (rests on
spec/08_blit_dma.md) -/
def Obligations.BlitQueue : Prop :=
  (∀ (s : State) (m : Master),
    Live s → Served s.chip m .bltGo 0 0 true → s.chip.blt.queue.length + b2n s.chip.blt.run.isSome < 4 →
    exec (.blitGo m) s = .next (s.withChip
      (({ s.chip with blt := { s.chip.blt with queue := s.chip.blt.queue ++ [s.chip.bltStaged] } }).afterWrite s.chip m
      .bltGo 0 0 1))) ∧
  (∀ (s : State) (m : Master),
    Live s → Served s.chip m .bltGo 0 0 true → 4 ≤ s.chip.blt.queue.length + b2n s.chip.blt.run.isSome →
    exec (.blitGo m) s = .next (s.withChip ((s.chip.stick F.bltStat_QFULL 0 330).afterWrite s.chip m .bltGo 0 0 1))) ∧
  (∀ (s : State) (m : Master),
    Live s → Served s.chip m .bltGo 0 0 true → s.chip.blt.run = none →
    exec (.blitAbort m) s = .next (s.withChip (({ s.chip with blt := { s.chip.blt with queue := [] } }).afterWrite s.chip m
      .bltGo 0 0 2))) ∧
  (∀ (s : State) (m : Master) (r : BltRun) (t : Chip),
    Live s → Served s.chip m .bltGo 0 0 true → s.chip.blt.run = some r → r.outAll = 0 →
      { s.chip with blt := { s.chip.blt with queue := [] } } = t →
    exec (.blitAbort m) s = .next (s.withChip (((t.bltWmark.stick F.bltStat_ABORTED 0 330).bltDrop).afterWrite s.chip m
      .bltGo 0 0 2))) ∧
  (∀ (s : State) (m : Master) (r : BltRun),
    Live s → Served s.chip m .bltGo 0 0 true → s.chip.blt.run = some r → r.outAll ≠ 0 →
    exec (.blitAbort m) s = .next (s.withChip
      (({ s.chip with blt := { s.chip.blt with queue := [], run := some { r with aborted := true } } }).afterWrite s.chip m
      .bltGo 0 0 2))) ∧
  (∀ (s : State) (b : BltCmd) (q : List BltCmd),
    Live s → s.chip.domOn 46 = true → s.chip.blt.run = none → s.chip.blt.queue = b :: q → b.badFmt = true →
    exec (.blitBegin) s = .next (s.withChip ({ s.chip with blt := { s.chip.blt with queue := q } }.stick F.bltStat_BAD_FMT 0
      330))) ∧
  (∀ (s : State) (b : BltCmd) (q : List BltCmd),
    Live s → s.chip.domOn 46 = true → s.chip.blt.run = none → s.chip.blt.queue = b :: q → b.badFmt = false → b.plan = none →
    exec (.blitBegin) s = .next (s.withChip ({ s.chip with blt := { s.chip.blt with queue := q } }.stick F.bltStat_OVERLAP 0
      330))) ∧
  (∀ (s : State) (b : BltCmd) (q : List BltCmd) (r : BltRun),
    Live s → s.chip.domOn 46 = true → s.chip.blt.run = none → s.chip.blt.queue = b :: q → b.badFmt = false → b.plan = some r
      →
    exec (.blitBegin) s = .next (s.withChip ({ s.chip with blt := { s.chip.blt with queue := q, run := some r } }.setFld
      F.bltRow_VALID 0 0 0)))

/-- A burst, once the dead time of the last is over, issues 256 x 2^BURST destination bytes and sets its own dead time (one
burst's accesses are one step: log entry 13). Where a stretch needs a store that is not served, the command fails with a
DOMAIN_OFF response; else the stretch is read, written, and counted to its row, and the next row begins at its end.
BLIT_WMARK sets WMARK and raises 329 once it is due. BLIT_DONE of a command with every row issued and answered signals its
fence where asked, sets DONE, counts, raises 328 and leaves. BLIT_ERROR of a failed one with all answered fires a due
watermark, sets ERR with event 330, and leaves. (rests on spec/08_blit_dma.md) -/
def Obligations.BlitRun : Prop :=
  (∀ (s : State) (r r2 : BltRun) (t : Chip),
    Live s → s.chip.domOn 46 = true → s.chip.fld F.fabSpareStat_PHASE ≠ 2 → s.chip.blt.run = some r → r.failed = false →
      r.aborted = false → r.row < r.cmd.h → s.chip.blt.dead ≤ sub64 s.chip.now s.chip.blt.at_ → s.chip.bltIssue r (256 * 2 ^
      r.cmd.burstLog) (256 * 2 ^ r.cmd.burstLog) = (t, r2) →
    exec (.blitBurst) s = .next (s.withChip
      ({ t with blt := { t.blt with run := some r2, at_ := s.chip.now, dead := r.cmd.dead } }))) ∧
  (∀ (s : Chip) (r : BltRun) (f n : Nat) (q : Nat × Nat),
    n ≠ 0 → r.row < r.cmd.h → s.bltDown (r.needs (r.stretch n)) = some q →
    s.bltIssue r (f + 1) n =
      ({ s with resps := s.resps ++ [⟨.own 0x28, .blit 0, .domainOff, false, s.localAddr q.1, q.2, 0⟩] },
      { r with failed := true, outAll := r.outAll + 1 })) ∧
  (∀ (s : Chip) (r : BltRun) (f n k y : Nat) (p : List (Nat × Bool) × Chip) (w : Chip × Nat),
    n ≠ 0 → r.row < r.cmd.h → r.strip = 0 → r.stretch n = k → s.bltDown (r.needs k) = none → r.rowAt r.row = y → s.bltSource
      r.cmd (r.colAt k) k y = p → p.2.bltPut r.cmd (r.colAt k) y p.1 = w →
    s.bltIssue r (f + 1) n = w.1.bltIssue
      { r with buf := [], row := if r.cmd.w ≤ r.col + k then r.row + 1 else r.row, col := if r.cmd.w ≤ r.col + k then 0 else r.col + k, out := NStore.set r.out y (NStore.get 0 r.out y + w.2), outAll := r.outAll + w.2 }
      f (n - (r.cmd.dstRun (r.colAt k) k y).2)) ∧
  (∀ (s : State) (r : BltRun),
    Live s → s.chip.domOn 46 = true → s.chip.blt.run = some r → r.wmDue = true →
    exec (.blitWmark) s = .next (s.withChip
      (({ s.chip with blt := { s.chip.blt with run := some { r with wmFired := true } } }.setFld F.bltStat_WMARK 0 0
      1).raise 329))) ∧
  (∀ (s : State) (r : BltRun),
    Live s → s.chip.domOn 46 = true → s.chip.blt.run = some r → r.wmDue = false →
    exec (.blitWmark) s = .next (s.withChip (s.chip))) ∧
  (∀ (s : State) (r : BltRun),
    Live s → s.chip.domOn 46 = true → s.chip.blt.run = some r → r.cmd.h ≤ r.row → r.outAll = 0 → r.failed = false →
      r.aborted = false → r.wmDue = false → r.cmd.fsig = true →
    exec (.blitDone) s = .next (s.withChip (((((s.chip.fenceWrite (.own 0x28) r.cmd.fence).setFld F.bltStat_DONE 0 0 1).bump
      F.bltDonecnt_COUNT F.bltDonecnt_SAT).raise 328).bltDrop))) ∧
  (∀ (s : State) (r : BltRun),
    Live s → s.chip.domOn 46 = true → s.chip.blt.run = some r → r.cmd.h ≤ r.row → r.outAll = 0 → r.failed = false →
      r.aborted = false → r.wmDue = false → r.cmd.fsig = false →
    exec (.blitDone) s = .next (s.withChip ((((s.chip.setFld F.bltStat_DONE 0 0 1).bump F.bltDonecnt_COUNT
      F.bltDonecnt_SAT).raise 328).bltDrop))) ∧
  (∀ (s : State) (r : BltRun),
    Live s → s.chip.domOn 46 = true → s.chip.blt.run = some r → r.failed = true → r.outAll = 0 → r.aborted = false →
    exec (.blitError) s = .next (s.withChip ((s.chip.bltWmark.stick F.bltStat_ERR 0 330).bltDrop)))

/-- START on IDLE reads the descriptor where the channel is not paced by marks, and sets CFG_ERR where it is and HI is not
above LO; on WAIT_OWN it reads again; in the later states but HALTING it changes nothing. A write to DMA_BELL is START on
the channel it names. HALT during a descriptor read waits; of a channel in ACTIVE or WAIT_REQ with a descriptor it makes
HALTING and settles, which with nothing outstanding is HALTED. RESUME of a HALTED channel goes on in ACTIVE with its
descriptor, or reads the next; in states other than HALTED and HALTING it changes nothing. ABORT during a descriptor read
makes ABORTING, on WAIT_OWN IDLE; on IDLE or ABORTING it changes nothing. (rests on spec/08_blit_dma.md) -/
def Obligations.DmaCommands : Prop :=
  (∀ (s : State) (m : Master) (i : Fin 1024),
    Live s → Served s.chip m .dmacCmd i.1 0 true → s.chip.dmaState i.1 = 0 → dmaPaced (s.chip.fld F.dmacCfg_REQSRC i.1) =
      false →
    exec (.dmaStart m i) s = .next (s.withChip ((s.chip.dmaFetch i.1).afterWrite s.chip m .dmacCmd i.1 0 1))) ∧
  (∀ (s : State) (m : Master) (i : Fin 1024),
    Live s → Served s.chip m .dmacCmd i.1 0 true → s.chip.dmaState i.1 = 0 → dmaPaced (s.chip.fld F.dmacCfg_REQSRC i.1) =
      true → s.chip.fld F.dmacHi_MARK i.1 ≤ s.chip.fld F.dmacLo_MARK i.1 →
    exec (.dmaStart m i) s = .next (s.withChip ((s.chip.dmaErrBit F.dmacStat_CFG_ERR i.1).afterWrite s.chip m .dmacCmd i.1 0
      1))) ∧
  (∀ (s : State) (m : Master) (i : Fin 1024),
    Live s → Served s.chip m .dmacCmd i.1 0 true → s.chip.dmaState i.1 = 1 →
    exec (.dmaStart m i) s = .next (s.withChip ((s.chip.dmaFetch i.1).afterWrite s.chip m .dmacCmd i.1 0 1))) ∧
  (∀ (s : State) (m : Master) (i : Fin 1024),
    Live s → Served s.chip m .dmacCmd i.1 0 true → 2 ≤ s.chip.dmaState i.1 → s.chip.dmaState i.1 ≠ 4 →
    exec (.dmaStart m i) s = .next (s.withChip ((s.chip).afterWrite s.chip m .dmacCmd i.1 0 1))) ∧
  (∀ (s : State) (m : Master) (v : BitVec 32),
    Live s → Served s.chip m .dmaBell 0 0 true → s.chip.dmaState (bits v.toNat 9 0) = 1 →
    exec (.dmaBell m v) s = .next (s.withChip ((s.chip.dmaFetch (bits v.toNat 9 0)).afterWrite s.chip m .dmaBell 0 0
      v.toNat))) ∧
  (∀ (s : State) (m : Master) (v : BitVec 32),
    Live s → Served s.chip m .dmaBell 0 0 true → s.chip.dmaState (bits v.toNat 9 0) = 0 → dmaPaced (s.chip.fld
      F.dmacCfg_REQSRC (bits v.toNat 9 0)) = false →
    exec (.dmaBell m v) s = .next (s.withChip ((s.chip.dmaFetch (bits v.toNat 9 0)).afterWrite s.chip m .dmaBell 0 0
      v.toNat))) ∧
  (∀ (s : State) (m : Master) (i : Fin 1024),
    Live s → Served s.chip m .dmacCmd i.1 0 true → (s.chip.chan i.1).reading = true → s.chip.dmaState i.1 = 2 →
    exec (.dmaHalt m i) s = .next (s.withChip ((s.chip.updChan i.1 fun x => { x with haltHeld := true }).afterWrite s.chip m
      .dmacCmd i.1 0 2))) ∧
  (∀ (s : State) (m : Master) (i : Fin 1024),
    Live s → Served s.chip m .dmacCmd i.1 0 true → (s.chip.chan i.1).reading = false → s.chip.dmaState i.1 = 2 ∨
      s.chip.dmaState i.1 = 3 → (s.chip.chan i.1).desc.isSome = true →
    exec (.dmaHalt m i) s = .next (s.withChip (((s.chip.setDmaState i.1 4).dmaSettle i.1).afterWrite s.chip m .dmacCmd i.1 0
      2))) ∧
  (∀ (s : Chip) (i : Nat),
    ((s.setDmaState i 4).chan i).bursts = [] → ((s.setDmaState i 4).chan i).ptrs = [] → ((s.setDmaState i 4).chan i).fail =
      none →
    (s.setDmaState i 4).dmaSettle i = (s.setDmaState i 4).setDmaState i 5) ∧
  (∀ (s : State) (m : Master) (i : Fin 1024),
    Live s → Served s.chip m .dmacCmd i.1 0 true → s.chip.dmaState i.1 = 5 → (s.chip.chan i.1).desc.isSome = true →
    exec (.dmaResume m i) s = .next (s.withChip (((s.chip.setDmaState i.1 2).dmaRequest i.1).afterWrite s.chip m .dmacCmd
      i.1 0 4))) ∧
  (∀ (s : State) (m : Master) (i : Fin 1024),
    Live s → Served s.chip m .dmacCmd i.1 0 true → s.chip.dmaState i.1 = 5 → (s.chip.chan i.1).desc = none → (s.chip.chan
      i.1).stop ≠ 2 →
    exec (.dmaResume m i) s = .next (s.withChip ((s.chip.dmaFetch i.1).afterWrite s.chip m .dmacCmd i.1 0 4))) ∧
  (∀ (s : State) (m : Master) (i : Fin 1024),
    Live s → Served s.chip m .dmacCmd i.1 0 true → s.chip.dmaState i.1 ≠ 5 → s.chip.dmaState i.1 ≠ 4 →
    exec (.dmaResume m i) s = .next (s.withChip ((s.chip).afterWrite s.chip m .dmacCmd i.1 0 4))) ∧
  (∀ (s : State) (m : Master) (i : Fin 1024),
    Live s → Served s.chip m .dmacCmd i.1 0 true → (s.chip.chan i.1).reading = true → s.chip.dmaState i.1 = 2 →
    exec (.dmaAbort m i) s = .next (s.withChip ((s.chip.setDmaState i.1 6).afterWrite s.chip m .dmacCmd i.1 0 8))) ∧
  (∀ (s : State) (m : Master) (i : Fin 1024),
    Live s → Served s.chip m .dmacCmd i.1 0 true → s.chip.dmaState i.1 = 1 →
    exec (.dmaAbort m i) s = .next (s.withChip ((s.chip.dmaIdle i.1).afterWrite s.chip m .dmacCmd i.1 0 8))) ∧
  (∀ (s : State) (m : Master) (i : Fin 1024),
    Live s → Served s.chip m .dmacCmd i.1 0 true → s.chip.dmaState i.1 = 0 ∨ s.chip.dmaState i.1 = 6 →
    exec (.dmaAbort m i) s = .next (s.withChip ((s.chip).afterWrite s.chip m .dmacCmd i.1 0 8)))

/-- A descriptor address below the pattern store ends the read with DESC_ADDR; a descriptor read without poison with OWN 0
leaves the channel in WAIT_OWN. DMA_BURST_START with no eligible channel changes nothing; with one whose REQSRC is not 1 it
issues the burst's reads, records the burst, and moves POS on by its size. POINTER_UPDATE of a burst without error of a
voice's channel adds its bytes to WPTR modulo the ring, one of a burst with an error is dropped. DESCRIPTOR_FINISH of a good
last descriptor without fence or interrupt writes the length to its status word and clears OWN (one step: log entry 23),
sets DONE, counts, takes NEXT (log entry 24) and goes IDLE; one that is not due only looks at the levels again. (rests on
spec/08_blit_dma.md) -/
def Obligations.DmaTransfers : Prop :=
  (∀ (s : State) (i : Fin 1024),
    Live s → s.chip.domOn 45 = true → (s.chip.chan i.1).reading = true → s.chip.fld F.dmacDesc_ADDR i.1 * 32 < 0x08000000 →
    exec (.descriptorReturn i) s = .next (s.withChip (s.chip.dmaBadRead F.dmacStat_DESC_ADDR i.1))) ∧
  (∀ (s : State) (i : Fin 1024) (a : Nat) (r : Nat × Bool × Chip),
    Live s → s.chip.domOn 45 = true → (s.chip.chan i.1).reading = true → s.chip.fld F.dmacDesc_ADDR i.1 * 32 = a →
      0x08000000 ≤ a → a < 0x16000000 → s.chip.storeUp a = true → s.chip.heldByRepair a 32 = false → s.chip.dmaHalf a = r →
      r.2.1 = false → bit r.1 31 = false → s.chip.dmaState i.1 ≠ 6 →
    exec (.descriptorReturn i) s = .next (s.withChip ((r.2.2.updChan i.1 fun x =>
      { x with reading := false, haltHeld := false }).setDmaState i.1 1))) ∧
  (∀ (s : State),
    Live s → s.chip.domOn 45 = true → s.chip.dmaPick = none →
    exec (.dmaBurstStart) s = .next (s.withChip (s.chip))) ∧
  (∀ (s : State) (k q : Nat) (d : Desc) (rs : List (Nat × Nat × Nat)) (t : Chip),
    Live s → s.chip.domOn 45 = true → s.chip.dmaPick = some k → (s.chip.chan k).desc = some d → s.chip.fld F.dmacCfg_REQSRC
      k ≠ 1 → (s.chip.chan k).next = q → d.reads (s.chip.fld F.dmacPos_POS k) (s.chip.dmaSize k) = rs → s.chip.updChan k
      (fun x =>
      { x with bursts := x.bursts ++ [{ seq := q, off := s.chip.fld F.dmacPos_POS k, n := s.chip.dmaSize k, rd := rs.length, left := s.chip.dmaSize k }], next := q + 1 })
      = t →
    exec (.dmaBurstStart) s = .next (s.withChip
      (({ t with issueQ := t.issueQ ++ rs.zipIdx.map (fun (p : (Nat × Nat × Nat) × Nat) => ({ mst := .own 0x20, owner := .dmaRead k (q * 4096 + p.2), write := false, addr := p.1.2.1, size := p.1.2.2, data := 0, poison := false } : Access)), dmaRr := NStore.set t.dmaRr (s.chip.fld F.dmacCfg_PRIO k) k }.setFld
      F.dmacPos_POS k 0 (s.chip.fld F.dmacPos_POS k + s.chip.dmaSize k)).dmaRequest k))) ∧
  (∀ (s : State) (i : Fin 1024) (p : Nat × Nat) (rest : List (Nat × Nat)) (t : Chip) (v : Nat),
    Live s → s.chip.domOn 45 = true → (s.chip.chan i.1).ptrs = p :: rest → s.chip.fld F.dmacCfg_REQSRC i.1 = 0x200 + v →
      (s.chip.chan i.1).clean p.1 = true → s.chip.updChan i.1 (fun x => { x with ptrs := rest }) = t → t.domOn 42 = true →
    exec (.pointerUpdate i) s = .next (s.withChip ((((t.audTake.setFld F.vWptr_WPTR v 0 ((t.fld F.vWptr_WPTR v + p.2) %
      t.ringSize v)).dmaSettle i.1).dmaRequest i.1).dmaLevels))) ∧
  (∀ (s : State) (i : Fin 1024) (p : Nat × Nat) (rest : List (Nat × Nat)),
    Live s → s.chip.domOn 45 = true → (s.chip.chan i.1).ptrs = p :: rest → (s.chip.chan i.1).clean p.1 = false →
    exec (.pointerUpdate i) s = .next (s.withChip ((((s.chip.updChan i.1 (fun x => { x with ptrs := rest })).dmaSettle
      i.1).dmaRequest i.1).dmaLevels))) ∧
  (∀ (s : State) (i : Fin 1024) (d : Desc) (t : Chip),
    Live s → s.chip.domOn 45 = true → (s.chip.chan i.1).desc = some d → s.chip.dmaDue i.1 d = true → s.chip.dmaPutWaits
      d.addr = false → s.chip.dmaState i.1 ≠ 6 → s.chip.dmaStatus i.1 d = (0, d.len) → (s.chip.chan i.1).poison = false →
      d.fsig = false → d.irq = false → d.last = true → (s.chip.dmaPut (d.addr + 0x1C) d.len).dmaPut d.addr (d.ctrl % 2 ^ 31)
      = t →
    exec (.descriptorFinish i) s = .next (s.withChip ((((((t.setFld F.dmacStat_DONE i.1 0 1).bump F.dmacDonecnt_COUNT
      F.dmacDonecnt_SAT i.1).setFld F.dmacDesc_ADDR i.1 0 d.next).dmaIdle i.1)).dmaLevels))) ∧
  (∀ (s : State) (i : Fin 1024) (d : Desc),
    Live s → s.chip.domOn 45 = true → (s.chip.chan i.1).desc = some d → s.chip.dmaDue i.1 d = false →
    exec (.descriptorFinish i) s = .next (s.withChip (s.chip.dmaLevels)))

/-- For all 36-bit words a and b: ALU codes 8 to 12 are their sum, difference, and, or, exclusive or; 0x0E and 0x0F the
lesser and the greater as signed, 0x10 and 0x11 as unsigned; 0x12 to 0x14 give 1 or 0 for equal, less as signed, less as
unsigned; 0x15 is the sum saturated to the signed range. Multiplier codes 8 and 9 give the 72-bit product of signed and of
unsigned words in two halves. Shifter codes 8 and 9 shift left and right by b modulo 64, with 0 for 36 and more. Branch
codes 0x0A to 0x0F are taken on equal, not equal, signed less, signed not less, unsigned less, unsigned not less. (rests on
spec/09_anvil_instruction_set.md) -/
def Obligations.AnvilArithmetic : Prop :=
  (∀ (a b : BitVec 36),
    aluOp 0x08 a.toNat b.toNat = (a + b).toNat ∧ aluOp 0x09 a.toNat b.toNat = (a - b).toNat ∧ aluOp 0x0A a.toNat b.toNat =
      (a &&& b).toNat ∧ aluOp 0x0B a.toNat b.toNat = (a ||| b).toNat ∧ aluOp 0x0C a.toNat b.toNat = (a ^^^ b).toNat) ∧
  (∀ (a b : BitVec 36),
    aluOp 0x0E a.toNat b.toNat = (if b.toInt < a.toInt then b else a).toNat ∧ aluOp 0x0F a.toNat b.toNat = (if a.toInt <
      b.toInt then b else a).toNat ∧ aluOp 0x10 a.toNat b.toNat = min a.toNat b.toNat ∧ aluOp 0x11 a.toNat b.toNat = max
      a.toNat b.toNat ∧ aluOp 0x12 a.toNat b.toNat = (if a = b then 1 else 0) ∧ aluOp 0x13 a.toNat b.toNat = (if a.toInt <
      b.toInt then 1 else 0) ∧ aluOp 0x14 a.toNat b.toNat = (if a.toNat < b.toNat then 1 else 0)) ∧
  (∀ (a b : BitVec 36),
    (a.toInt + b.toInt < -2 ^ 35 → aluOp 0x15 a.toNat b.toNat = 2 ^ 35) ∧ (2 ^ 35 ≤ a.toInt + b.toInt → aluOp 0x15 a.toNat
      b.toNat = 2 ^ 35 - 1) ∧ (-2 ^ 35 ≤ a.toInt + b.toInt → a.toInt + b.toInt < 2 ^ 35 → aluOp 0x15 a.toNat b.toNat = (a +
      b).toNat)) ∧
  (∀ (a b : BitVec 36),
    (mulOp 0x08 a.toNat b.toNat).1 + (mulOp 0x08 a.toNat b.toNat).2 * 2 ^ 36 = (a.signExtend 72 * b.signExtend 72).toNat ∧
      (mulOp 0x09 a.toNat b.toNat).1 + (mulOp 0x09 a.toNat b.toNat).2 * 2 ^ 36 = a.toNat * b.toNat) ∧
  (∀ (a b : BitVec 36),
    b.toNat % 64 < 36 →
    shfOp 0x08 a.toNat b.toNat = (a <<< (b.toNat % 64)).toNat ∧ shfOp 0x09 a.toNat b.toNat = (a >>> (b.toNat % 64)).toNat) ∧
  (∀ (a b : BitVec 36),
    36 ≤ b.toNat % 64 →
    shfOp 0x08 a.toNat b.toNat = 0 ∧ shfOp 0x09 a.toNat b.toNat = 0) ∧
  (∀ (a b : BitVec 36),
    (branchOn 0x0A a.toNat b.toNat = true ↔ a = b) ∧ (branchOn 0x0B a.toNat b.toNat = true ↔ a ≠ b) ∧ (branchOn 0x0C a.toNat
      b.toNat = true ↔ a.toInt < b.toInt) ∧ (branchOn 0x0D a.toNat b.toNat = true ↔ b.toInt ≤ a.toInt) ∧ (branchOn 0x0E
      a.toNat b.toNat = true ↔ a.toNat < b.toNat) ∧ (branchOn 0x0F a.toNat b.toNat = true ↔ b.toNat ≤ a.toNat))

/-- RUN of a core in RESET or HALTED whose domain is on makes it RUNNING, in other states it changes nothing. HALT makes a
RUNNING core that no instruction blocks, or a WAITING one, HALTED, and waits on a blocked one. STEP in HALTED arms one
issue, elsewhere nothing. RESET of a core that is not ASLEEP keeps its two memories and puts the rest at reset values with
PC and PRI 0 in state RESET. WFI_END with the request line 1 makes a WAITING core RUNNING and enters the interrupt where one
is due; with 0 nothing. INTERRUPT_ENTRY, where due, saves PC in EPC, clears IE and goes to EVEC; else nothing. SYNC_COMPLETE
with no write outstanding ends SYNC; with one, nothing. (rests on spec/09_anvil_instruction_set.md, spec/10_anvil_system.md)
-/
def Obligations.CoreControl : Prop :=
  (∀ (s : State) (m : Master) (k : Fin 8),
    Live s → Served s.chip m .coreCtrl k.1 0 true → s.chip.coreState k.1 ≤ 1 → s.chip.domOn (s.chip.physOf 0 k.1) = true →
    exec (.coreRun m k) s = .next (s.withChip (((s.chip.updCore k.1 fun x =>
      { x with haltPend := false, stepping := false }).setCoreState k.1 2).afterWrite s.chip m .coreCtrl k.1 0 1))) ∧
  (∀ (s : State) (m : Master) (k : Fin 8),
    Live s → Served s.chip m .coreCtrl k.1 0 true → 2 ≤ s.chip.coreState k.1 →
    exec (.coreRun m k) s = .next (s.withChip ((s.chip).afterWrite s.chip m .coreCtrl k.1 0 1))) ∧
  (∀ (s : State) (m : Master) (k : Fin 8),
    Live s → Served s.chip m .coreCtrl k.1 0 true → s.chip.coreState k.1 = 2 → (s.chip.core k.1).blocked = none →
    exec (.coreHalt m k) s = .next (s.withChip ((s.chip.setCoreState k.1 1).afterWrite s.chip m .coreCtrl k.1 0 2))) ∧
  (∀ (s : State) (m : Master) (k : Fin 8) (n : Nat),
    Live s → Served s.chip m .coreCtrl k.1 0 true → s.chip.coreState k.1 = 2 → (s.chip.core k.1).blocked = some n →
    exec (.coreHalt m k) s = .next (s.withChip ((s.chip.updCore k.1 fun x => { x with haltPend := true }).afterWrite s.chip
      m .coreCtrl k.1 0 2))) ∧
  (∀ (s : State) (m : Master) (k : Fin 8),
    Live s → Served s.chip m .coreCtrl k.1 0 true → s.chip.coreState k.1 = 3 →
    exec (.coreHalt m k) s = .next (s.withChip ((s.chip.setCoreState k.1 1).afterWrite s.chip m .coreCtrl k.1 0 2))) ∧
  (∀ (s : State) (m : Master) (k : Fin 8),
    Live s → Served s.chip m .coreCtrl k.1 0 true → s.chip.coreState k.1 = 1 →
    exec (.coreStep m k) s = .next (s.withChip ((s.chip.updCore k.1 fun x => { x with stepping := true }).afterWrite s.chip
      m .coreCtrl k.1 0 4))) ∧
  (∀ (s : State) (m : Master) (k : Fin 8),
    Live s → Served s.chip m .coreCtrl k.1 0 true → s.chip.coreState k.1 ≠ 1 →
    exec (.coreStep m k) s = .next (s.withChip ((s.chip).afterWrite s.chip m .coreCtrl k.1 0 4))) ∧
  (∀ (s : State) (m : Master) (k : Fin 8),
    Live s → Served s.chip m .coreCtrl k.1 0 true → s.chip.coreState k.1 ≠ 4 →
    exec (.coreReset m k) s = .next (s.withChip (((((s.chip.updCore k.1 fun x =>
      { dmem := x.dmem, imem := x.imem, nextFab := x.nextFab, fabDone := x.nextFab, fabDoneW := x.nextFab, issuedAt := x.issuedAt }).setFld
      F.coreStat_PC k.1 0 0).setFld F.intcPri_PRI k.1 0 0).setCoreState k.1 0).afterWrite s.chip m .coreCtrl k.1 0 8))) ∧
  (∀ (s : State) (k : Fin 8),
    Live s → s.chip.domOn (s.chip.physOf 0 k.1) = true → s.chip.coreState k.1 = 3 → s.chip.reqLine k.1 = true →
    exec (.wfiEnd k) s = .next (s.withChip ((s.chip.setCoreState k.1 2).irqEntry k.1))) ∧
  (∀ (s : State) (k : Fin 8),
    Live s → s.chip.domOn (s.chip.physOf 0 k.1) = true → s.chip.coreState k.1 = 3 → s.chip.reqLine k.1 = false →
    exec (.wfiEnd k) s = .next (s.withChip (s.chip))) ∧
  (∀ (s : State) (k : Fin 8) (t : Chip),
    Live s → s.chip.domOn (s.chip.physOf 0 k.1) = true → s.chip.irqDue k.1 = true → (s.chip.setPort k.1 0x183 (s.chip.fld
      F.coreStat_PC k.1)).setPort k.1 0x182 0 = t →
    exec (.interruptEntry k) s = .next (s.withChip ((t.setFld F.coreStat_PC k.1 0 (t.port k.1 0x184)).updCore k.1 fun x =>
      { x with brkHeld := false }))) ∧
  (∀ (s : State) (k : Fin 8),
    Live s → s.chip.domOn (s.chip.physOf 0 k.1) = true → s.chip.irqDue k.1 = false →
    exec (.interruptEntry k) s = .next (s.withChip (s.chip))) ∧
  (∀ (s : State) (k : Fin 8),
    Live s → s.chip.domOn (s.chip.physOf 0 k.1) = true → (s.chip.core k.1).sync = true → (∀ o ∈ (s.chip.core k.1).fab,
      o.write = false) →
    exec (.syncComplete k) s = .next (s.withChip (s.chip.updCore k.1 fun x => { x with sync := false }))) ∧
  (∀ (s : State) (k : Fin 8),
    Live s → s.chip.domOn (s.chip.physOf 0 k.1) = true → ((s.chip.core k.1).fab.any fun o => o.write) = true →
    exec (.syncComplete k) s = .next (s.withChip (s.chip)))

/-- Of a core that may issue with no interrupt due: at its breakpoint, first, it halts with HALT_BRK; with the word at PC
good and nothing to wait for, the instruction issues whole; a word of four empty slots only goes on to PC + 1; one that
waits for a unit or FIFO is blocked since the first such try; a poisoned word issues as poisoned. ACC_TIMEOUT of an
instruction blocked for 4,096 tk, whose FIFOs have been without a word or room for as long, issues it with its timeout.
FAB_RESULT takes the oldest read response of the core, logs it, and gives it to the access it answers. The order of effects
within an issue is in part the model's reading (log entry 40). (rests on spec/09_anvil_instruction_set.md,
spec/10_anvil_system.md) -/
def Obligations.CoreIssue : Prop :=
  (∀ (s : State) (k : Fin 8),
    Live s → s.chip.domOn (s.chip.physOf 0 k.1) = true → s.chip.mayIssue k.1 = true → s.chip.irqDue k.1 = false → s.chip.on
      F.coreBrk_EN k.1 = true → s.chip.fld F.coreBrk_ADDR k.1 = s.chip.fld F.coreStat_PC k.1 → (s.chip.core k.1).brkHeld =
      false → (s.chip.core k.1).stepping = false → (s.chip.core k.1).blocked = none →
    exec (.instructionIssue k) s = .next (s.withChip ((((s.chip.updCore k.1 fun x => { x with brkHeld := true }).setFld
      F.coreStat_HALT_BRK k.1 0 1).setCoreState k.1 1).dmaLevels))) ∧
  (∀ (s : State) (k : Fin 8) (w pc : Nat) (t : Chip),
    Live s → s.chip.domOn (s.chip.physOf 0 k.1) = true → s.chip.mayIssue k.1 = true → s.chip.irqDue k.1 = false → s.chip.on
      F.coreBrk_EN k.1 = false → s.chip.fld F.coreStat_PC k.1 = pc → s.chip.checkUnit (imemAddr k.1 pc) = (false, t) →
      s.chip.imemWord k.1 pc = w → s.chip.unitWaits k.1 w = false → s.chip.fifoWaits k.1 w = false →
    exec (.instructionIssue k) s = .next (s.withChip ((t.issueNow k.1 pc w false).dmaLevels))) ∧
  (∀ (s : State) (k : Fin 8) (pc : Nat),
    Live s → s.chip.domOn (s.chip.physOf 0 k.1) = true → s.chip.mayIssue k.1 = true → s.chip.irqDue k.1 = false → s.chip.on
      F.coreBrk_EN k.1 = false → s.chip.fld F.coreStat_PC k.1 = pc → Store.get? (imemAddr k.1 pc) s.chip.marks = none →
      s.chip.imemWord k.1 pc = 0 →
    exec (.instructionIssue k) s = .next (s.withChip ((s.chip.issued k.1 ((pc + 1) % 16384) false).dmaLevels))) ∧
  (∀ (s : State) (k : Fin 8) (w pc : Nat) (t : Chip),
    Live s → s.chip.domOn (s.chip.physOf 0 k.1) = true → s.chip.mayIssue k.1 = true → s.chip.irqDue k.1 = false → s.chip.on
      F.coreBrk_EN k.1 = false → s.chip.fld F.coreStat_PC k.1 = pc → s.chip.checkUnit (imemAddr k.1 pc) = (false, t) →
      s.chip.imemWord k.1 pc = w → (s.chip.unitWaits k.1 w || s.chip.fifoWaits k.1 w) = true →
    exec (.instructionIssue k) s = .next (s.withChip ((t.updCore k.1 fun x =>
      { x with blocked := some (x.blocked.getD s.chip.now) }).dmaLevels))) ∧
  (∀ (s : State) (k : Fin 8) (pc : Nat) (t : Chip),
    Live s → s.chip.domOn (s.chip.physOf 0 k.1) = true → s.chip.mayIssue k.1 = true → s.chip.irqDue k.1 = false → s.chip.on
      F.coreBrk_EN k.1 = false → s.chip.fld F.coreStat_PC k.1 = pc → s.chip.checkUnit (imemAddr k.1 pc) = (true, t) →
    exec (.instructionIssue k) s = .next (s.withChip ((t.issuePoisoned k.1 pc).dmaLevels))) ∧
  (∀ (s : State) (k : Fin 8) (w pc t0 : Nat),
    Live s → s.chip.domOn (s.chip.physOf 0 k.1) = true → s.chip.fld F.coreStat_PC k.1 = pc → s.chip.imemWord k.1 pc = w →
      (s.chip.core k.1).blocked = some t0 → s.chip.mayIssue k.1 = true → s.chip.unitWaits k.1 w = false → s.chip.fifoWaits
      k.1 w = true → s.chip.fifoStuck w = true → 4096 ≤ sub64 s.chip.now t0 →
    exec (.accTimeout k) s = .next (s.withChip ((s.chip.issueNow k.1 pc w true).dmaLevels))) ∧
  (∀ (s : State) (k : Fin 8) (r : Resp) (rest : List Resp) (k' n : Nat),
    Live s → s.chip.domOn (s.chip.physOf 0 k.1) = true → takeResp (fun r => r.mst == .own k.1 && r.coreRead) s.chip.resps =
      some (r, rest) → r.owner = .core k' n →
    exec (.fabResult k) s = .next (s.withChip ((({ s.chip with resps := rest }).logResp r).fabDone k' n r)))

/-- A read through the window of core k that is not refused is answered with the element's word, as POISON where the element
is poisoned and OKAY else, with the effect the element's latch has. A write that is not refused has the window's effect and
is answered OKAY. A write to the first word of an instruction-memory element of a powered core that is not in RESET or
HALTED is answered TARGET and changes nothing else. (rests on spec/01_one_frame.md, spec/10_anvil_system.md) -/
def Obligations.DebugWindows : Prop :=
  (∀ (s : State) (m : Master) (k : Fin 8) (o : BitVec 22) (la d : Nat) (p : Bool) (t : Chip),
    Live s → windowAddr k.1 o.toNat = la → Free s.chip (given m false (s.chip.localAddr la) 4 0 false) → s.chip.domOn 41 =
      true → s.chip.heldByRepair la 4 = false → s.chip.winRefuses la 4 false = none → s.chip.winRead la = (d, p, t) →
    exec (.windowRead m k o) s = .next (s.withChip (t.respond (given m false (s.chip.localAddr la) 4 0 false) (if p then
      .poison else .okay) d))) ∧
  (∀ (s : State) (m : Master) (k : Fin 8) (o : BitVec 22) (v : BitVec 32) (la : Nat),
    Live s → windowAddr k.1 o.toNat = la → Free s.chip (given m true (s.chip.localAddr la) 4 v.toNat false) → s.chip.domOn
      41 = true → s.chip.heldByRepair la 4 = false → s.chip.winRefuses la 4 true = none →
    exec (.windowWrite m k o v) s = .next (s.withChip ((s.chip.winWrite la v.toNat).dmaLevels.respond (given m true
      (s.chip.localAddr la) 4 v.toNat false) .okay 0))) ∧
  (∀ (s : State) (m : Master) (k : Fin 8) (o : BitVec 22) (v : BitVec 32) (la : Nat),
    Live s → windowAddr k.1 o.toNat = la → Free s.chip (given m true (s.chip.localAddr la) 4 v.toNat false) → s.chip.domOn
      41 = true → s.chip.domOn (s.chip.physOf 0 k.1) = true → s.chip.heldByRepair la 4 = false → o.toNat % 32 = 0 → 0x200000
      ≤ o.toNat → o.toNat < 0x280000 → 2 ≤ s.chip.coreState k.1 →
    exec (.windowWrite m k o v) s = .next (s.withChip (s.chip.respond (given m true (s.chip.localAddr la) 4 v.toNat false)
      .target 0)))

/-- On an UP link: an intact packet with the expected number is acknowledged (each one: log entry 28), takes receive buffer,
moves the expected number on, and is acted on. A packet with a bad CRC, a bad block or a reserved type, and one up to 2,047
past the expected number, counts a CRC error, sets CRC, and sends a NAK where none stands for the gap. One up to 2,048
before it is dropped. An ACK of a packet held for replay releases it and those before it, another changes nothing. A NAK, or
10 µs without an ACK, counts and resends what is held with RETRY, and after RETRYMAX resends starts retraining; before 10 µs
the timeout does nothing. A CREDIT block gives back credits of its virtual lane, and what then can be sent is. (rests on
spec/14_lintel_canvas.md) -/
def Obligations.LinkPackets : Prop :=
  (∀ (s : State) (l : Fin 4) (p : Packet) (good : Bool),
    Live s → s.chip.domOn (60 + l.1) = true → s.chip.fld F.lnklStat_STATE l.1 = 2 → good = true → p.crc = p.crcOf → p.typ <
      8 → p.seq = (s.chip.link l.1).expect → p.seq < 4096 →
    exec (.packetReceive l p good) s = .next (s.withChip ((s.chip.updLink l.1 fun x =>
      { x with expect := (x.expect + 1) % 4096, nakSent := false, sent := x.sent ++ [.ack p.seq], held := NStore.put0 x.held p.vl (NStore.get 0 x.held p.vl + p.credits) }).acceptPacket
      l.1 { p with inl := l.1 }))) ∧
  (∀ (s : State) (l : Fin 4) (p : Packet) (good : Bool),
    Live s → s.chip.domOn (60 + l.1) = true → s.chip.fld F.lnklStat_STATE l.1 = 2 → good = false ∨ p.crc ≠ p.crcOf ∨ 8 ≤
      p.typ →
    exec (.packetReceive l p good) s = .next (s.withChip (((s.chip.bump F.lnklCrccnt_COUNT F.lnklCrccnt_SAT l.1).linkStick
      F.lnklStat_CRC l.1).updLink l.1 fun x => x.refuse))) ∧
  (∀ (x : Link),
    x.nakSent = false →
    x.refuse = { x with nakSent := true, sent := x.sent ++ [.nak x.expect] }) ∧
  (∀ (x : Link),
    x.nakSent = true →
    x.refuse = x) ∧
  (∀ (s : State) (l : Fin 4) (p : Packet) (good : Bool),
    Live s → s.chip.domOn (60 + l.1) = true → s.chip.fld F.lnklStat_STATE l.1 = 2 → (s.chip.link l.1).expect < p.seq → p.seq
      < (s.chip.link l.1).expect + 2048 → p.seq < 4096 →
    exec (.packetReceive l p good) s = .next (s.withChip (((s.chip.bump F.lnklCrccnt_COUNT F.lnklCrccnt_SAT l.1).linkStick
      F.lnklStat_CRC l.1).updLink l.1 fun x => x.refuse))) ∧
  (∀ (s : State) (l : Fin 4) (p : Packet) (good : Bool),
    Live s → s.chip.domOn (60 + l.1) = true → s.chip.fld F.lnklStat_STATE l.1 = 2 → good = true → p.crc = p.crcOf → p.typ <
      8 → p.seq < (s.chip.link l.1).expect → (s.chip.link l.1).expect ≤ p.seq + 2048 → p.seq < 4096 →
    exec (.packetReceive l p good) s = .next (s.withChip (s.chip))) ∧
  (∀ (s : State) (l : Fin 4) (n : BitVec 12),
    Live s → s.chip.domOn (60 + l.1) = true → ((s.chip.link l.1).replay.any fun p => p.seq == n.toNat) = true →
    exec (.linkAck l n) s = .next (s.withChip ((s.chip.updLink l.1 fun x =>
      { x with replay := (x.replay.dropWhile fun p => p.seq != n.toNat).drop 1, resends := 0, since := s.chip.now }).linkPump
      l.1))) ∧
  (∀ (s : State) (l : Fin 4) (n : BitVec 12),
    Live s → s.chip.domOn (60 + l.1) = true → ((s.chip.link l.1).replay.any fun p => p.seq == n.toNat) = false →
    exec (.linkAck l n) s = .next (s.withChip (s.chip))) ∧
  (∀ (s : State) (l : Fin 4),
    Live s → s.chip.domOn (60 + l.1) = true → (s.chip.link l.1).replay ≠ [] → s.chip.fld F.lnklStat_STATE l.1 = 2 →
      (s.chip.link l.1).resends < s.chip.fld F.lnklCtrl_RETRYMAX l.1 →
    exec (.linkNak l) s = .next (s.withChip (((s.chip.bump F.lnklRetrycnt_COUNT F.lnklRetrycnt_SAT l.1 0 (s.chip.link
      l.1).replay.length).linkStick F.lnklStat_RETRY l.1).updLink l.1 fun x =>
      { x with resends := x.resends + 1, since := s.chip.now }))) ∧
  (∀ (s : State) (l : Fin 4),
    Live s → s.chip.domOn (60 + l.1) = true → (s.chip.link l.1).replay ≠ [] → s.chip.fld F.lnklStat_STATE l.1 = 2 →
      s.chip.fld F.lnklCtrl_RETRYMAX l.1 ≤ (s.chip.link l.1).resends →
    exec (.linkNak l) s = .next (s.withChip (s.chip.setFld F.lnklStat_STATE l.1 0 3))) ∧
  (∀ (s : State) (l : Fin 4),
    Live s → s.chip.domOn (60 + l.1) = true → 10000 ≤ sub64 s.chip.now (s.chip.link l.1).since → (s.chip.link l.1).replay ≠
      [] → s.chip.fld F.lnklStat_STATE l.1 = 2 → (s.chip.link l.1).resends < s.chip.fld F.lnklCtrl_RETRYMAX l.1 →
    exec (.ackTimeout l) s = .next (s.withChip (((s.chip.bump F.lnklRetrycnt_COUNT F.lnklRetrycnt_SAT l.1 0 (s.chip.link
      l.1).replay.length).linkStick F.lnklStat_RETRY l.1).updLink l.1 fun x =>
      { x with resends := x.resends + 1, since := s.chip.now }))) ∧
  (∀ (s : State) (l : Fin 4),
    Live s → s.chip.domOn (60 + l.1) = true → sub64 s.chip.now (s.chip.link l.1).since < 10000 →
    exec (.ackTimeout l) s = .next (s.withChip (s.chip))) ∧
  (∀ (s : State) (l vl : Fin 4) (n : BitVec 16),
    Live s → s.chip.domOn (60 + l.1) = true →
    exec (.linkCredit l vl n) s = .next (s.withChip ((s.chip.updLink l.1 fun x =>
      { x with spent := NStore.put0 x.spent vl.1 (NStore.get 0 x.spent vl.1 - n.toNat) }).linkPump l.1)))

/-- A failed training counts, the third in a row takes the link DOWN; a good retraining is UP again with RETRAINED; a good
first one with the expected peer is UP with PEER. LANE_SPARE of a lane not in use or without SPARE_EN changes nothing, else
the first free lane takes its place with SPARED and what is held is resent. ROUTE_NOTICE of a package outside the canvas or
an edge already down changes nothing; a new one fails its edge, and where it moves routes sets REROUTE, holds the requests
to the packages moved and sets the parent, which where it stays is all. A request unanswered for 1 ms ends with LINK. A
broadcast outside a formed canvas with BCSELF 0 is answered OKAY, with 1 goes to this package; in one with BCSELF 0 it goes
to all others. An exchange of TALIGN packets sends one, and with no tick moved sets DELAY at the root, and at a member also
records its offset below eight. TICK_ADJUST of a formed member moves one tick forward or withholds one where the mean is
beyond one tick, else nothing (log entries 30 and 31). LATE_JOIN of a member not FORMED loads a count not behind its own, or
sets AHEAD; else nothing. (rests on spec/14_lintel_canvas.md) -/
def Obligations.LinkUpkeep : Prop :=
  (∀ (s : State) (l : Fin 4) (good : Bool) (peer : BitVec 10),
    Live s → s.chip.domOn (60 + l.1) = true → s.chip.fld F.lnklStat_STATE l.1 = 1 ∨ s.chip.fld F.lnklStat_STATE l.1 = 3 →
      good = false → (s.chip.link l.1).fails + 1 < 3 →
    exec (.retrain l good peer) s = .next (s.withChip (s.chip.updLink l.1 fun x => { x with fails := x.fails + 1 }))) ∧
  (∀ (s : State) (l : Fin 4) (good : Bool) (peer : BitVec 10),
    Live s → s.chip.domOn (60 + l.1) = true → s.chip.fld F.lnklStat_STATE l.1 = 1 ∨ s.chip.fld F.lnklStat_STATE l.1 = 3 →
      good = false → 3 ≤ (s.chip.link l.1).fails + 1 →
    exec (.retrain l good peer) s = .next (s.withChip (((s.chip.updLink l.1 fun x =>
      { x with fails := x.fails + 1 }).updLink l.1 fun x => { x with fails := 0 }).linkDown l.1))) ∧
  (∀ (s : State) (l : Fin 4) (good : Bool) (peer : BitVec 10),
    Live s → s.chip.domOn (60 + l.1) = true → s.chip.fld F.lnklStat_STATE l.1 = 3 → good = true →
    exec (.retrain l good peer) s = .next (s.withChip ((((((s.chip.setFld F.lnklStat_WIDTH l.1 0 (s.chip.fld
      F.lnklStat_WIDTH l.1)).setFld F.lnklStat_LANES l.1 0 (s.chip.fld F.lnklStat_LANES l.1)).updLink l.1 fun x =>
      { x with fails := 0, resends := 0, spent := [], since := s.chip.now }).setFld F.lnklStat_STATE l.1 0 2).linkStick
      F.lnklStat_RETRAINED l.1).linkPump l.1))) ∧
  (∀ (s : State) (l : Fin 4) (good : Bool) (peer : BitVec 10) (t : Chip),
    Live s → s.chip.domOn (60 + l.1) = true → s.chip.fld F.lnklStat_STATE l.1 = 1 → good = true → peer.toNat = s.chip.peerOf
      s.chip.chipNo l.1 → ((((s.chip.setFld F.lnklStat_WIDTH l.1 0 (s.chip.lanesUp l.1).length).setFld F.lnklStat_LANES l.1
      0 ((s.chip.lanesUp l.1).foldl (fun m j => m + 2 ^ s.chip.laneOf l.1 j) 0)).updLink l.1 fun x =>
      { x with fails := 0, resends := 0, spent := [], since := s.chip.now }).setFld F.lnklPeer_VALID l.1 0 1).setFld
      F.lnklPeer_CHIP l.1 0 peer.toNat = t →
    exec (.retrain l good peer) s = .next (s.withChip ((t.setFld F.lnklStat_STATE l.1 0 2).linkPump l.1))) ∧
  (∀ (s : State) (l : Fin 4) (p : Fin 5),
    Live s → s.chip.domOn (60 + l.1) = true → s.chip.fld F.lnklStat_STATE l.1 ≠ 2 ∨ bit (s.chip.fld F.lnklStat_LANES l.1)
      p.1 = false ∨ s.chip.on F.lnklCtrl_SPARE_EN l.1 = false →
    exec (.laneSpare l p) s = .next (s.withChip (s.chip))) ∧
  (∀ (s : State) (l : Fin 4) (p : Fin 5) (j q : Nat) (js qs : List Nat) (u t : Chip),
    Live s → s.chip.domOn (60 + l.1) = true → s.chip.fld F.lnklStat_STATE l.1 = 2 → bit (s.chip.fld F.lnklStat_LANES l.1)
      p.1 = true → s.chip.on F.lnklCtrl_SPARE_EN l.1 = true → ((List.range 4).filter fun j => s.chip.laneOf l.1 j == p.1) =
      j :: js → ((List.range 5).filter fun q => !((s.chip.updLink l.1 fun x => { x with bad := x.bad ++ [p.1] }).link
      l.1).bad.contains q && (List.range 4).all fun j => s.chip.laneOf l.1 j != q) = q :: qs → s.chip.updLink l.1 (fun x =>
      { x with bad := x.bad ++ [p.1] }) = u →
      { u with phys := NStore.set u.phys (6 * 4096 + 4 * l.1 + j) (5 * l.1 + q), unusable := u.unusable ++ [6 * 4096 + 5 * l.1 + p.1] }
      = t →
    exec (.laneSpare l p) s = .next (s.withChip (((t.setFld F.lnklStat_LANES l.1 0 (t.laneMask l.1 (s.chip.fld
      F.lnklStat_WIDTH l.1))).linkStick F.lnklStat_SPARED l.1).resend l.1))) ∧
  (∀ (s : State) (chip : BitVec 10) (l : Fin 4),
    Live s → s.chip.inCanvas chip.toNat = false ∨ s.chip.net.downs.contains (s.chip.edgeOf chip.toNat l.1) = true →
    exec (.routeNotice chip l) s = .next (s.withChip (s.chip))) ∧
  (∀ (s : State) (chip : BitVec 10) (l : Fin 4) (t : Chip),
    Live s → s.chip.inCanvas chip.toNat = true → s.chip.net.downs.contains (s.chip.edgeOf chip.toNat l.1) = false →
      s.chip.updNet (fun n => { n with downs := n.downs ++ [s.chip.edgeOf chip.toNat l.1] }) = t → (List.range (s.chip.lnkW
      * s.chip.lnkH)).all (fun d => s.chip.pathOf d == t.pathOf d) = true →
    exec (.routeNotice chip l) s = .next (s.withChip (t))) ∧
  (∀ (s : State) (chip : BitVec 10) (l : Fin 4) (t u : Chip) (d : Nat) (ds : List Nat),
    Live s → s.chip.inCanvas chip.toNat = true → s.chip.net.downs.contains (s.chip.edgeOf chip.toNat l.1) = false →
      s.chip.updNet (fun n => { n with downs := n.downs ++ [s.chip.edgeOf chip.toNat l.1] }) = t → ((List.range (s.chip.lnkW
      * s.chip.lnkH)).filter fun d => s.chip.pathOf d != t.pathOf d) = d :: ds → ((t.updNet fun n =>
      { n with moved := (n.moved ++ (d :: ds).filter fun d => n.reqs.any fun r => r.dst == d).eraseDups }).netStick
      F.lnkStat_REROUTE).setParent = u → u.fld F.lnkParent_CHIP = s.chip.fld F.lnkParent_CHIP → u.fld F.lnkParent_LINK =
      s.chip.fld F.lnkParent_LINK → u.fld F.lnkParent_VALID = s.chip.fld F.lnkParent_VALID →
    exec (.routeNotice chip l) s = .next (s.withChip (u))) ∧
  (∀ (s : State) (tag : BitVec 16) (r : Req),
    Live s → (s.chip.net.reqs.find? fun r => r.tag == tag.toNat) = some r → 1000000 ≤ sub64 s.chip.now r.at_ →
    exec (.responseTimeout tag) s = .next (s.withChip (((s.chip.updNet fun n =>
      { n with reqs := n.reqs.filter fun q => q.tag != tag.toNat }).respond r.acc .link 0).netRelease))) ∧
  (∀ (s : State) (tag : BitVec 16),
    Live s → (s.chip.net.reqs.find? fun r => r.tag == tag.toNat) = none →
    exec (.responseTimeout tag) s = .next (s.withChip (s.chip))) ∧
  (∀ (s : State) (m : Master) (a : BitVec 30) (n : Fin 5) (v : BitVec 128),
    Live s → Free s.chip (given m true (s.chip.fld F.lnkBcast_BCCHIP * 2 ^ 30 + a.toNat) (2 ^ n.1) v.toNat false) →
      s.chip.on F.lnkBcast_BCEN = true → s.chip.fld F.lnkBcast_BCCHIP ≠ s.chip.chipNo → (s.chip.inCanvas s.chip.chipNo &&
      s.chip.net.filled) = false → s.chip.on F.lnkBcast_BCSELF = false →
    exec (.broadcast m a n v) s = .next (s.withChip (s.chip.respond (given m true (s.chip.fld F.lnkBcast_BCCHIP * 2 ^ 30 +
      a.toNat) (2 ^ n.1) v.toNat false) .okay 0))) ∧
  (∀ (s : State) (m : Master) (a : BitVec 30) (n : Fin 5) (v : BitVec 128) (x : Access),
    Live s → Free s.chip (given m true (s.chip.fld F.lnkBcast_BCCHIP * 2 ^ 30 + a.toNat) (2 ^ n.1) v.toNat false) →
      s.chip.on F.lnkBcast_BCEN = true → s.chip.fld F.lnkBcast_BCCHIP ≠ s.chip.chipNo → (s.chip.inCanvas s.chip.chipNo &&
      s.chip.net.filled) = false → s.chip.on F.lnkBcast_BCSELF = true → given m true (s.chip.fld F.lnkBcast_BCCHIP * 2 ^ 30
      + a.toNat) (2 ^ n.1) v.toNat false = x →
    exec (.broadcast m a n v) s = .next (s.withChip
      ({ s.chip.newReq x (s.chip.fld F.lnkBcast_BCCHIP) 1 with issueQ := s.chip.issueQ ++ [{ x with owner := .bcast s.chip.net.nextTag, addr := s.chip.chipNo * 2 ^ 30 + a.toNat }] }))) ∧
  (∀ (s : State) (m : Master) (a : BitVec 30) (n : Fin 5) (v : BitVec 128) (x : Access),
    Live s → Free s.chip (given m true (s.chip.fld F.lnkBcast_BCCHIP * 2 ^ 30 + a.toNat) (2 ^ n.1) v.toNat false) →
      s.chip.on F.lnkBcast_BCEN = true → s.chip.fld F.lnkBcast_BCCHIP ≠ s.chip.chipNo → s.chip.inCanvas s.chip.chipNo = true
      → s.chip.net.filled = true → 1 < s.chip.lnkW * s.chip.lnkH → s.chip.on F.lnkBcast_BCSELF = false → given m true
      (s.chip.fld F.lnkBcast_BCCHIP * 2 ^ 30 + a.toNat) (2 ^ n.1) v.toNat false = x →
    exec (.broadcast m a n v) s = .next (s.withChip ((s.chip.bcastLinks s.chip.chipNo 4).foldl (fun t l => t.linkPush l
      (s.chip.reqPacket x 4 s.chip.net.nextTag (s.chip.fld F.lnkBcast_BCCHIP) l)) (s.chip.newReq x (s.chip.fld
      F.lnkBcast_BCCHIP) (s.chip.lnkW * s.chip.lnkH - 1))))) ∧
  (∀ (s : State) (l : Fin 4) (t1 t2 t3 t4 : BitVec 64) (adj up : Bool),
    Live s → s.chip.domOn (60 + l.1) = true → s.chip.fld F.lnkCfg_ROLE = 0 ∨ s.chip.fld F.lnklStat_STATE l.1 ≠ 2 →
    exec (.talign l t1 t2 t3 t4 adj up) s = .next (s.withChip (s.chip))) ∧
  (∀ (s : State) (l : Fin 4) (t1 t2 t3 t4 : BitVec 64) (adj up : Bool),
    Live s → s.chip.domOn (60 + l.1) = true → adj = true → s.chip.fld F.lnkCfg_ROLE ≠ 0 → s.chip.fld F.lnklStat_STATE l.1 =
      2 →
    exec (.talign l t1 t2 t3 t4 adj up) s = .next (s.withChip (s.chip.talignSend l.1))) ∧
  (∀ (s : State) (l : Fin 4) (t1 t2 t3 t4 : BitVec 64) (adj up : Bool) (t : Chip),
    Live s → s.chip.domOn (60 + l.1) = true → adj = false → s.chip.fld F.lnkCfg_ROLE ≠ 0 → s.chip.fld F.lnklStat_STATE l.1 =
      2 → s.chip.talignSend l.1 = t → t.fld F.lnkCfg_ROLE = 2 →
    exec (.talign l t1 t2 t3 t4 adj up) s = .next (s.withChip (t.setFld F.lnklDelay_DELAY l.1 0 (tc 32 ((diff64 t4.toNat
      t1.toNat - diff64 t3.toNat t2.toNat) / 2))))) ∧
  (∀ (s : State) (l : Fin 4) (t1 t2 t3 t4 : BitVec 64) (adj up : Bool) (t : Chip),
    Live s → s.chip.domOn (60 + l.1) = true → adj = false → s.chip.fld F.lnkCfg_ROLE ≠ 0 → s.chip.fld F.lnklStat_STATE l.1 =
      2 → s.chip.talignSend l.1 = t → t.fld F.lnkCfg_ROLE = 1 → t.on F.lnkParent_VALID = true → t.fld F.lnkParent_LINK = l.1
      → t.net.thetas.length < 7 →
    exec (.talign l t1 t2 t3 t4 adj up) s = .next (s.withChip ((t.setFld F.lnklDelay_DELAY l.1 0 (tc 32 ((diff64 t4.toNat
      t1.toNat - diff64 t3.toNat t2.toNat) / 2))).updNet fun n =>
      { n with thetas := (diff64 t2.toNat t1.toNat - diff64 t4.toNat t3.toNat - sx 32 (t.fld F.lnklAsym_ASYM l.1)) :: n.thetas }))) ∧
  (∀ (s : State) (n : Int),
    Live s → s.chip.fld F.lnkCfg_ROLE = 1 → s.chip.on F.lnkStat_FORMED = true → s.chip.net.adjAt = none → s.chip.net.sum =
      some n → 256 < n →
    exec (.tickAdjust) s = .next (s.withChip
      ({ s.chip.samplePads.updNet fun q => { q with adjAt := some s.chip.now } with skipped := some ((s.chip.now + 1) % 2 ^ 64) }.advance
      2))) ∧
  (∀ (s : State) (n : Int),
    Live s → s.chip.fld F.lnkCfg_ROLE = 1 → s.chip.on F.lnkStat_FORMED = true → s.chip.net.adjAt = none → s.chip.net.sum =
      some n → n < -256 →
    exec (.tickAdjust) s = .next (s.withChip (s.chip.samplePads.updNet fun q => { q with adjAt := some s.chip.now }))) ∧
  (∀ (s : State) (n : Int),
    Live s → s.chip.fld F.lnkCfg_ROLE = 1 → s.chip.on F.lnkStat_FORMED = true → s.chip.net.adjAt = none → s.chip.net.sum =
      some n → -256 ≤ n → n ≤ 256 → s.chip.net.ahead = false →
    exec (.tickAdjust) s = .next (s.withChip (s.chip))) ∧
  (∀ (s : State),
    Live s → s.chip.fld F.lnkCfg_ROLE ≠ 1 ∨ s.chip.on F.lnkStat_FORMED = false →
    exec (.tickAdjust) s = .next (s.withChip (s.chip))) ∧
  (∀ (s : State) (n : BitVec 64),
    Live s → s.chip.fld F.lnkCfg_ROLE = 1 → s.chip.on F.lnkStat_FORMED = false → reached n.toNat s.chip.now = true →
    exec (.lateJoin n) s = .next (s.withChip ({ s.chip.setFld F.lnkStat_FORMED 0 0 1 with tb := n }))) ∧
  (∀ (s : State) (n : BitVec 64),
    Live s → s.chip.fld F.lnkCfg_ROLE = 1 → s.chip.on F.lnkStat_FORMED = false → reached n.toNat s.chip.now = false →
    exec (.lateJoin n) s = .next (s.withChip (((s.chip.setFld F.lnkStat_FORMED 0 0 1).netStick F.lnkStat_AHEAD).updNet fun q
      => { q with ahead := true }))) ∧
  (∀ (s : State) (n : BitVec 64),
    Live s → s.chip.fld F.lnkCfg_ROLE ≠ 1 ∨ s.chip.on F.lnkStat_FORMED = true →
    exec (.lateJoin n) s = .next (s.withChip (s.chip)))

/-- An edge of source n, not 0 and not pending, and a write of such an n to INTC_SWSET, set its pending bit and evaluate the
assignment again; of source 0 or a pending one they change nothing. A read of CLAIM with a source assigned answers it with
the running priority above it, clears it, and takes its priority; with none it answers 0. CORE_WAKE_DONE of a waking sleeper
in S0 or S1 powers its domain and leaves it WAITING; of a core no longer asleep it powers the domain and ends the mark;
without the mark or deeper than S1 nothing. (rests on spec/00_scope.md, spec/10_anvil_system.md) -/
def Obligations.InterruptSources : Prop :=
  (∀ (s : State) (n : Fin 512),
    Live s → s.chip.domOn 49 = true → n.1 ≠ 0 → s.chip.pending n.1 = false →
    exec (.sourceEdge n) s = .next (s.withChip ((s.chip.setFld F.intcPend_PEND (n.1 / 32) 0 (s.chip.fld F.intcPend_PEND (n.1
      / 32) + 2 ^ (n.1 % 32))).settle))) ∧
  (∀ (s : State) (n : Fin 512),
    Live s → s.chip.domOn 49 = true → n.1 = 0 ∨ s.chip.pending n.1 = true →
    exec (.sourceEdge n) s = .next (s.withChip (s.chip))) ∧
  (∀ (s : State) (m : Master) (n : BitVec 9),
    Live s → Served s.chip m .intcSwset 0 0 true → n ≠ 0 → s.chip.pending n.toNat = false →
    exec (.swset m n) s = .next (s.withChip (((s.chip.setFld F.intcPend_PEND (n.toNat / 32) 0 (s.chip.fld F.intcPend_PEND
      (n.toNat / 32) + 2 ^ (n.toNat % 32))).settle).afterWrite s.chip m .intcSwset 0 0 n.toNat))) ∧
  (∀ (s : State) (m : Master) (n : BitVec 9),
    Live s → Served s.chip m .intcSwset 0 0 true → n = 0 ∨ s.chip.pending n.toNat = true →
    exec (.swset m n) s = .next (s.withChip ((s.chip).afterWrite s.chip m .intcSwset 0 0 n.toNat))) ∧
  (∀ (s : State) (m : Master) (k : Fin 8) (n : Nat),
    Live s → Served s.chip m .intcClaim k.1 0 false → s.chip.nextSource k.1 = n → n ≠ 0 →
    exec (.claim m k) s = .next (s.withChip (((((s.chip.clearSource n).setPri k.1 (s.chip.prio n)).setFld F.intcClaim_PREV
      k.1 0 0).setFld F.intcClaim_SRC k.1 0 0).afterRead s.chip m .intcClaim k.1 0 (n + s.chip.pri k.1 * 2 ^ 16)))) ∧
  (∀ (s : State) (m : Master) (k : Fin 8),
    Live s → Served s.chip m .intcClaim k.1 0 false → s.chip.nextSource k.1 = 0 →
    exec (.claim m k) s = .next (s.withChip (((s.chip.setFld F.intcClaim_PREV k.1 0 0).setFld F.intcClaim_SRC k.1 0
      0).afterRead s.chip m .intcClaim k.1 0 (0)))) ∧
  (∀ (s : State) (k : Fin 8),
    Live s → s.chip.coreState k.1 = 4 → (s.chip.core k.1).waking = true → s.chip.fld F.psmStat_STATE ≤ 1 →
    exec (.coreWakeDone k) s = .next (s.withChip (((s.chip.setDom (s.chip.physOf 0 k.1) true).enterWaiting k.1).leaveIdle))) ∧
  (∀ (s : State) (k : Fin 8),
    Live s → s.chip.coreState k.1 ≠ 4 → (s.chip.core k.1).waking = true → s.chip.fld F.psmStat_STATE ≤ 1 →
    exec (.coreWakeDone k) s = .next (s.withChip (((s.chip.setDom (s.chip.physOf 0 k.1) true).updCore k.1 fun x =>
      { x with waking := false }).leaveIdle))) ∧
  (∀ (s : State) (k : Fin 8),
    Live s → (s.chip.core k.1).waking = false ∨ 1 < s.chip.fld F.psmStat_STATE →
    exec (.coreWakeDone k) s = .next (s.withChip (s.chip)))

/-- With domain 50 on and no operation of a core waiting: a SEND allowed (not on the power controller's channel) puts its 16
words behind those of the channel with the present instant, rings the receiver's doorbell, and leaves level and code 0 in
MSTAT; one that finds the channel full sets FULL with code 1; one denied sets DENY with code 4. A RECV allowed moves the
oldest message to the receive words, clears TMO, code 0; one that finds none code 2; one denied DENY and code 4. A core's
waiting SEND or RECV is performed first. MBX_CHc_CFG (c from 128) is taken while the channel is empty and the receiver may
be named, else CFG_REJ. A message held beyond TIMEOUT sets TMO with event 341; with TIMEOUT 0 or no message nothing. The
order of refusals is the model's (log entry 12). (rests on spec/10_anvil_system.md) -/
def Obligations.Mailboxes : Prop :=
  (∀ (s : State) (id : BitVec 7) (ch : BitVec 9) (t : Chip),
    Live s → s.chip.domOn 50 = true → (if id.toNat < 8 then (s.chip.core id.toNat).msgs.head? else none) = none →
      s.chip.sendCode id.toNat ch.toNat = 0 → s.chip.tolChan ch.toNat = false → (s.chip.setMsgs ch.toNat (s.chip.msgs
      ch.toNat ++ [({ words := s.chip.txWords id.toNat, at_ := s.chip.now } : Msg)])).doorbell (s.chip.chRx ch.toNat) = t →
    exec (.mailboxSend id ch) s = .next (s.withChip (t.setMstat id.toNat false ch.toNat (t.msgs ch.toNat).length 0))) ∧
  (∀ (s : State) (id : BitVec 7) (ch : BitVec 9),
    Live s → s.chip.domOn 50 = true → (if id.toNat < 8 then (s.chip.core id.toNat).msgs.head? else none) = none →
      s.chip.sendCode id.toNat ch.toNat = 1 →
    exec (.mailboxSend id ch) s = .next (s.withChip ((s.chip.setFld F.mbxChStat_FULL ch.toNat 0 1).setMstat id.toNat false
      ch.toNat (s.chip.msgs ch.toNat).length 1))) ∧
  (∀ (s : State) (id : BitVec 7) (ch : BitVec 9),
    Live s → s.chip.domOn 50 = true → (if id.toNat < 8 then (s.chip.core id.toNat).msgs.head? else none) = none →
      s.chip.sendCode id.toNat ch.toNat = 4 →
    exec (.mailboxSend id ch) s = .next (s.withChip ((s.chip.deny ch.toNat).setMstat id.toNat false ch.toNat 0 4))) ∧
  (∀ (s : State) (id : BitVec 7) (ch : BitVec 9) (q : Msg) (rest : List Msg) (t : Chip),
    Live s → s.chip.domOn 50 = true → (if id.toNat < 8 then (s.chip.core id.toNat).msgs.head? else none) = none →
      s.chip.recvCode id.toNat ch.toNat = 0 → s.chip.msgs ch.toNat = q :: rest → ((s.chip.setRx id.toNat q.words).setMsgs
      ch.toNat rest).setFld F.mbxChStat_TMO ch.toNat 0 0 = t →
    exec (.mailboxRecv id ch) s = .next (s.withChip (t.setMstat id.toNat true ch.toNat (t.msgs ch.toNat).length 0))) ∧
  (∀ (s : State) (id : BitVec 7) (ch : BitVec 9),
    Live s → s.chip.domOn 50 = true → (if id.toNat < 8 then (s.chip.core id.toNat).msgs.head? else none) = none →
      s.chip.recvCode id.toNat ch.toNat = 2 →
    exec (.mailboxRecv id ch) s = .next (s.withChip (s.chip.setMstat id.toNat true ch.toNat (s.chip.msgs ch.toNat).length
      2))) ∧
  (∀ (s : State) (id : BitVec 7) (ch : BitVec 9),
    Live s → s.chip.domOn 50 = true → (if id.toNat < 8 then (s.chip.core id.toNat).msgs.head? else none) = none →
      s.chip.recvCode id.toNat ch.toNat = 4 →
    exec (.mailboxRecv id ch) s = .next (s.withChip ((s.chip.deny ch.toNat).setMstat id.toNat true ch.toNat 0 4))) ∧
  (∀ (s : State) (id : BitVec 7) (ch : BitVec 9) (o : MsgOp),
    Live s → s.chip.domOn 50 = true → id.toNat < 8 → (s.chip.core id.toNat).msgs.head? = some o → o.recv = false →
    exec (.mailboxSend id ch) s = .next (s.withChip ((s.chip.updCore id.toNat fun x =>
      { x with msgs := x.msgs.drop 1 }).sendStep id.toNat o.chan o.tx))) ∧
  (∀ (s : State) (id : BitVec 7) (ch : BitVec 9) (o : MsgOp),
    Live s → s.chip.domOn 50 = true → id.toNat < 8 → (s.chip.core id.toNat).msgs.head? = some o → o.recv = true →
    exec (.mailboxRecv id ch) s = .next (s.withChip ((s.chip.updCore id.toNat fun x =>
      { x with msgs := x.msgs.drop 1 }).recvStep id.toNat o.chan))) ∧
  (∀ (s : State) (m : Master) (ch : Fin 256) (v : BitVec 32),
    Live s → Served s.chip m .mbxChCfg ch.1 0 true → s.chip.msgs ch.1 = [] → rxidOk (bits v.toNat 23 16) = true → 128 ≤ ch.1
      →
    exec (.channelCfgWrite m ch v) s = .next (s.withChip ((s.chip.setWord .mbxChCfg ch.1 0 v.toNat).afterWrite s.chip m
      .mbxChCfg ch.1 0 v.toNat))) ∧
  (∀ (s : State) (m : Master) (ch : Fin 256) (v : BitVec 32),
    Live s → Served s.chip m .mbxChCfg ch.1 0 true → s.chip.msgs ch.1 ≠ [] ∨ rxidOk (bits v.toNat 23 16) = false →
    exec (.channelCfgWrite m ch v) s = .next (s.withChip ((s.chip.setFld F.mbxChStat_CFG_REJ ch.1 0 1).afterWrite s.chip m
      .mbxChCfg ch.1 0 v.toNat))) ∧
  (∀ (s : State) (ch : Fin 288) (q : Msg) (rest : List Msg),
    Live s → s.chip.msgs ch.1 = q :: rest → s.chip.chTimeout ch.1 ≠ 0 → s.chip.chTimeout ch.1 * 1000 < sub64 s.chip.now
      q.at_ →
    exec (.channelTimeout ch) s = .next (s.withChip (s.chip.stick F.mbxChStat_TMO ch.1 341))) ∧
  (∀ (s : State) (ch : Fin 288),
    Live s → s.chip.chTimeout ch.1 = 0 ∨ s.chip.msgs ch.1 = [] →
    exec (.channelTimeout ch) s = .next (s.withChip (s.chip)))

/-- A write of PIN_CFG of a locked port sets its LOCKREJ bit only; of another, with an offered new FUNC, it takes the fields
that the port has and FUNC. PIN_SET, PIN_CLR and PIN_TGL set, clear and invert DATA bits. The keys 0xB1C5, 0x4E3A, 0xB1C5
for one port by one master begin, continue and end a sequence that locks it; a wrong second key sets LOCK_SEQERR. PIN_PARK
sets PARKED, under which every pad takes its park state; UNPARK clears it. A bank's supply that is VSEL's sets VIO_OK,
another clears it with VIO_ERR. A held edge of a WAKE port in S2 is a wake; without WAKE nothing. PIN_EDGE of a port without
a detector sets or lets go the level from outside; with detector k it raises 344 + k once in a tick for a filtered edge of
that port, PORT of k, to the level named, where EDGE selects it; without EN, with another PORT or without an edge nothing
(log entry 85). (rests on spec/13_pins_sequencers.md) -/
def Obligations.PinLatchesAndLocks : Prop :=
  (∀ (s : State) (m : Master) (p : Fin 1024) (v : BitVec 32),
    Live s → Served s.chip m .pinCfg p.1 0 true → s.chip.locked p.1 = true →
    exec (.funcChange m p v) s = .next (s.withChip ((s.chip.stickBit F.pinLockrej_REJ (p.1 / 32) (p.1 % 32) 375).afterWrite
      s.chip m .pinCfg p.1 0 v.toNat))) ∧
  (∀ (s : State) (m : Master) (p : Fin 1024) (v : BitVec 32) (t u x : Chip),
    Live s → Served s.chip m .pinCfg p.1 0 true → s.chip.locked p.1 = false → funcOffered p.1 (bits v.toNat 3 0) = true →
      [F.pinCfg_PARK, F.pinCfg_DRIVE, F.pinCfg_SLOW, F.pinCfg_OD, F.pinCfg_PULL].foldl (fun t f => t.writeFld f p.1 0
      v.toNat) s.chip = t → (if p.1 < 64 then (t.writeFld F.pinCfg_WAKE p.1 0 v.toNat).writeFld F.pinCfg_WAKEPOL p.1 0
      v.toNat else t.writeFld F.pinCfg_WAKEPOL p.1 0 v.toNat) = u → (if p.1 < 256 then u.writeFld F.pinCfg_TTL p.1 0 v.toNat
      else u) = x → s.chip.fld F.pinCfg_FUNC p.1 ≠ bits v.toNat 3 0 →
    exec (.funcChange m p v) s = .next (s.withChip (((x.adcNoteFunc p.1 (s.chip.fld F.pinCfg_FUNC p.1)).writeFld
      F.pinCfg_FUNC p.1 0 v.toNat).afterWrite s.chip m .pinCfg p.1 0 v.toNat))) ∧
  (∀ (s : Chip) (p old : Nat),
    s.on F.adcStat_BUSY = false →
    s.adcNoteFunc p old = s) ∧
  (∀ (s : State) (m : Master) (b : Fin 32) (v : BitVec 32),
    Live s → Served s.chip m .pinSet b.1 0 true →
    exec (.pinSet m b v) s = .next (s.withChip ((s.chip.setFld F.pinData_DATA b.1 0 (Nat.lor (s.chip.fld F.pinData_DATA b.1)
      v.toNat)).afterWrite s.chip m .pinSet b.1 0 v.toNat))) ∧
  (∀ (s : State) (m : Master) (b : Fin 32) (v : BitVec 32),
    Live s → Served s.chip m .pinClr b.1 0 true →
    exec (.pinClr m b v) s = .next (s.withChip ((s.chip.setFld F.pinData_DATA b.1 0 (s.chip.fld F.pinData_DATA b.1 -
      Nat.land (s.chip.fld F.pinData_DATA b.1) v.toNat)).afterWrite s.chip m .pinClr b.1 0 v.toNat))) ∧
  (∀ (s : State) (m : Master) (b : Fin 32) (v : BitVec 32),
    Live s → Served s.chip m .pinTgl b.1 0 true →
    exec (.pinTgl m b v) s = .next (s.withChip ((s.chip.setFld F.pinData_DATA b.1 0 (Nat.xor (s.chip.fld F.pinData_DATA b.1)
      v.toNat)).afterWrite s.chip m .pinTgl b.1 0 v.toNat))) ∧
  (∀ (s : State) (m : Master) (v : BitVec 32),
    Live s → Served s.chip m .pinLockkey 0 0 true → s.chip.lockSeq = none → bits v.toNat 31 16 = 0xB1C5 →
    exec (.lockKey m v) s = .next (s.withChip (({ s.chip with lockSeq := some ⟨bits v.toNat 9 0, m, 1⟩ }).afterWrite s.chip
      m .pinLockkey 0 0 v.toNat))) ∧
  (∀ (s : State) (m : Master) (v : BitVec 32) (q : LockSeq),
    Live s → Served s.chip m .pinLockkey 0 0 true → s.chip.lockSeq = some q → q.step = 1 → q.mst.same m = true → q.port =
      bits v.toNat 9 0 → bits v.toNat 31 16 = 0x4E3A →
    exec (.lockKey m v) s = .next (s.withChip (({ s.chip with lockSeq := some { q with step := 2 } }).afterWrite s.chip m
      .pinLockkey 0 0 v.toNat))) ∧
  (∀ (s : State) (m : Master) (v : BitVec 32) (q : LockSeq),
    Live s → Served s.chip m .pinLockkey 0 0 true → s.chip.lockSeq = some q → q.step = 2 → q.mst.same m = true → q.port =
      bits v.toNat 9 0 → bits v.toNat 31 16 = 0xB1C5 → s.chip.locked (bits v.toNat 9 0) = false →
    exec (.lockKey m v) s = .next (s.withChip
      (({ (s.chip.setFld F.pinLocked_LOCKED (bits v.toNat 9 0 / 32) 0 (s.chip.fld F.pinLocked_LOCKED (bits v.toNat 9 0 / 32) + 2 ^ (bits v.toNat 9 0 % 32))) with lockSeq := none }).afterWrite
      s.chip m .pinLockkey 0 0 v.toNat))) ∧
  (∀ (s : State) (m : Master) (v : BitVec 32) (q : LockSeq),
    Live s → Served s.chip m .pinLockkey 0 0 true → s.chip.lockSeq = some q → q.step = 1 → bits v.toNat 31 16 ≠ 0x4E3A →
      bits v.toNat 31 16 ≠ 0xB1C5 →
    exec (.lockKey m v) s = .next (s.withChip
      (({ s.chip.stick F.pinStat_LOCK_SEQERR 0 375 with lockSeq := none }).afterWrite s.chip m .pinLockkey 0 0 v.toNat))) ∧
  (∀ (s : State) (m : Master),
    Live s → Served s.chip m .sysPark 0 0 true →
    exec (.pinPark m) s = .next (s.withChip ((s.chip.setFld F.pinStat_PARKED 0 0 1).afterWrite s.chip m .sysPark 0 0 1))) ∧
  (∀ (s : State) (m : Master),
    Live s → Served s.chip m .pinUnpark 0 0 true →
    exec (.unpark m) s = .next (s.withChip ((s.chip.setFld F.pinStat_PARKED 0 0 0).afterWrite s.chip m .pinUnpark 0 0 1))) ∧
  (∀ (s : State) (p : Fin 1024),
    s.chip.on F.pinStat_PARKED = true →
    s.chip.padDrive p.1 = s.chip.parkDrive p.1) ∧
  (∀ (s : State) (b : Fin 32) (v : Fin 3),
    s.chip.domOn (51 + b.1 / 8) = true → s.chip.fld F.pinBank_VSEL b.1 + 1 = v.1 →
    exec (.vioChange b v) s = .next (s.withChip ({ s.chip with vio := NStore.set s.chip.vio b.1 v.1 }.setFld
      F.pinBank_VIO_OK b.1 0 1))) ∧
  (∀ (s : State) (b : Fin 32) (v : Fin 3),
    s.chip.domOn (51 + b.1 / 8) = true → s.chip.fld F.pinBank_VSEL b.1 + 1 ≠ v.1 →
    exec (.vioChange b v) s = .next (s.withChip (({ s.chip with vio := NStore.set s.chip.vio b.1 v.1 }.setFld
      F.pinBank_VIO_OK b.1 0 0).stick F.pinBank_VIO_ERR b.1 375))) ∧
  (∀ (s : State) (p : Fin 1024) (rising : Bool),
    Live s → s.chip.on F.pinCfg_WAKE p.1 = true → s.chip.on F.pinCfg_WAKEPOL p.1 = rising → s.chip.heldEdge p.1 rising =
      true → s.chip.fld F.psmStat_STATE = 2 →
    exec (.wakeEdge p rising) s = .next (s.withChip ({ s.chip with wakes := s.chip.wakes ++ [(0, p.1, s.chip.tb.toNat)] }))) ∧
  (∀ (s : State) (p : Fin 1024) (rising : Bool),
    Live s → s.chip.on F.pinCfg_WAKE p.1 = false →
    exec (.wakeEdge p rising) s = .next (s.withChip (s.chip))) ∧
  (∀ (s : State) (p : Fin 1024) (v : Bool),
    exec (.pinEdge p (some v) none) s = .next (s.withChip { s.chip with pads := NStore.set s.chip.pads p.1 v })) ∧
  (∀ (s : State) (p : Fin 1024),
    exec (.pinEdge p none none) s = .next (s.withChip { s.chip with pads := NStore.del s.chip.pads p.1 })) ∧
  (∀ (s : State) (k : Fin 16) (p : Fin 1024) (e : Nat × Bool),
    s.chip.fld F.pinEv_PORT k.1 = p.1 → s.chip.on F.pinEv_EN k.1 = true → s.chip.domOn (51 + p.1 / 32 / 8) = true →
      Store.get? k.1 s.chip.evkAt ≠ some s.chip.now → s.chip.edgeAt p.1 (s.chip.fld F.pinEv_FILT k.1) = some e → edgeIs
      (s.chip.fld F.pinEv_EDGE k.1) e.2 = true →
    exec (.pinEdge p (some e.2) (some k)) s = .next (s.withChip
      { s.chip.raise (344 + k.1) with evkAt := NStore.set s.chip.evkAt k.1 s.chip.now })) ∧
  (∀ (s : State) (p : Fin 1024) (v : Option Bool) (k : Fin 16),
    s.chip.on F.pinEv_EN k.1 = false ∨ s.chip.fld F.pinEv_PORT k.1 ≠ p.1 ∨ s.chip.edgeAt p.1 (s.chip.fld F.pinEv_FILT k.1) =
      none →
    exec (.pinEdge p v (some k)) s = .next s)

/-- A write to DATA adds a word to a TX FIFO of fewer than 8, else sets TXOVR; a read answers and removes the oldest RX
word. A UART that is on, idle and not held by CTS begins the frame of its oldest word (start, 8 data bits LSB first, stop
without parity and STOP2), one held by CTS nothing; a good 8-bit character received with room enters RX; a UART off takes
none. An SPI master shifts its oldest word out and one in with CS low; a target likewise, and with no word sends ones with
UNDER; the order is LSBF's. An I2C master with its oldest word: acknowledged, it sends START, byte and STOP as asked;
refused, NACK and the FIFO emptied; a read takes the byte and sends its answer bit; lost arbitration sets ARB and empties
it. A target is selected by ADDR alone, takes written bytes with the first marked, gives its words or 0xFF with UNDER, and
is deselected by a stop. The frame's timing and byte order on the wire where R423 gives none are the model's (log entries 83
and 84). (rests on spec/13_pins_sequencers.md) -/
def Obligations.SerialPeripherals : Prop :=
  (∀ (s : State) (m : Master) (x : Fin 32) (v : BitVec 32),
    Live s → Served s.chip m (serialDataReg x.1).1 (serialDataReg x.1).2 0 true → (s.chip.serial x.1).tx.length < 8 →
    exec (.serialPush m x v) s = .next (s.withChip ((s.chip.updSerial x.1 fun e =>
      { e with tx := e.tx ++ [v.toNat], cs := e.cs && (!e.tx.isEmpty || s.chip.frameOn x.1) }).afterWrite s.chip m
      (serialDataReg x.1).1 (serialDataReg x.1).2 0 v.toNat))) ∧
  (∀ (s : State) (m : Master) (x : Fin 32) (v : BitVec 32),
    Live s → Served s.chip m (serialDataReg x.1).1 (serialDataReg x.1).2 0 true → 8 ≤ (s.chip.serial x.1).tx.length →
    exec (.serialPush m x v) s = .next (s.withChip ((s.chip.setFld (serialF F.uartStat_TXOVR F.spiStat_TXOVR F.i2cStat_TXOVR
      x.1).1 (serialF F.uartStat_TXOVR F.spiStat_TXOVR F.i2cStat_TXOVR x.1).2 0 1).afterWrite s.chip m (serialDataReg x.1).1
      (serialDataReg x.1).2 0 v.toNat))) ∧
  (∀ (s : State) (m : Master) (x : Fin 32),
    Live s → Served s.chip m (serialDataReg x.1).1 (serialDataReg x.1).2 0 false →
    exec (.serialPop m x) s = .next (s.withChip ((s.chip.updSerial x.1 fun e => { e with rx := e.rx.drop 1 }).afterRead
      s.chip m (serialDataReg x.1).1 (serialDataReg x.1).2 0 ((s.chip.serial x.1).rx.headD 0)))) ∧
  (∀ (s : State) (u : Fin 16) (w : Nat) (rest : List Nat) (l : List WireSym),
    Live s → s.chip.domOn 59 = true → s.chip.on F.uartCfg_EN u.1 = true → (s.chip.serial u.1).tx = w :: rest →
      s.chip.frameOn u.1 = false → s.chip.on F.uartCfg_RTSCTS u.1 = false → s.chip.uartBits u.1 w = l →
    exec (.uartFrame u none) s = .next (s.withChip ((s.chip.updSerial u.1 fun e =>
      { e with tx := rest, wire := l, at_ := s.chip.now, len := l.length * s.chip.fld F.uartDiv_DIV u.1 }).dmaLevels))) ∧
  (∀ (s : Chip) (u c : Nat),
    s.on F.uartCfg_D7 u = false → s.fld F.uartCfg_PARITY u = 0 → s.on F.uartCfg_STOP2 u = false →
    s.uartBits u c = [.bit false] ++ bitsUp c 8 ++ [.bit true]) ∧
  (∀ (s : State) (u : Fin 16) (t : Chip),
    Live s → s.chip.domOn 59 = true → s.chip.on F.uartCfg_EN u.1 = true → (s.chip.serial u.1).tx ≠ [] → s.chip.frameOn u.1 =
      false → s.chip.on F.uartCfg_RTSCTS u.1 = true → s.chip.pinLevel (768 + 4 * u.1 + 3) = (true, t) →
    exec (.uartFrame u none) s = .next (s.withChip (t.dmaLevels))) ∧
  (∀ (s : State) (u : Fin 16) (b : BitVec 8),
    Live s → s.chip.domOn 59 = true → s.chip.on F.uartCfg_EN u.1 = true → s.chip.on F.uartCfg_D7 u.1 = false →
      (s.chip.serial u.1).rx.length < 8 →
    exec (.uartFrame u (some (b, true))) s = .next (s.withChip ((s.chip.updSerial u.1 fun e =>
      { e with rx := e.rx ++ [b.toNat] }).dmaLevels))) ∧
  (∀ (s : State) (u : Fin 16) (b : BitVec 8),
    Live s → s.chip.domOn 59 = true → s.chip.on F.uartCfg_EN u.1 = false →
    exec (.uartFrame u (some (b, false))) s = .next (s.withChip (s.chip.dmaLevels))) ∧
  (∀ (s : State) (q : Fin 8) (w : BitVec 32) (o n : Nat) (rest : List Nat),
    Live s → s.chip.domOn 59 = true → s.chip.on F.spiCfg_EN q.1 = true → s.chip.on F.spiCfg_TARGET q.1 = false →
      s.chip.frameOn (16 + q.1) = false → 8 * 2 ^ s.chip.fld F.spiCfg_WIDTH q.1 = n → (s.chip.serial (16 + q.1)).tx = o ::
      rest →
    exec (.spiFrame q w) s = .next (s.withChip (((s.chip.updSerial (16 + q.1) fun e =>
      { e with tx := rest, wire := s.chip.spiBits q.1 o, at_ := s.chip.now, len := 512 * n * s.chip.fld F.spiDiv_HALF q.1, cs := true }).serialRecv
      (16 + q.1) (w.toNat % 2 ^ n)).dmaLevels))) ∧
  (∀ (s : State) (q : Fin 8) (w : BitVec 32) (o n : Nat) (rest : List Nat),
    Live s → s.chip.domOn 59 = true → s.chip.on F.spiCfg_EN q.1 = true → s.chip.on F.spiCfg_TARGET q.1 = true → 8 * 2 ^
      s.chip.fld F.spiCfg_WIDTH q.1 = n → (s.chip.serial (16 + q.1)).tx = o :: rest →
    exec (.spiFrame q w) s = .next (s.withChip (((s.chip.updSerial (16 + q.1) fun e =>
      { e with tx := rest, wire := s.chip.spiBits q.1 o }).serialRecv (16 + q.1) (w.toNat % 2 ^ n)).dmaLevels))) ∧
  (∀ (s : State) (q : Fin 8) (w : BitVec 32) (n : Nat),
    Live s → s.chip.domOn 59 = true → s.chip.on F.spiCfg_EN q.1 = true → 8 * 2 ^ s.chip.fld F.spiCfg_WIDTH q.1 = n →
      (s.chip.serial (16 + q.1)).tx = [] → s.chip.on F.spiCfg_TARGET q.1 = true →
    exec (.spiFrame q w) s = .next (s.withChip ((((s.chip.setFld F.spiStat_UNDER q.1 0 1).updSerial (16 + q.1) fun e =>
      { e with wire := s.chip.spiBits q.1 (2 ^ n - 1) }).serialRecv (16 + q.1) (w.toNat % 2 ^ n)).dmaLevels))) ∧
  (∀ (s : Chip) (q w : Nat),
    s.spiBits q w = if s.on F.spiCfg_LSBF q then bitsUp w (8 * 2 ^ s.fld F.spiCfg_WIDTH q) else (bitsUp w (8 * 2 ^ s.fld
      F.spiCfg_WIDTH q)).reverse) ∧
  (∀ (s : State) (i : Fin 8) (b : BitVec 8) (w : Nat) (rest : List Nat),
    Live s → s.chip.domOn 59 = true → s.chip.on F.i2cCfg_EN i.1 = true → s.chip.on F.i2cCfg_TARGET i.1 = false →
      (s.chip.serial (24 + i.1)).tx = w :: rest → bit w 10 = false →
    exec (.i2cByte i (.master true false b)) s = .next (s.withChip ((s.chip.updSerial (24 + i.1) fun e =>
      { e with tx := rest, wire := (if bit w 8 then [.start] else []) ++ bitsDown w 8 ++ (if bit w 9 then [.stop] else []) }).dmaLevels))) ∧
  (∀ (s : State) (i : Fin 8) (b : BitVec 8) (w : Nat) (rest : List Nat),
    Live s → s.chip.domOn 59 = true → s.chip.on F.i2cCfg_EN i.1 = true → s.chip.on F.i2cCfg_TARGET i.1 = false →
      (s.chip.serial (24 + i.1)).tx = w :: rest → bit w 10 = false →
    exec (.i2cByte i (.master false false b)) s = .next (s.withChip (((s.chip.setFld F.i2cStat_NACK i.1 0 1).updSerial (24 +
      i.1) fun e => { e with tx := [], wire := (if bit w 8 then [.start] else []) ++ bitsDown w 8 }).dmaLevels))) ∧
  (∀ (s : State) (i : Fin 8) (b : BitVec 8) (ack : Bool) (w : Nat) (rest : List Nat),
    Live s → s.chip.domOn 59 = true → s.chip.on F.i2cCfg_EN i.1 = true → s.chip.on F.i2cCfg_TARGET i.1 = false →
      (s.chip.serial (24 + i.1)).tx = w :: rest → bit w 10 = true →
    exec (.i2cByte i (.master ack false b)) s = .next (s.withChip (((s.chip.updSerial (24 + i.1) fun e =>
      { e with tx := rest, wire := (if bit w 8 then [.start] else []) ++ [.bit (bit w 11)] ++ (if bit w 9 then [.stop] else []) }).serialRecv
      (24 + i.1) b.toNat).dmaLevels))) ∧
  (∀ (s : State) (i : Fin 8) (b : BitVec 8) (ack : Bool) (w : Nat) (rest : List Nat),
    Live s → s.chip.domOn 59 = true → s.chip.on F.i2cCfg_EN i.1 = true → s.chip.on F.i2cCfg_TARGET i.1 = false →
      (s.chip.serial (24 + i.1)).tx = w :: rest →
    exec (.i2cByte i (.master ack true b)) s = .next (s.withChip (((s.chip.setFld F.i2cStat_ARB i.1 0 1).updSerial (24 +
      i.1) fun e => { e with tx := [], wire := if bit w 8 then [.start] else [] }).dmaLevels))) ∧
  (∀ (s : State) (i : Fin 8) (b : BitVec 8),
    Live s → s.chip.domOn 59 = true → s.chip.on F.i2cCfg_EN i.1 = true → s.chip.on F.i2cCfg_TARGET i.1 = true → b.toNat / 2
      = s.chip.fld F.i2cCfg_ADDR i.1 →
    exec (.i2cByte i (.address b)) s = .next (s.withChip ((s.chip.updSerial (24 + i.1) fun y =>
      { y with sel := some (bit b.toNat 0), first := true, wire := [.bit false] }).dmaLevels))) ∧
  (∀ (s : State) (i : Fin 8) (b : BitVec 8),
    Live s → s.chip.domOn 59 = true → s.chip.on F.i2cCfg_EN i.1 = true → s.chip.on F.i2cCfg_TARGET i.1 = true → b.toNat / 2
      ≠ s.chip.fld F.i2cCfg_ADDR i.1 →
    exec (.i2cByte i (.address b)) s = .next (s.withChip ((s.chip.updSerial (24 + i.1) fun y =>
      { y with sel := none, first := true, wire := [] }).dmaLevels))) ∧
  (∀ (s : State) (i : Fin 8) (b : BitVec 8),
    Live s → s.chip.domOn 59 = true → s.chip.on F.i2cCfg_EN i.1 = true → s.chip.on F.i2cCfg_TARGET i.1 = true →
      (s.chip.serial (24 + i.1)).sel = some false →
    exec (.i2cByte i (.written b)) s = .next (s.withChip (((s.chip.updSerial (24 + i.1) fun y =>
      { y with first := false, wire := [.bit false] }).serialRecv (24 + i.1) (b.toNat + b2n (s.chip.serial (24 + i.1)).first
      * 256)).dmaLevels))) ∧
  (∀ (s : State) (i : Fin 8),
    Live s → s.chip.domOn 59 = true → s.chip.on F.i2cCfg_EN i.1 = true → s.chip.on F.i2cCfg_TARGET i.1 = true →
      (s.chip.serial (24 + i.1)).sel = some true → (s.chip.serial (24 + i.1)).tx = [] →
    exec (.i2cByte i .readOut) s = .next (s.withChip (((s.chip.setFld F.i2cStat_UNDER i.1 0 1).updSerial (24 + i.1) fun y =>
      { y with wire := bitsDown 0xFF 8 }).dmaLevels))) ∧
  (∀ (s : State) (i : Fin 8) (w : Nat) (rest : List Nat),
    Live s → s.chip.domOn 59 = true → s.chip.on F.i2cCfg_EN i.1 = true → s.chip.on F.i2cCfg_TARGET i.1 = true →
      (s.chip.serial (24 + i.1)).sel = some true → (s.chip.serial (24 + i.1)).tx = w :: rest →
    exec (.i2cByte i .readOut) s = .next (s.withChip ((s.chip.updSerial (24 + i.1) fun y =>
      { y with tx := rest, wire := bitsDown w 8 }).dmaLevels))) ∧
  (∀ (s : State) (i : Fin 8),
    Live s → s.chip.domOn 59 = true → s.chip.on F.i2cCfg_EN i.1 = true → s.chip.on F.i2cCfg_TARGET i.1 = true →
    exec (.i2cByte i .stop) s = .next (s.withChip ((s.chip.updSerial (24 + i.1) fun y =>
      { y with sel := none }).dmaLevels)))

/-- STOP halts; a reserved instruction halts with BAD_INST. BRANCH always goes to ADDR; on LC above 1 lowers LC and goes; on
a not empty TX FIFO that is empty goes on. AWAIT of TR reached goes on, else waits; of a pending task input takes it.
AWAIT_END of an either-edge wait, for an edge of a pin of the group, in the direction named and not before the wait began,
sets CAP to its instant within 1 tk and TR from it; with no edge nothing; of TR reached goes on; of a sequencer that does
not wait nothing. STAMP sets TR from now or from TR. HALT of a running or waiting one halts, of another nothing; RESUME of a
halted one runs; RESTART with EN clears SR and SC and runs from ENTRY, with a group past port 1023 CFG_ERR; FLUSH of a
halted one empties its FIFOs, of another CFG_ERR. A waiting sequencer shows STATE 3 (log entry 14). (rests on
spec/13_pins_sequencers.md) -/
def Obligations.SequencerControl : Prop :=
  (∀ (s : State) (q : Fin 64) (w : Nat),
    Live s → SeqRuns s.chip q.1 0 w →
    exec (.psqStop q) s = .next (s.withChip ((s.chip.updPsq q.1 fun e => { e with wait := none }).setPsqState q.1 1))) ∧
  (∀ (s : State) (q : Fin 64),
    Live s → s.chip.domOn (55 + s.chip.physOf 5 q.1 / 17) = true → s.chip.psqState q.1 = 2 → psqReserved (s.chip.psqInst
      q.1) = true →
    exec (.psqBadInst q) s = .next (s.withChip ((s.chip.psqStick q.1 F.psqStat_BAD_INST).psqStopHere q.1))) ∧
  (∀ (s : State) (q : Fin 64) (w : Nat),
    Live s → SeqRuns s.chip q.1 1 w → bits w 26 24 = 0 →
    exec (.psqBranch q) s = .next (s.withChip (s.chip.setFld F.psqStat_PC q.1 0 (bits w 6 0)))) ∧
  (∀ (s : State) (q : Fin 64) (w lc : Nat),
    Live s → SeqRuns s.chip q.1 1 w → bits w 26 24 = 1 → s.chip.fld F.psqLc_LC q.1 = lc → 1 < lc →
    exec (.psqBranch q) s = .next (s.withChip ((s.chip.setFld F.psqLc_LC q.1 0 (lc - 1)).setFld F.psqStat_PC q.1 0 (bits w 6
      0)))) ∧
  (∀ (s : State) (q : Fin 64) (w : Nat),
    Live s → SeqRuns s.chip q.1 1 w → bits w 26 24 = 4 → (s.chip.psq q.1).tx = [] →
    exec (.psqBranch q) s = .next (s.withChip (s.chip.psqNext q.1))) ∧
  (∀ (s : State) (q : Fin 64) (w : Nat),
    Live s → SeqRuns s.chip q.1 2 w → bits w 26 24 = 0 → reached s.chip.now (s.chip.psq q.1).tr = true →
    exec (.psqAwait q) s = .next (s.withChip ((s.chip.updPsq q.1 fun e => { e with hop := 0 }).psqDone q.1))) ∧
  (∀ (s : State) (q : Fin 64) (w : Nat),
    Live s → SeqRuns s.chip q.1 2 w → bits w 26 24 = 0 → reached s.chip.now (s.chip.psq q.1).tr = false →
    exec (.psqAwait q) s = .next (s.withChip ((s.chip.updPsq q.1 fun e => { e with hop := 0 }).psqHold q.1 (.await
      s.chip.now)))) ∧
  (∀ (s : State) (q : Fin 64) (w : Nat),
    Live s → SeqRuns s.chip q.1 2 w → bits w 26 24 = 6 → s.chip.on F.psqStat_TASKPEND q.1 = true →
    exec (.psqAwait q) s = .next (s.withChip (((s.chip.setFld F.psqStat_TASKPEND q.1 0 0).updPsq q.1 fun e =>
      { e with hop := e.pendHop }).psqDone q.1))) ∧
  (∀ (s : State) (q : Fin 64) (v : Bool) (off : Fin 3) (w b e : Nat),
    Live s → SeqWaits s.chip q.1 w (.await b) → bits w 26 24 = 5 → bits w 20 16 ≤ s.chip.fld F.psqGroup_COUNTM1 q.1 →
      s.chip.edgeAt (s.chip.fld F.psqGroup_BASE q.1 + bits w 20 16) 0 = some (e, v) → reached e b = true →
    exec (.psqAwaitEnd q v off) s = .next (s.withChip ((s.chip.updPsq q.1 fun x =>
      { x with cap := sub64 (e + off.1) 1, tr := (sub64 (e + off.1) 1 + bits w 15 0) % 2 ^ 64 }).psqDone q.1))) ∧
  (∀ (s : State) (q : Fin 64) (v : Bool) (off : Fin 3) (w b : Nat),
    Live s → SeqWaits s.chip q.1 w (.await b) → bits w 26 24 = 5 → s.chip.edgeAt (s.chip.fld F.psqGroup_BASE q.1 + bits w 20
      16) 0 = none →
    exec (.psqAwaitEnd q v off) s = .next (s.withChip (s.chip))) ∧
  (∀ (s : State) (q : Fin 64) (v : Bool) (off : Fin 3) (w b : Nat),
    Live s → SeqWaits s.chip q.1 w (.await b) → bits w 26 24 = 0 → reached s.chip.now (s.chip.psq q.1).tr = true →
    exec (.psqAwaitEnd q v off) s = .next (s.withChip (s.chip.psqDone q.1))) ∧
  (∀ (s : State) (q : Fin 64) (v : Bool) (off : Fin 3),
    Live s → s.chip.domOn (55 + s.chip.physOf 5 q.1 / 17) = true → s.chip.psqState q.1 ≠ 3 →
    exec (.psqAwaitEnd q v off) s = .next (s.withChip (s.chip))) ∧
  (∀ (s : State) (q : Fin 64) (w : Nat),
    Live s → SeqRuns s.chip q.1 3 w → bits w 26 25 = 0 →
    exec (.psqStamp q) s = .next (s.withChip ((s.chip.updPsq q.1 fun e =>
      { e with tr := (s.chip.now + bits w 23 0) % 2 ^ 64 }).psqDone q.1))) ∧
  (∀ (s : State) (q : Fin 64) (w : Nat),
    Live s → SeqRuns s.chip q.1 3 w → bits w 26 25 = 1 →
    exec (.psqStamp q) s = .next (s.withChip ((s.chip.updPsq q.1 fun e =>
      { e with tr := (e.tr + bits w 23 0) % 2 ^ 64 }).psqDone q.1))) ∧
  (∀ (s : State) (m : Master) (q : Fin 64),
    Live s → Served s.chip m .psqCmd q.1 0 true → 2 ≤ s.chip.psqState q.1 →
    exec (.psqHalt m q) s = .next (s.withChip (((s.chip.updPsq q.1 fun e => { e with wait := none }).setPsqState q.1
      1).afterWrite s.chip m .psqCmd q.1 0 2))) ∧
  (∀ (s : State) (m : Master) (q : Fin 64),
    Live s → Served s.chip m .psqCmd q.1 0 true → s.chip.psqState q.1 < 2 →
    exec (.psqHalt m q) s = .next (s.withChip ((s.chip).afterWrite s.chip m .psqCmd q.1 0 2))) ∧
  (∀ (s : State) (m : Master) (q : Fin 64),
    Live s → Served s.chip m .psqCmd q.1 0 true → s.chip.psqState q.1 = 1 →
    exec (.psqResume m q) s = .next (s.withChip ((s.chip.setPsqState q.1 2).afterWrite s.chip m .psqCmd q.1 0 4))) ∧
  (∀ (s : State) (m : Master) (q : Fin 64),
    Live s → Served s.chip m .psqCmd q.1 0 true → s.chip.on F.psqCtrl_EN q.1 = true → s.chip.fld F.psqGroup_BASE q.1 +
      s.chip.fld F.psqGroup_COUNTM1 q.1 ≤ 1023 →
    exec (.psqRestart m q) s = .next (s.withChip (((((((s.chip.setFld F.psqStat_PC q.1 0 (s.chip.fld F.psqCtrl_ENTRY
      q.1)).setFld F.psqSr_SR q.1 0 0).setFld F.psqSc_SC q.1 0 0)).updPsq q.1 fun e => { e with wait := none }).setPsqState
      q.1 2).afterWrite s.chip m .psqCmd q.1 0 1))) ∧
  (∀ (s : State) (m : Master) (q : Fin 64),
    Live s → Served s.chip m .psqCmd q.1 0 true → s.chip.on F.psqCtrl_EN q.1 = true → 1023 < s.chip.fld F.psqGroup_BASE q.1
      + s.chip.fld F.psqGroup_COUNTM1 q.1 →
    exec (.psqRestart m q) s = .next (s.withChip ((s.chip.psqStick q.1 F.psqStat_CFG_ERR).afterWrite s.chip m .psqCmd q.1 0
      1))) ∧
  (∀ (s : State) (m : Master) (q : Fin 64),
    Live s → Served s.chip m .psqCmd q.1 0 true → s.chip.psqState q.1 = 1 →
    exec (.psqFlush m q) s = .next (s.withChip ((s.chip.updPsq q.1 fun e => { e with tx := [], rx := [] }).afterWrite s.chip
      m .psqCmd q.1 0 8))) ∧
  (∀ (s : State) (m : Master) (q : Fin 64),
    Live s → Served s.chip m .psqCmd q.1 0 true → s.chip.psqState q.1 ≠ 1 →
    exec (.psqFlush m q) s = .next (s.withChip ((s.chip.psqStick q.1 F.psqStat_CFG_ERR).afterWrite s.chip m .psqCmd q.1 0
      8)))

/-- Without AT: DRIVE nowhere or to the pins, SHDIR 0, shifts n bits out of SR, counted, the pins taking them; SAMPLE of DR,
SHDIR 1, shifts n bits in; PUT of LC, DR or the pins; COPY of SR to LC and of DR to SR; SIGNAL raises 360 + J. FETCH takes
the oldest TX word; empty, without WAIT it takes IDLE with UNDERRUN, with WAIT it waits. DEPOSIT with room adds SR to RX and
clears it; full, without WAIT it drops it with OVERRUN. With AT, DRIVE waits; the timed action acts once TR and ten ticks
have passed, with LATE where TR was reached by the ninth; before that nothing. A FIFO wait of FETCH ends with a word, and
lasts without one. A waiting sequencer shows STATE 3 (log entry 14). (rests on spec/13_pins_sequencers.md) -/
def Obligations.SequencerData : Prop :=
  (∀ (s : State) (q : Fin 64) (w n sr : Nat),
    Live s → SeqRuns s.chip q.1 4 w → bit w 27 = false → bits w 26 24 = 2 → s.chip.on F.psqCtrl_SHDIR q.1 = false → bits w 4
      0 + 1 = n → s.chip.fld F.psqSr_SR q.1 = sr →
    exec (.psqDrive q) s = .next (s.withChip (((s.chip.setFld F.psqSr_SR q.1 0 (sr / 2 ^ n)).psqShifted q.1 n).psqDone
      q.1))) ∧
  (∀ (s : State) (q : Fin 64) (w : Nat),
    Live s → SeqRuns s.chip q.1 4 w → bit w 27 = true →
    exec (.psqDrive q) s = .next (s.withChip ((s.chip.updPsq q.1 fun e => { e with hop := 0 }).psqHold q.1 (.timed
      s.chip.now)))) ∧
  (∀ (s : State) (q : Fin 64) (w n sr : Nat),
    Live s → SeqRuns s.chip q.1 4 w → bit w 27 = false → bits w 26 24 = 0 → s.chip.on F.psqCtrl_SHDIR q.1 = false → bits w 4
      0 + 1 = n → s.chip.fld F.psqSr_SR q.1 = sr →
    exec (.psqDrive q) s = .next (s.withChip ((((s.chip.setFld F.psqSr_SR q.1 0 (sr / 2 ^ n)).psqShifted q.1 n).psqDrivePins
      q.1 F.psqOutv_OUTV (putBits (s.chip.fld F.psqOutv_OUTV q.1) (bits w 20 16) n (sr % 2 ^ n))).psqDone q.1))) ∧
  (∀ (s : State) (q : Fin 64) (w n sr : Nat),
    Live s → SeqRuns s.chip q.1 5 w → bit w 27 = false → bits w 26 24 = 1 → s.chip.on F.psqCtrl_SHDIR q.1 = true → bits w 4
      0 + 1 = n → s.chip.fld F.psqSr_SR q.1 = sr →
    exec (.psqSample q) s = .next (s.withChip (((s.chip.setFld F.psqSr_SR q.1 0 (Nat.lor (sr * 2 ^ n) (s.chip.fld F.psqDr_DR
      q.1 % 2 ^ n))).psqShifted q.1 n).psqDone q.1))) ∧
  (∀ (s : State) (q : Fin 64) (w : Nat),
    Live s → SeqRuns s.chip q.1 6 w → bit w 27 = false → bits w 26 24 = 2 →
    exec (.psqPut q) s = .next (s.withChip ((s.chip.setFld F.psqLc_LC q.1 0 (bits w 15 0)).psqDone q.1))) ∧
  (∀ (s : State) (q : Fin 64) (w : Nat),
    Live s → SeqRuns s.chip q.1 6 w → bit w 27 = false → bits w 26 24 = 3 →
    exec (.psqPut q) s = .next (s.withChip ((s.chip.setFld F.psqDr_DR q.1 0 (bits w 15 0)).psqDone q.1))) ∧
  (∀ (s : State) (q : Fin 64) (w : Nat),
    Live s → SeqRuns s.chip q.1 6 w → bit w 27 = false → bits w 26 24 = 0 →
    exec (.psqPut q) s = .next (s.withChip ((s.chip.psqDrivePins q.1 F.psqOutv_OUTV (putBits (s.chip.fld F.psqOutv_OUTV q.1)
      (bits w 20 16) (bits w 15 13 + 1) (bits w 7 0 % 2 ^ (bits w 15 13 + 1)))).psqDone q.1))) ∧
  (∀ (s : State) (q : Fin 64) (w : Nat),
    Live s → SeqRuns s.chip q.1 9 w → bit w 27 = false → bits w 26 24 = 1 → bits w 22 20 = 2 →
    exec (.psqCopy q) s = .next (s.withChip ((s.chip.setFld F.psqLc_LC q.1 0 (s.chip.fld F.psqSr_SR q.1)).psqDone q.1))) ∧
  (∀ (s : State) (q : Fin 64) (w : Nat),
    Live s → SeqRuns s.chip q.1 9 w → bit w 27 = false → bits w 26 24 = 2 → bits w 22 20 = 0 →
    exec (.psqCopy q) s = .next (s.withChip (((s.chip.setFld F.psqSr_SR q.1 0 (s.chip.fld F.psqDr_DR q.1)).setFld F.psqSc_SC
      q.1 0 0).psqDone q.1))) ∧
  (∀ (s : State) (q : Fin 64) (w : Nat),
    Live s → SeqRuns s.chip q.1 10 w → bit w 27 = false →
    exec (.psqSignal q) s = .next (s.withChip ((s.chip.raiseHop (360 + bits w 3 0) (s.chip.psq q.1).hop).psqDone q.1))) ∧
  (∀ (s : State) (q : Fin 64) (w v : Nat) (rest : List Nat),
    Live s → SeqRuns s.chip q.1 7 w → (s.chip.psq q.1).tx = v :: rest →
    exec (.psqFetch q) s = .next (s.withChip ((((s.chip.updPsq q.1 fun e => { e with tx := rest }).psqLoad q.1 v).psqDone
      q.1).dmaLevels))) ∧
  (∀ (s : State) (q : Fin 64) (w : Nat),
    Live s → SeqRuns s.chip q.1 7 w → (s.chip.psq q.1).tx = [] → bit w 26 = false →
    exec (.psqFetch q) s = .next (s.withChip ((((s.chip.psqLoad q.1 (s.chip.fld F.psqIdle_IDLE q.1)).psqStick q.1
      F.psqStat_UNDERRUN).psqDone q.1).dmaLevels))) ∧
  (∀ (s : State) (q : Fin 64) (w : Nat),
    Live s → SeqRuns s.chip q.1 7 w → (s.chip.psq q.1).tx = [] → bit w 26 = true →
    exec (.psqFetch q) s = .next (s.withChip ((s.chip.psqHold q.1 .fifo).dmaLevels))) ∧
  (∀ (s : State) (q : Fin 64) (w : Nat),
    Live s → SeqRuns s.chip q.1 8 w → (s.chip.psq q.1).rx.length < 8 →
    exec (.psqDeposit q) s = .next (s.withChip ((((s.chip.updPsq q.1 fun e =>
      { e with rx := e.rx ++ [s.chip.fld F.psqSr_SR q.1] }).psqLoad q.1 0).psqDone q.1).dmaLevels))) ∧
  (∀ (s : State) (q : Fin 64) (w : Nat),
    Live s → SeqRuns s.chip q.1 8 w → 8 ≤ (s.chip.psq q.1).rx.length → bit w 26 = false →
    exec (.psqDeposit q) s = .next (s.withChip ((((s.chip.psqLoad q.1 0).psqStick q.1 F.psqStat_OVERRUN).psqDone
      q.1).dmaLevels))) ∧
  (∀ (s : State) (q : Fin 64) (w b : Nat),
    Live s → SeqWaits s.chip q.1 w (.timed b) → reached s.chip.now (s.chip.psq q.1).tr = true → 10 ≤ sub64 s.chip.now b →
      reached (b + 9) (s.chip.psq q.1).tr = false →
    exec (.psqTimedAction q) s = .next (s.withChip ((s.chip.psqAct q.1 w).psqDone q.1))) ∧
  (∀ (s : State) (q : Fin 64) (w b : Nat),
    Live s → SeqWaits s.chip q.1 w (.timed b) → reached s.chip.now (s.chip.psq q.1).tr = true → 10 ≤ sub64 s.chip.now b →
      reached (b + 9) (s.chip.psq q.1).tr = true →
    exec (.psqTimedAction q) s = .next (s.withChip (((s.chip.psqStick q.1 F.psqStat_LATE).psqAct q.1 w).psqDone q.1))) ∧
  (∀ (s : State) (q : Fin 64) (w b : Nat),
    Live s → SeqWaits s.chip q.1 w (.timed b) → sub64 s.chip.now b < 10 ∨ reached s.chip.now (s.chip.psq q.1).tr = false →
    exec (.psqTimedAction q) s = .next (s.withChip (s.chip))) ∧
  (∀ (s : State) (q : Fin 64) (w v : Nat) (rest : List Nat),
    Live s → SeqWaits s.chip q.1 w .fifo → bits w 31 28 = 7 → (s.chip.psq q.1).tx = v :: rest →
    exec (.psqFifoWaitEnd q) s = .next (s.withChip ((((s.chip.updPsq q.1 fun e => { e with tx := rest }).psqLoad q.1
      v).psqDone q.1).dmaLevels))) ∧
  (∀ (s : State) (q : Fin 64) (w : Nat),
    Live s → SeqWaits s.chip q.1 w .fifo → bits w 31 28 = 7 → (s.chip.psq q.1).tx = [] →
    exec (.psqFifoWaitEnd q) s = .next (s.withChip (s.chip.dmaLevels)))

/-- With no start due START_UP changes nothing. With one due, the first copy good, VCORE and VMEM good after the header and
supplies, no zeroing, the sections loading, and no assay asked for: ledger, park states, sections, the mailbox lock, the
canvas, the digest and the cores' run follow in this order, S4LAT is 11/10 of the time, and nothing is due. With the first
copy good and either rail out of its window, the device enters hold. With both copies failing, each failure's reason is
recorded and the device enters hold. That start-up is one step, its time and findings the sender's, is the model's choice
(log entry 46). (rests on spec/15_keystone_start.md, spec/16_power_assay_spares.md) -/
def Obligations.StartUp : Prop :=
  (∀ (s : State) (e : StartEnv),
    Live s → s.chip.boot.due = none →
    exec (.startUp e) s = .next (s.withChip (s.chip))) ∧
  (∀ (s : State) (e : StartEnv) (due : Nat) (b t1 t2 t3 t4 : Chip),
    Live s → s.chip.boot.due = some due → s.chip.psm.tripped = false → s.chip.startBegin due = b → b.boot.reason 0 = none →
      (b.takeHeader 0 due).startPower 0 e = t1 → (t1.on F.sysSupply_VCORE_OK && t1.on F.sysSupply_VMEM_OK) = true →
      b.boot.zero = false → (t1.startLedger.startPark 0).setFld F.sysBoot_COPY 0 0 0 = t2 → (t2.setOn F.sysBoot_FALLBACK 0 0
      (!e.same)).loadSections 0 ((t2.setOn F.sysBoot_FALLBACK 0 0 (!e.same)).boot.sections 0) = (true, t3) → t3.setFld
      F.mbxCptlock_LOCKED 0 0 1 = t4 → bit t4.boot.flags 4 = false →
    exec (.startUp e) s = .next (s.withChip (((((t4.formCanvas e).putDigest 0).startRun 0).setFld F.psmS4lat_US 0 0 (e.us *
      11 / 10)).updBoot fun x => { x with due := none, zero := false, vmem := false }))) ∧
  (∀ (s : State) (e : StartEnv) (due : Nat) (t1 : Chip),
    Live s → s.chip.boot.due = some due → s.chip.psm.tripped = false → (s.chip.startBegin due).boot.reason 0 = none →
      ((s.chip.startBegin due).takeHeader 0 due).startPower 0 e = t1 → (t1.on F.sysSupply_VCORE_OK && t1.on
      F.sysSupply_VMEM_OK) = false →
    exec (.startUp e) s = .next (s.withChip (t1.enterHold))) ∧
  (∀ (s : State) (e : StartEnv) (due r0 r1 : Nat) (b : Chip),
    Live s → s.chip.boot.due = some due → s.chip.psm.tripped = false → s.chip.startBegin due = b → b.boot.reason 0 = some r0
      → b.boot.reason 1 = some r1 →
    exec (.startUp e) s = .next (s.withChip (((b.setReason 0 r0).setReason 1 r1).enterHold)))

/-- POWER_ON_RESET holds the device and clears it. Its release, unless TESTMODE is high, samples the straps, makes a start
due and lets PCI Express power; with TESTMODE high nothing changes. With no start due RESET_N (BALL, straps sampled), a cold
reset (COLD), a keystone reset (KEYSTONE), PERST where the keystone makes it a reset (PERST), and a watchdog that has run
out (WDOG) record their cause and begin; a cold one replaces a lesser one under way and merges with a cold one, a keystone
one merges with any, then only recording its cause. Else PERST resets both host functions. A function-level reset clears the
host's settings of its function and, for 0, its outbound work (here none waiting). A watchdog off does not bite. A kick with
0x5A17 restarts it, another sets KICK_ERR. (rests on spec/12_time_events_measurement.md, spec/15_keystone_start.md,
spec/17_balls_supplies.md) -/
def Obligations.Resets : Prop :=
  (∀ (s : State) (b : Bool),
    exec (.powerOnReset b) s = .next { s with sup := { s.sup with por := true }, chip := s.chip.powerOff b }) ∧
  (∀ (s : State) (k : BitVec 10),
    s.sup.por = true → s.sup.testmode = false →
    exec (.powerOnResetRelease k) s = .next
      { s with sup := { s.sup with por := false }, chip := (s.chip.updBoot fun b => { b with straps := k.toNat % 1024, due := some 0 }).takePad.powerPcie }) ∧
  (∀ (s : State) (k : BitVec 10),
    s.sup.testmode = true →
    exec (.powerOnResetRelease k) s = .next s) ∧
  (∀ (s : State) (k : BitVec 10),
    Live s → s.chip.boot.due = none →
    exec (.resetN k) s = .next (s.withChip ((((s.chip.setFld F.sysRstcause_BALL 0 0 1).beginReset 0).updBoot fun b =>
      { b with straps := k.toNat % 1024 }).takePad))) ∧
  (∀ (s : State) (m : Master),
    Live s → Served s.chip m .sysReset 0 0 true → s.chip.boot.due = none →
    exec (.coldReset m) s = .next (s.withChip (((s.chip.setFld F.sysRstcause_COLD 0 0 1).beginReset 0).afterWrite s.chip m
      .sysReset 0 0 0x7E510002))) ∧
  (∀ (s : State) (m : Master) (d : Nat),
    Live s → Served s.chip m .sysReset 0 0 true → s.chip.boot.due = some d → d ≠ 0 →
    exec (.coldReset m) s = .next (s.withChip (((s.chip.setFld F.sysRstcause_COLD 0 0 1).beginReset 0).afterWrite s.chip m
      .sysReset 0 0 0x7E510002))) ∧
  (∀ (s : State) (m : Master),
    Live s → Served s.chip m .sysReset 0 0 true → s.chip.boot.due = some 0 →
    exec (.coldReset m) s = .next (s.withChip ((s.chip.setFld F.sysRstcause_COLD 0 0 1).afterWrite s.chip m .sysReset 0 0
      0x7E510002))) ∧
  (∀ (s : State) (m : Master),
    Live s → Served s.chip m .sysReset 0 0 true → s.chip.boot.due = none →
    exec (.keystoneReset m) s = .next (s.withChip (((s.chip.setFld F.sysRstcause_KEYSTONE 0 0 1).beginReset 1).afterWrite
      s.chip m .sysReset 0 0 0x7E510001))) ∧
  (∀ (s : State) (m : Master) (d : Nat),
    Live s → Served s.chip m .sysReset 0 0 true → s.chip.boot.due = some d →
    exec (.keystoneReset m) s = .next (s.withChip ((s.chip.setFld F.sysRstcause_KEYSTONE 0 0 1).afterWrite s.chip m
      .sysReset 0 0 0x7E510001))) ∧
  (∀ (s : State),
    Live s → bit s.chip.boot.flags 2 = true → s.chip.boot.due = none →
    exec (.perst) s = .next (s.withChip ((s.chip.setFld F.sysRstcause_PERST 0 0 1).beginReset 1))) ∧
  (∀ (s : State),
    Live s → bit s.chip.boot.flags 2 = false →
    exec (.perst) s = .next (s.withChip ((s.chip.funcReset 0).funcReset 1))) ∧
  (∀ (s : State) (f : Fin 2),
    Live s → f = 1 →
    exec (.functionLevelReset f) s = .next (s.withChip
      ({ (s.chip.updPcie fun p => { p with dstate := NStore.del p.dstate 1, bars := p.bars.filter (fun x => !decide (x.1 / 8 = 1)), cmd := NStore.del p.cmd 1, msixEn := NStore.del p.msixEn 1, table := p.table.filter (fun x => !decide (x.1 / 256 = 1)), pend := p.pend.filter (fun x => !decide (x / 64 = 1)) }) with busMaster := s.chip.busMaster.filter fun x => x != 1 }))) ∧
  (∀ (s : State) (f : Fin 2),
    Live s → f = 0 → s.chip.pcie.outQ = [] → s.chip.pcie.reads = [] →
    exec (.functionLevelReset f) s = .next (s.withChip
      ({ (s.chip.updPcie fun p => { p with dstate := NStore.del p.dstate 0, bars := p.bars.filter (fun x => !decide (x.1 / 8 = 0)), cmd := NStore.del p.cmd 0, msixEn := NStore.del p.msixEn 0, table := p.table.filter (fun x => !decide (x.1 / 256 = 0)), pend := p.pend.filter (fun x => !decide (x / 64 = 0)), outQ := [], reads := [] }) with busMaster := s.chip.busMaster.filter fun x => x != 0 }))) ∧
  (∀ (s : State),
    Live s → s.chip.on F.sysWdogCtrl_EN = true → s.chip.fld F.sysWdogCtrl_TIMEOUT * 1000 ≤ sub64 s.chip.now
      s.chip.boot.kicked → s.chip.boot.due = none →
    exec (.watchdogBite) s = .next (s.withChip ((s.chip.setFld F.sysRstcause_WDOG 0 0 1).beginReset 1))) ∧
  (∀ (s : State),
    Live s → s.chip.on F.sysWdogCtrl_EN = false →
    exec (.watchdogBite) s = .next (s.withChip (s.chip))) ∧
  (∀ (s : State) (m : Master) (v : BitVec 32),
    Live s → Served s.chip m .sysWdogKick 0 0 true → bits v.toNat 15 0 = 0x5A17 →
    exec (.watchdogKick m v) s = .next (s.withChip ((s.chip.updBoot fun b => { b with kicked := s.chip.now }).afterWrite
      s.chip m .sysWdogKick 0 0 v.toNat))) ∧
  (∀ (s : State) (m : Master) (v : BitVec 32),
    Live s → Served s.chip m .sysWdogKick 0 0 true → bits v.toNat 15 0 ≠ 0x5A17 →
    exec (.watchdogKick m v) s = .next (s.withChip ((s.chip.setFld F.sysWdogStat_KICK_ERR 0 0 1).afterWrite s.chip m
      .sysWdogKick 0 0 v.toNat)))

/-- READ, PROGRAM and the two erases by a master that may, with the engine idle and SYS_BOOT.STATE 4 or more, set BUSY with
the command waiting; READ with BUSY set or before then sets BUSY_REJ, PROGRAM by a master that may not sets DENY.
BOOT_CMD_DONE of a READ fills the buffer with 256 bytes from ADDR, of a good ERASE_4K erases its 4,096 bytes, each with DONE
and BUSY 0; a failure of a PROGRAM or erase sets FAIL with BUSY 0. (rests on spec/15_keystone_start.md) -/
def Obligations.BootEngine : Prop :=
  (∀ (s : State) (m : Master),
    Live s → Served s.chip m .hstBfCmd 0 0 true → s.chip.on F.hstBfStat_BUSY = false → 4 ≤ s.chip.fld F.sysBoot_STATE →
      s.chip.bfAllowed m 1 = true →
    exec (.bootRead m) s = .next (s.withChip (((s.chip.setFld F.hstBfStat_BUSY 0 0 1).updBoot fun b =>
      { b with cmd := some 1 }).afterWrite s.chip m .hstBfCmd 0 0 1))) ∧
  (∀ (s : State) (m : Master),
    Live s → Served s.chip m .hstBfCmd 0 0 true → s.chip.on F.hstBfStat_BUSY = true ∨ s.chip.fld F.sysBoot_STATE < 4 →
    exec (.bootRead m) s = .next (s.withChip ((s.chip.setFld F.hstBfStat_BUSY_REJ 0 0 1).afterWrite s.chip m .hstBfCmd 0 0
      1))) ∧
  (∀ (s : State) (m : Master),
    Live s → Served s.chip m .hstBfCmd 0 0 true → s.chip.on F.hstBfStat_BUSY = false → 4 ≤ s.chip.fld F.sysBoot_STATE →
      s.chip.bfAllowed m 2 = true →
    exec (.bootProgram m) s = .next (s.withChip (((s.chip.setFld F.hstBfStat_BUSY 0 0 1).updBoot fun b =>
      { b with cmd := some 2 }).afterWrite s.chip m .hstBfCmd 0 0 2))) ∧
  (∀ (s : State) (m : Master),
    Live s → Served s.chip m .hstBfCmd 0 0 true → s.chip.on F.hstBfStat_BUSY = false → 4 ≤ s.chip.fld F.sysBoot_STATE →
      s.chip.bfAllowed m 2 = false →
    exec (.bootProgram m) s = .next (s.withChip ((s.chip.setFld F.hstBfStat_DENY 0 0 1).afterWrite s.chip m .hstBfCmd 0 0
      2))) ∧
  (∀ (s : State) (m : Master),
    Live s → Served s.chip m .hstBfCmd 0 0 true → s.chip.on F.hstBfStat_BUSY = false → 4 ≤ s.chip.fld F.sysBoot_STATE →
      s.chip.bfAllowed m 3 = true →
    exec (.bootErase4k m) s = .next (s.withChip (((s.chip.setFld F.hstBfStat_BUSY 0 0 1).updBoot fun b =>
      { b with cmd := some 3 }).afterWrite s.chip m .hstBfCmd 0 0 3))) ∧
  (∀ (s : State) (m : Master),
    Live s → Served s.chip m .hstBfCmd 0 0 true → s.chip.on F.hstBfStat_BUSY = false → 4 ≤ s.chip.fld F.sysBoot_STATE →
      s.chip.bfAllowed m 4 = true →
    exec (.bootErase64k m) s = .next (s.withChip (((s.chip.setFld F.hstBfStat_BUSY 0 0 1).updBoot fun b =>
      { b with cmd := some 4 }).afterWrite s.chip m .hstBfCmd 0 0 4))) ∧
  (∀ (s : State) (ok : Bool) (t : Chip),
    Live s → s.chip.boot.cmd = some 1 → (s.chip.setFld F.hstBfStat_BUSY 0 0 0).updBoot (fun b => { b with cmd := none }) = t
      →
    exec (.bootCmdDone ok) s = .next (s.withChip (((List.range 64).foldl (fun t i => t.setFld F.hstBfBuf_DATA i 0
      (s.chip.boot.bytes (s.chip.fld F.hstBfAddr_ADDR + 4 * i) 4)) t).setFld F.hstBfStat_DONE 0 0 1))) ∧
  (∀ (s : State) (ok : Bool) (t : Chip),
    Live s → s.chip.boot.cmd = some 3 → ok = true → (s.chip.setFld F.hstBfStat_BUSY 0 0 0).updBoot (fun b =>
      { b with cmd := none }) = t →
    exec (.bootCmdDone ok) s = .next (s.withChip ((t.updBoot fun b => b.erase (s.chip.fld F.hstBfAddr_ADDR / 4096 * 4096)
      4096).setFld F.hstBfStat_DONE 0 0 1))) ∧
  (∀ (s : State) (ok : Bool) (k : Nat),
    Live s → s.chip.boot.cmd = some k → k ≠ 1 → ok = false →
    exec (.bootCmdDone ok) s = .next (s.withChip (((s.chip.setFld F.hstBfStat_BUSY 0 0 0).updBoot fun b =>
      { b with cmd := none }).setFld F.hstBfStat_FAIL 0 0 1)))

/-- With the link down a BAR request changes nothing. With it up: BAR0 of a running device below S3 is accesses to this
package's registers, BAR2 of function 0 accesses to the package in HST_WINCHIP; in S3 and S4 a write of BAR0 that is not of
four bytes counts in OFFCNT; a BAR4 read of a table word is answered with it, a write sets it and sends a vector that waits;
BAR2 of function 1 reaches the footing page. A configuration request before the keystone's check is answered with retry;
after it a read of the ID is answered with it, a write is made and answered. PCIE_LINK_STATE sets whether the link is up.
VECTOR_UNMASK clears the vector's mask bit and sends what waits. What the spec leaves to PCI Express is presumed (log
entries 41 and 43). (rests on spec/15_keystone_start.md, spec/16_power_assay_spares.md) -/
def Obligations.HostRequests : Prop :=
  (∀ (s : State) (f : Fin 2) (bar : Fin 3) (w : Bool) (o : BitVec 30) (n v : Nat),
    Live s → s.chip.pcie.up = false →
    exec (.barRequest f bar w o n v) s = .next s) ∧
  (∀ (s : State) (f : Fin 2) (w : Bool) (o : BitVec 30) (n v : Nat),
    Live s → s.chip.pcie.up = true → s.chip.fld F.psmStat_STATE < 3 → s.chip.fld F.sysBoot_STATE = 4 →
    exec (.barRequest f 0 w o n v) s = .next (s.withChip ((hostAccesses f.1 w (s.chip.localAddr (0x3C000000 + o.toNat % 2 ^
      26)) n v).foldl (fun t a => t.submit a) s.chip))) ∧
  (∀ (s : State) (f : Fin 2) (w : Bool) (o : BitVec 30) (n v : Nat),
    Live s → s.chip.pcie.up = true → f = 0 → s.chip.fld F.psmStat_STATE < 3 → s.chip.fld F.sysBoot_STATE = 4 →
    exec (.barRequest f 1 w o n v) s = .next (s.withChip ((hostAccesses 0 w (s.chip.fld F.hstWinchip_CHIP * 2 ^ 30 +
      o.toNat) n v).foldl (fun t a => t.submit a) s.chip))) ∧
  (∀ (s : State) (f : Fin 2) (w : Bool) (o : BitVec 30) (n v : Nat),
    Live s → s.chip.pcie.up = true → 3 ≤ s.chip.fld F.psmStat_STATE → n ≠ 4 → w = true →
    exec (.barRequest f 0 w o n v) s = .next (s.withChip (s.chip.bump F.psmOffcnt_COUNT F.psmOffcnt_SAT))) ∧
  (∀ (s : State) (f : Fin 2) (o : BitVec 30) (n v : Nat) (k : Nat),
    Live s → s.chip.pcie.up = true → o.toNat % 2 ^ 16 = 4 * k → k < 256 →
    exec (.barRequest f 2 false o n v) s = .next (s.withChip (s.chip.toHost (.cpl f.1 0 (NStore.get (if k % 4 = 3 then 1
      else 0) s.chip.pcie.table (f.1 * 256 + k)) false)))) ∧
  (∀ (s : State) (f : Fin 2) (o : BitVec 30) (n v : Nat),
    Live s → s.chip.pcie.up = true → o.toNat % 4 = 0 → o.toNat % 2 ^ 16 < 0x400 →
    exec (.barRequest f 2 true o n v) s = .next (s.withChip ((s.chip.updPcie fun p =>
      { p with table := NStore.set p.table (f.1 * 256 + o.toNat % 2 ^ 16 / 4) (v % 2 ^ 32) }).flushVector f.1 (o.toNat % 2 ^
      16 / 16)))) ∧
  (∀ (s : State) (f : Fin 2) (w : Bool) (o : BitVec 30) (n v : Nat),
    Live s → s.chip.pcie.up = true → f = 1 →
    exec (.barRequest f 1 w o n v) s = .next (s.withChip (s.chip.footingPage w (o.toNat % 2 ^ 12) n v))) ∧
  (∀ (s : State) (f : Fin 2) (r : CfgReg) (w : Bool) (v : BitVec 32),
    Live s → s.chip.pcie.up = true → s.chip.cfgRetry = true →
    exec (.configurationRequest f r w v) s = .next (s.withChip (s.chip.toHost (.cpl f.1 3 0 false)))) ∧
  (∀ (s : State) (f : Fin 2) (r : CfgReg) (w : Bool) (v : BitVec 32),
    Live s → s.chip.pcie.up = true → s.chip.cfgRetry = false → w = false → r = .id →
    exec (.configurationRequest f r w v) s = .next (s.withChip (s.chip.toHost (.cpl f.1 0 ((0x6816 + f.1) * 2 ^ 16 + 0x1E7B)
      false)))) ∧
  (∀ (s : State) (f : Fin 2) (r : CfgReg) (w : Bool) (v : BitVec 32),
    Live s → s.chip.pcie.up = true → s.chip.cfgRetry = false → w = true →
    exec (.configurationRequest f r w v) s = .next (s.withChip ((s.chip.cfgWrite f.1 r v.toNat).toHost (.cpl f.1 0 0
      false)))) ∧
  (∀ (s : State) (up : Bool),
    Live s →
    exec (.pcieLinkState up) s = .next (s.withChip (s.chip.updPcie fun p => { p with up := up && s.chip.domOn 64 }))) ∧
  (∀ (s : State) (f : Fin 2) (v : Fin 64) (w : Nat),
    Live s → NStore.get 1 s.chip.pcie.table (f.1 * 256 + 4 * v.1 + 3) = w → w < 2 ^ 32 →
    exec (.vectorUnmask f v) s = .next (s.withChip ((s.chip.updPcie fun p =>
      { p with table := NStore.set p.table (f.1 * 256 + 4 * v.1 + 3) (w / 2 * 2) }).flushVector f.1 v.1)))

/-- The oldest outbound access through a window in use: a write with the link up goes to the host and is answered OKAY (log
entry 43), a read goes to the host and waits; without a window or bus mastering it is answered TARGET. The host's good
answer ends the read with its bytes, a failed one with TARGET; so do 50 ms; a timeout of no waiting read changes nothing.
(rests on spec/15_keystone_start.md) -/
def Obligations.OutboundAccesses : Prop :=
  (∀ (s : State) (a : Access) (rest : List Access) (h : Nat),
    Live s → s.chip.pcie.outQ = a :: rest → s.chip.hostAddr a = some h → a.write = true → s.chip.pcie.up = true →
    exec (.outboundAccess .send) s = .next (s.withChip (((s.chip.updPcie fun p => { p with outQ := rest }).toHost (.write h
      a.size a.data)).respond a .okay 0))) ∧
  (∀ (s : State) (a : Access) (rest : List Access) (h : Nat),
    Live s → s.chip.pcie.outQ = a :: rest → s.chip.hostAddr a = some h → a.write = false →
    exec (.outboundAccess .send) s = .next (s.withChip (((s.chip.updPcie fun p => { p with outQ := rest }).toHost (.read h
      a.size)).updPcie fun p => { p with reads := p.reads ++ [⟨a, s.chip.now⟩] }))) ∧
  (∀ (s : State) (a : Access) (rest : List Access),
    Live s → s.chip.pcie.outQ = a :: rest → s.chip.hostAddr a = none →
    exec (.outboundAccess .send) s = .next (s.withChip ((s.chip.updPcie fun p => { p with outQ := rest }).respond a .target
      0))) ∧
  (∀ (s : State) (n : Nat) (ok : Bool) (d : BitVec 128) (r : HostReq),
    Live s → s.chip.pcie.reads[n]? = some r → ok = true →
    exec (.outboundAccess (.answer n ok d)) s = .next (s.withChip ((s.chip.updPcie fun p =>
      { p with reads := p.reads.eraseIdx n }).respond r.acc .okay (d.toNat % 2 ^ (8 * r.acc.size))))) ∧
  (∀ (s : State) (n : Nat) (ok : Bool) (d : BitVec 128) (r : HostReq),
    Live s → s.chip.pcie.reads[n]? = some r → ok = false →
    exec (.outboundAccess (.answer n ok d)) s = .next (s.withChip ((s.chip.updPcie fun p =>
      { p with reads := p.reads.eraseIdx n }).respond r.acc .target 0))) ∧
  (∀ (s : State) (n : Nat) (r : HostReq),
    Live s → s.chip.pcie.reads[n]? = some r → 50000000 ≤ sub64 s.chip.now r.at_ →
    exec (.outboundTimeout n) s = .next (s.withChip ((s.chip.updPcie fun p =>
      { p with reads := p.reads.eraseIdx n }).respond r.acc .target 0))) ∧
  (∀ (s : State) (n : Nat),
    Live s → s.chip.pcie.reads[n]? = none →
    exec (.outboundTimeout n) s = .next (s.withChip (s.chip)))

/-- The block reads of boot status, ID and digest give SYS_BOOT and SYS_RSTCAUSE, HST_ID, and the eight digest words, each
word's least significant byte first. SET_ADDRESS, WRITE and the foot commands whose check byte fails change nothing.
SET_ADDRESS keeps the address and reads there; READ gives the status and the word of the last read; WRITE writes at the
address, which moves on by 4; WRITE_STATUS gives the status of the last write. FOOT_PARK sets PARKED; FOOT_RELOAD and
FOOT_COLD with no start due set FOOT and begin a keystone and a cold reset. (rests on spec/13_pins_sequencers.md,
spec/15_keystone_start.md) -/
def Obligations.SmbusTarget : Prop :=
  (∀ (s : State),
    Live s →
    exec (.smbBootStatus) s = .next (s.withChip (s.chip.updSmb fun x =>
      { x with out := leBytes (s.chip.smbReg .sysBoot) 4 ++ leBytes (s.chip.smbReg .sysRstcause) 4 }))) ∧
  (∀ (s : State),
    Live s →
    exec (.smbId) s = .next (s.withChip (s.chip.updSmb fun x => { x with out := leBytes (s.chip.smbReg .hstId) 4 }))) ∧
  (∀ (s : State),
    Live s →
    exec (.smbDigest) s = .next (s.withChip (s.chip.updSmb fun x =>
      { x with out := (List.range 8).flatMap fun i => leBytes (s.chip.smbReg .hstDigest i) 4 }))) ∧
  (∀ (s : State) (ok : Bool) (a : BitVec 32),
    Live s → ok = false →
    exec (.smbSetAddress ok a) s = .next (s.withChip (s.chip))) ∧
  (∀ (s : State) (ok : Bool) (a : BitVec 32),
    Live s → ok = true →
    exec (.smbSetAddress ok a) s = .next (s.withChip ((s.chip.updSmb fun x => { x with addr := a.toNat % 2 ^ 30 }).smbAccess
      false (a.toNat % 2 ^ 30) 0))) ∧
  (∀ (s : State),
    Live s →
    exec (.smbRead) s = .next (s.withChip (s.chip.updSmb fun x => { x with out := x.rdStat :: leBytes x.rdVal 4 }))) ∧
  (∀ (s : State) (ok : Bool) (v : BitVec 32),
    Live s → ok = true →
    exec (.smbWrite ok v) s = .next (s.withChip ((s.chip.smbAccess true s.chip.smb.addr v.toNat).updSmb fun x =>
      { x with addr := (s.chip.smb.addr + 4) % 2 ^ 30 }))) ∧
  (∀ (s : State) (ok : Bool) (v : BitVec 32),
    Live s → ok = false →
    exec (.smbWrite ok v) s = .next (s.withChip (s.chip))) ∧
  (∀ (s : State),
    Live s →
    exec (.smbWriteStatus) s = .next (s.withChip (s.chip.updSmb fun x => { x with out := [x.wrStat] }))) ∧
  (∀ (s : State) (ok : Bool),
    Live s → ok = true →
    exec (.footPark ok) s = .next (s.withChip (s.chip.setFld F.pinStat_PARKED 0 0 1))) ∧
  (∀ (s : State) (ok : Bool),
    Live s → ok = true → s.chip.boot.due = none →
    exec (.footReload ok) s = .next (s.withChip ((s.chip.setFld F.sysRstcause_FOOT 0 0 1).beginReset 1))) ∧
  (∀ (s : State) (ok : Bool),
    Live s → ok = true → s.chip.boot.due = none →
    exec (.footCold ok) s = .next (s.withChip ((s.chip.setFld F.sysRstcause_FOOT 0 0 1).beginReset 0))) ∧
  (∀ (s : State) (ok : Bool),
    Live s → ok = false →
    exec (.footPark ok) s = .next s ∧ exec (.footReload ok) s = .next s ∧ exec (.footCold ok) s = .next s)

/-- GO in PSM_DOMOFF of a domain below 66 loses its units' state and forces it off; of another changes nothing. A core
WAITING for GATE_DLY with a tolerance of 2 µs or more is gated; one not WAITING is not. With AUTO and not leaving: the
deepest state held for ENTRY_DLY (log entry 33) is entered, S1 at once, a deeper one by putting running heads into
self-refresh first, and S2 with none running saves the domains and turns off Table 16.2's; else nothing. WAKE takes the
first wake: not leaving, it begins an exit with its cause, or abandons an entry with ENTRY_ABORT. An exit with a cause from
S1 to S3 restores the units, records cause and instant, sets SUSP and raises 380. The alarm reached clears EN, sets FIRED
and wakes, not reached nothing. PSM_WAKE in S2 wakes; REARM clears SUSP. A tolerance that fits the state changes nothing;
one too small wakes the sleeping cores in S1 and starts the device in S4 (log entry 34). (rests on
spec/16_power_assay_spares.md) -/
def Obligations.PowerStates : Prop :=
  (∀ (s : State) (m : Master) (d : BitVec 7),
    Live s → Served s.chip m .psmDomoff 0 0 true → d.toNat < 66 →
    exec (.domainOff m d) s = .next (s.withChip ((((s.chip.loseDomain d.toNat).setDom d.toNat false).updPsm fun p =>
      { p with forced := (p.forced ++ [d.toNat]).eraseDups }).afterWrite s.chip m .psmDomoff 0 0 ((2 ^ 31 + d.toNat))))) ∧
  (∀ (s : State) (m : Master) (d : BitVec 7),
    Live s → Served s.chip m .psmDomoff 0 0 true → 66 ≤ d.toNat →
    exec (.domainOff m d) s = .next (s.withChip ((s.chip).afterWrite s.chip m .psmDomoff 0 0 ((2 ^ 31 + d.toNat))))) ∧
  (∀ (s : State) (k : Fin 8),
    Live s → s.chip.coreState k.1 = 3 → s.chip.fld F.psmCtrl_GATE_DLY ≠ 0 → 2 ≤ s.chip.effTol → s.chip.fld
      F.psmCtrl_GATE_DLY * 1000 ≤ sub64 s.chip.now (s.chip.core k.1).waitSince →
    exec (.coreGate k) s = .next (s.withChip ((s.chip.setDom (s.chip.physOf 0 k.1) false).setCoreState k.1 4))) ∧
  (∀ (s : State) (k : Fin 8),
    Live s → s.chip.coreState k.1 ≠ 3 →
    exec (.coreGate k) s = .next (s.withChip (s.chip))) ∧
  (∀ (s : State),
    Live s → s.chip.on F.psmCtrl_AUTO = true → s.chip.deepest = 1 → s.chip.fld F.psmStat_STATE = 0 → s.chip.psm.leaving =
      false →
    exec (.stateEntry) s = .next (s.withChip (s.chip.setFld F.psmStat_STATE 0 0 1))) ∧
  (∀ (s : State) (n : Nat),
    Live s → s.chip.on F.psmCtrl_AUTO = true → s.chip.deepest = n → 2 ≤ n → s.chip.fld F.psmStat_STATE < n →
      s.chip.psm.leaving = false → s.chip.runningHeads ≠ [] →
    exec (.stateEntry) s = .next (s.withChip ((s.chip.runningHeads.foldl (fun t h => t.psrEnter h) (s.chip.setFld
      F.psmStat_TARGET 0 0 n)).updPsm fun p => { p with heads := (p.heads ++ s.chip.runningHeads).eraseDups }))) ∧
  (∀ (s : State) (t : Chip),
    Live s → s.chip.on F.psmCtrl_AUTO = true → s.chip.deepest = 2 → s.chip.fld F.psmStat_STATE = 0 → s.chip.psm.leaving =
      false → s.chip.runningHeads = [] → s.chip.updPsm (fun p => { p with saved := s.chip.domsOn }) = t →
    exec (.stateEntry) s = .next (s.withChip (((t.setDoms (stateDoms 2) false).setFld F.psmStat_STATE 0 0 2).setFld
      F.psmStat_TARGET 0 0 0))) ∧
  (∀ (s : State),
    Live s → s.chip.on F.psmCtrl_AUTO = false ∨ s.chip.deepest ≤ s.chip.fld F.psmStat_STATE ∨ s.chip.psm.leaving = true →
    exec (.stateEntry) s = .next (s.withChip (s.chip))) ∧
  (∀ (s : State),
    Live s → s.chip.wakes = [] →
    exec (.wake) s = .next (s.withChip (s.chip))) ∧
  (∀ (s : State) (k p a : Nat) (rest : List (Nat × Nat × Nat)),
    Live s → s.chip.wakes = (k, p, a) :: rest → s.chip.psm.leaving = false → s.chip.psm.tripped = false → s.chip.fld
      F.psmStat_TARGET = 0 → s.chip.fld F.psmStat_STATE ≠ 4 →
    exec (.wake) s = .next (s.withChip ({ s.chip with wakes := rest }.updPsm fun q =>
      { q with leaving := true, quiet := false, cause := k, port := p, at_ := a }))) ∧
  (∀ (s : State) (k p a : Nat) (rest : List (Nat × Nat × Nat)),
    Live s → s.chip.wakes = (k, p, a) :: rest → s.chip.psm.leaving = false → s.chip.psm.tripped = false → s.chip.fld
      F.psmStat_TARGET ≠ 0 →
    exec (.wake) s = .next (s.withChip ((({ s.chip with wakes := rest }.updPsm fun q =>
      { q with leaving := true, quiet := false, cause := k, port := p, at_ := a }).setFld F.psmStat_TARGET 0 0 0).psmStick
      F.psmStat_ENTRY_ABORT))) ∧
  (∀ (s : State) (t : Chip),
    Live s → s.chip.psm.leaving = true → s.chip.psm.quiet = false → s.chip.psm.cause ≠ 0 → s.chip.boot.due = none →
      s.chip.fld F.psmStat_STATE ≠ 4 → (s.chip.unitsBack.setFld F.psmStat_STATE 0 0 0).updPsm (fun q =>
      { q with leaving := false, quiet := false }) = t →
    exec (.stateExit) s = .next (s.withChip ((((t.setFld F.psmWakecause_CAUSE 0 0 (Nat.lor (t.fld F.psmWakecause_CAUSE) (2 ^
      s.chip.psm.cause))).updPsm fun q => { q with waket := s.chip.psm.at_ }).setFld F.psmStat_SUSP 0 0 1).raise 380))) ∧
  (∀ (s : State),
    Live s → s.chip.psm.leaving = false →
    exec (.stateExit) s = .next (s.withChip (s.chip))) ∧
  (∀ (s : State),
    Live s → s.chip.on F.psmAlarmCtrl_EN = true → reached s.chip.now (s.chip.fld64 F.psmAlarmLo_T F.psmAlarmHi_T) = true →
    exec (.alarm) s = .next (s.withChip (((s.chip.setFld F.psmAlarmCtrl_EN 0 0 0).setFld F.psmAlarmCtrl_FIRED 0 0
      1).wakeSource 1 0))) ∧
  (∀ (s : State),
    Live s → s.chip.on F.psmAlarmCtrl_EN = false ∨ reached s.chip.now (s.chip.fld64 F.psmAlarmLo_T F.psmAlarmHi_T) = false →
    exec (.alarm) s = .next (s.withChip (s.chip))) ∧
  (∀ (s : State) (m : Master),
    Live s → Served s.chip m .psmWake 0 0 true → s.chip.fld F.psmStat_STATE = 2 →
    exec (.psmWake m) s = .next (s.withChip (({ s.chip with wakes := s.chip.wakes ++ [(4, 0, s.chip.tb.toNat)] }).afterWrite
      s.chip m .psmWake 0 0 1))) ∧
  (∀ (s : State) (m : Master) (v : BitVec 32) (t : Chip),
    Live s → Served s.chip m .psmCtrl 0 0 true → [F.psmCtrl_AUTO, F.psmCtrl_MAXSTATE, F.psmCtrl_ENTRY_DLY,
      F.psmCtrl_GATE_DLY].foldl (fun t f => t.writeFld f 0 0 (v.toNat % 2 ^ 30 + 2 ^ 30 + v.toNat / 2 ^ 31 * 2 ^ 31)) s.chip
      = t →
    exec (.rearm m v) s = .next (s.withChip ((t.setFld F.psmStat_SUSP 0 0 0).afterWrite s.chip m .psmCtrl 0 0 ((v.toNat % 2
      ^ 30 + 2 ^ 30 + v.toNat / 2 ^ 31 * 2 ^ 31))))) ∧
  (∀ (s : State),
    Live s → s.chip.exitLat (s.chip.fld F.psmStat_STATE) ≤ s.chip.effTol ∨ s.chip.fld F.psmStat_STATE = 0 ∨
      s.chip.psm.leaving = true ∨ s.chip.psm.tripped = true →
    exec (.toleranceChange) s = .next (s.withChip (s.chip))) ∧
  (∀ (s : State),
    Live s → s.chip.fld F.psmStat_STATE = 1 → s.chip.effTol < 2 → s.chip.psm.leaving = false → s.chip.psm.tripped = false →
    exec (.toleranceChange) s = .next (s.withChip (((List.range 8).foldl (fun t k => if t.coreState k = 4 then (t.setDom
      (t.physOf 0 k) true).enterWaiting k else t) s.chip).setFld F.psmStat_STATE 0 0 0))) ∧
  (∀ (s : State),
    Live s → s.chip.fld F.psmStat_STATE = 4 → s.chip.effTol < s.chip.fld F.psmS4lat_US → s.chip.psm.leaving = false →
      s.chip.psm.tripped = false →
    exec (.toleranceChange) s = .next (s.withChip
      ({ (s.chip.updPsm fun q => { q with leaving := true, quiet := true }) with boot := { s.chip.boot with due := some 2, zero := true } })))

/-- A reading shows VALID and TJ; 110 °C or more sets THERM_HI. At 120 °C or more THERM_TRIP parks the ports, turns the
domains off, requests the least voltage and stands at STATE 4; below it is a reading only. With the trip standing and no
start due, 100 °C or less starts the device; above, or without a trip, it is a reading only. AVS_PERIOD shows the paces;
with AVS off that is all; on, below S3, with the least pace below its margin and room below VMAX, the request rises by 10,
acknowledged (log entry 56). WEAR_REFRESH takes the readings given, each at most 65,535. (rests on
spec/16_power_assay_spares.md) -/
def Obligations.ThermalAndVcore : Prop :=
  (∀ (s : State) (tj : Int),
    Live s → 440 ≤ tj →
    exec (.thermHi tj) s = .next (s.withChip (((s.chip.setFld F.psmTemp_VALID 0 0 1).setFld F.psmTemp_TJ 0 0 (tc 16
      tj)).psmStick F.psmStat_THERM_HI))) ∧
  (∀ (s : State) (tj : Int),
    Live s → tj < 440 →
    exec (.thermHi tj) s = .next (s.withChip ((s.chip.setFld F.psmTemp_VALID 0 0 1).setFld F.psmTemp_TJ 0 0 (tc 16 tj)))) ∧
  (∀ (s : State) (tj : Int) (t : Chip),
    Live s → 480 ≤ tj → ((((s.chip.takeTemp tj).psmStick F.psmStat_THERM_HI).psmStick F.psmStat_THERM_TRIP).setParked
      true).setDoms (List.range 66) false = t →
    exec (.thermTrip tj) s = .next (s.withChip (((t.askLeast.setFld F.psmStat_STATE 0 0 4).setFld F.psmStat_TARGET 0 0
      0).updPsm fun p => { p with tripped := true, leaving := false, saved := [], heads := [] }))) ∧
  (∀ (s : State) (tj : Int),
    Live s → tj < 480 →
    exec (.thermTrip tj) s = .next (s.withChip (s.chip.takeTemp tj))) ∧
  (∀ (s : State) (tj : Int),
    Live s → tj ≤ 400 → s.chip.psm.tripped = true → s.chip.boot.due = none →
    exec (.thermRecover tj) s = .next (s.withChip
      ({ ((s.chip.takeTemp tj).updPsm fun p => { p with tripped := false, leaving := true, quiet := true }) with boot := { s.chip.boot with due := some 2, zero := true } }))) ∧
  (∀ (s : State) (tj : Int),
    Live s → 400 < tj ∨ s.chip.psm.tripped = false →
    exec (.thermRecover tj) s = .next (s.withChip (s.chip.takeTemp tj))) ∧
  (∀ (s : State) (paces : List Nat) (ack : Bool),
    Live s → s.chip.on F.psmAvs_AVS_EN = false →
    exec (.avsPeriod paces ack) s = .next (s.withChip ((List.range 16).foldl (fun t m => t.setFld F.psmPace_PACE m 0
      (paces.getD m 0)) s.chip))) ∧
  (∀ (s : State) (paces : List Nat) (ack : Bool) (t : Chip) (k : Nat),
    Live s → s.chip.on F.psmAvs_AVS_EN = true → s.chip.psm.noAvs = false → s.chip.fld F.psmStat_STATE < 3 → paces ≠ [] →
      (List.range 16).foldl (fun t m => t.setFld F.psmPace_PACE m 0 (paces.getD m 0)) s.chip = t → (List.range 16).foldl
      (fun a k => min a (t.fld F.psmPace_PACE k)) 0xFFFF = k → k * 400 < s.chip.fld F.psmPaceref_G * (400 + s.chip.fld
      F.psmAvs_MARGIN) → s.chip.fld F.psmVcore_REQ + 10 < s.chip.fld F.psmVlim_VMAX → s.chip.fld F.psmVlim_VMAX < 2 ^ 16 →
      ack = true →
    exec (.avsPeriod paces ack) s = .next (s.withChip (((t.updPsm fun p => { p with slow := 0 }).askVcore (s.chip.fld
      F.psmVcore_REQ + 10)).updPsm fun p => { p with unacked := false }))) ∧
  (∀ (s : State) (ws : List Nat),
    Live s →
    exec (.wearRefresh ws) s = .next (s.withChip ((List.range 16).foldl (fun t m => if h : m < ws.length then t.setFld
      F.psmPace_WEAR m 0 (min ws[m] 0xFFFF) else t) s.chip)))
end

