-- ==== Sys2Proof/Laws/Exec.lean ====
section
/-! SUPPORT. What a command can do to the state around the chip, said once: all but three act on the chip alone. -/

namespace Sys2Proof.Machine

/-- The commands that touch what stands around the chip. -/
def outside (i : Instr) : Bool :=
  match i with
  | .powerOnReset _ | .powerOnResetRelease _ | .testmode _ => true
  | _ => false

theorem State.act_form (s : State) (f : Chip → Chip) : ∃ g : Chip → Chip, s.act f = s.act g := ⟨f, rfl⟩

theorem State.always_form (s : State) (f : Chip → Chip) : ∃ g : Chip → Chip, s.always f = s.always g := ⟨f, rfl⟩

theorem exec_act (i : Instr) (s : State) (h : actsInReset i = false) : ∃ f, exec i s = s.act f := by
  cases i
  case tick | tbPllLock | railEnter | railLeave | vioChange | pinEdge | powerOnReset | powerOnResetRelease | testmode =>
    contradiction
  all_goals (dsimp only [exec]; exact State.act_form s _)

theorem exec_chip (i : Instr) (s : State) (h : outside i = false) :
    (∃ f, exec i s = s.act f) ∨ ∃ f, exec i s = s.always f := by
  cases i
  case powerOnReset | powerOnResetRelease | testmode => contradiction
  case tick | tbPllLock | railEnter | railLeave | vioChange | pinEdge =>
    dsimp only [exec, execRailEnter, execRailLeave, execVioChange, State.railEnter, State.railLeave, State.vioChange]
    exact .inr (State.always_form s _)
  all_goals exact .inl (exec_act _ s rfl)

theorem State.act_sup {s t : State} {f : Chip → Chip} (h : s.act f = .next t) : t.sup = s.sup := by
  cases h; split <;> rfl

theorem State.always_sup {s t : State} {f : Chip → Chip} (h : s.always f = .next t) : t.sup = s.sup := by
  cases h; rfl

end Sys2Proof.Machine
end

