-- ==== Sys2Proof/Laws/State.lean ====
section
/-! SUPPORT. What each update of the state leaves: one law per field and update, true by definition. -/

namespace Sys2Proof.Machine

variable (s : Chip)

/-! ### A register field -/

@[simp] theorem Chip.setFld_mem (g : Fd) (i j v : Nat) : (s.setFld g i j v).mem = s.mem := rfl
@[simp] theorem Chip.setFld_marks (g : Fd) (i j v : Nat) : (s.setFld g i j v).marks = s.marks := rfl
@[simp] theorem Chip.setFld_tb (g : Fd) (i j v : Nat) : (s.setFld g i j v).tb = s.tb := rfl
@[simp] theorem Chip.setFld_wraps (g : Fd) (i j v : Nat) : (s.setFld g i j v).wraps = s.wraps := rfl
@[simp] theorem Chip.setFld_freeCtr (g : Fd) (i j v : Nat) : (s.setFld g i j v).freeCtr = s.freeCtr := rfl
@[simp] theorem Chip.setFld_elog (g : Fd) (i j v : Nat) : (s.setFld g i j v).elog = s.elog := rfl
@[simp] theorem Chip.setFld_resps (g : Fd) (i j v : Nat) : (s.setFld g i j v).resps = s.resps := rfl
@[simp] theorem Chip.setFld_evq (g : Fd) (i j v : Nat) : (s.setFld g i j v).evq = s.evq := rfl
@[simp] theorem Chip.setFld_evAt (g : Fd) (i j v : Nat) : (s.setFld g i j v).evAt = s.evAt := rfl
@[simp] theorem Chip.setFld_evHops (g : Fd) (i j v : Nat) : (s.setFld g i j v).evHops = s.evHops := rfl
@[simp] theorem Chip.setFld_ceHours (g : Fd) (i j v : Nat) : (s.setFld g i j v).ceHours = s.ceHours := rfl
@[simp] theorem Chip.setFld_heads (g : Fd) (i j v : Nat) : (s.setFld g i j v).heads = s.heads := rfl
@[simp] theorem Chip.setFld_genlock (g : Fd) (i j v : Nat) : (s.setFld g i j v).genlock = s.genlock := rfl
@[simp] theorem Chip.setFld_lpes (g : Fd) (i j v : Nat) : (s.setFld g i j v).lpes = s.lpes := rfl
@[simp] theorem Chip.setFld_comps (g : Fd) (i j v : Nat) : (s.setFld g i j v).comps = s.comps := rfl
@[simp] theorem Chip.setFld_lineCopies (g : Fd) (i j v : Nat) : (s.setFld g i j v).lineCopies = s.lineCopies := rfl
@[simp] theorem Chip.setFld_liveDirty (g : Fd) (i j v : Nat) : (s.setFld g i j v).liveDirty = s.liveDirty := rfl
@[simp] theorem Chip.setFld_regions (g : Fd) (i j v : Nat) : (s.setFld g i j v).regions = s.regions := rfl
@[simp] theorem Chip.setFld_issueQ (g : Fd) (i j v : Nat) : (s.setFld g i j v).issueQ = s.issueQ := rfl
@[simp] theorem Chip.setFld_links (g : Fd) (i j v : Nat) : (s.setFld g i j v).links = s.links := rfl
@[simp] theorem Chip.setFld_net (g : Fd) (i j v : Nat) : (s.setFld g i j v).net = s.net := rfl
@[simp] theorem Chip.setFld_tbHi (g : Fd) (i j v : Nat) : (s.setFld g i j v).tbHi = s.tbHi := rfl
@[simp] theorem Chip.setFld_cmps (g : Fd) (i j v : Nat) : (s.setFld g i j v).cmps = s.cmps := rfl
@[simp] theorem Chip.setFld_intvs (g : Fd) (i j v : Nat) : (s.setFld g i j v).intvs = s.intvs := rfl
@[simp] theorem Chip.setFld_caps (g : Fd) (i j v : Nat) : (s.setFld g i j v).caps = s.caps := rfl
@[simp] theorem Chip.setFld_adc (g : Fd) (i j v : Nat) : (s.setFld g i j v).adc = s.adc := rfl
@[simp] theorem Chip.setFld_retired (g : Fd) (i j v : Nat) : (s.setFld g i j v).retired = s.retired := rfl
@[simp] theorem Chip.setFld_cores (g : Fd) (i j v : Nat) : (s.setFld g i j v).cores = s.cores := rfl
@[simp] theorem Chip.setFld_mbx (g : Fd) (i j v : Nat) : (s.setFld g i j v).mbx = s.mbx := rfl
@[simp] theorem Chip.setFld_stages (g : Fd) (i j v : Nat) : (s.setFld g i j v).stages = s.stages := rfl
@[simp] theorem Chip.setFld_phys (g : Fd) (i j v : Nat) : (s.setFld g i j v).phys = s.phys := rfl
@[simp] theorem Chip.setFld_unusable (g : Fd) (i j v : Nat) : (s.setFld g i j v).unusable = s.unusable := rfl
@[simp] theorem Chip.setFld_dead (g : Fd) (i j v : Nat) : (s.setFld g i j v).dead = s.dead := rfl
@[simp] theorem Chip.setFld_wakes (g : Fd) (i j v : Nat) : (s.setFld g i j v).wakes = s.wakes := rfl
@[simp] theorem Chip.setFld_psm (g : Fd) (i j v : Nat) : (s.setFld g i j v).psm = s.psm := rfl
@[simp] theorem Chip.setFld_asy (g : Fd) (i j v : Nat) : (s.setFld g i j v).asy = s.asy := rfl
@[simp] theorem Chip.setFld_boot (g : Fd) (i j v : Nat) : (s.setFld g i j v).boot = s.boot := rfl
@[simp] theorem Chip.setFld_pcie (g : Fd) (i j v : Nat) : (s.setFld g i j v).pcie = s.pcie := rfl
@[simp] theorem Chip.setFld_smb (g : Fd) (i j v : Nat) : (s.setFld g i j v).smb = s.smb := rfl
@[simp] theorem Chip.setFld_busMaster (g : Fd) (i j v : Nat) : (s.setFld g i j v).busMaster = s.busMaster := rfl
@[simp] theorem Chip.setFld_blt (g : Fd) (i j v : Nat) : (s.setFld g i j v).blt = s.blt := rfl
@[simp] theorem Chip.setFld_dma (g : Fd) (i j v : Nat) : (s.setFld g i j v).dma = s.dma := rfl
@[simp] theorem Chip.setFld_dmaRr (g : Fd) (i j v : Nat) : (s.setFld g i j v).dmaRr = s.dmaRr := rfl
@[simp] theorem Chip.setFld_pads (g : Fd) (i j v : Nat) : (s.setFld g i j v).pads = s.pads := rfl
@[simp] theorem Chip.setFld_vio (g : Fd) (i j v : Nat) : (s.setFld g i j v).vio = s.vio := rfl
@[simp] theorem Chip.setFld_lockSeq (g : Fd) (i j v : Nat) : (s.setFld g i j v).lockSeq = s.lockSeq := rfl
@[simp] theorem Chip.setFld_samples (g : Fd) (i j v : Nat) : (s.setFld g i j v).samples = s.samples := rfl
@[simp] theorem Chip.setFld_evkAt (g : Fd) (i j v : Nat) : (s.setFld g i j v).evkAt = s.evkAt := rfl
@[simp] theorem Chip.setFld_skipped (g : Fd) (i j v : Nat) : (s.setFld g i j v).skipped = s.skipped := rfl
@[simp] theorem Chip.setFld_waits (g : Fd) (i j v : Nat) : (s.setFld g i j v).waits = s.waits := rfl
@[simp] theorem Chip.setFld_serials (g : Fd) (i j v : Nat) : (s.setFld g i j v).serials = s.serials := rfl
@[simp] theorem Chip.setFld_psqs (g : Fd) (i j v : Nat) : (s.setFld g i j v).psqs = s.psqs := rfl
@[simp] theorem Chip.setFld_snd (g : Fd) (i j v : Nat) : (s.setFld g i j v).snd = s.snd := rfl
@[simp] theorem Chip.setFld_repair (g : Fd) (i j v : Nat) : (s.setFld g i j v).repair = s.repair := rfl
@[simp] theorem Chip.setFld_held (g : Fd) (i j v : Nat) : (s.setFld g i j v).held = s.held := rfl

/-! ### A response -/

@[simp] theorem Chip.respond_flds (a : Access) (k : RespKind) (d : Nat) : (s.respond a k d).flds = s.flds := rfl
@[simp] theorem Chip.respond_mem (a : Access) (k : RespKind) (d : Nat) : (s.respond a k d).mem = s.mem := rfl
@[simp] theorem Chip.respond_marks (a : Access) (k : RespKind) (d : Nat) : (s.respond a k d).marks = s.marks := rfl
@[simp] theorem Chip.respond_tb (a : Access) (k : RespKind) (d : Nat) : (s.respond a k d).tb = s.tb := rfl
@[simp] theorem Chip.respond_wraps (a : Access) (k : RespKind) (d : Nat) : (s.respond a k d).wraps = s.wraps := rfl
@[simp] theorem Chip.respond_freeCtr (a : Access) (k : RespKind) (d : Nat) : (s.respond a k d).freeCtr = s.freeCtr := rfl
@[simp] theorem Chip.respond_elog (a : Access) (k : RespKind) (d : Nat) : (s.respond a k d).elog = s.elog := rfl
@[simp] theorem Chip.respond_evq (a : Access) (k : RespKind) (d : Nat) : (s.respond a k d).evq = s.evq := rfl
@[simp] theorem Chip.respond_evAt (a : Access) (k : RespKind) (d : Nat) : (s.respond a k d).evAt = s.evAt := rfl
@[simp] theorem Chip.respond_evHops (a : Access) (k : RespKind) (d : Nat) : (s.respond a k d).evHops = s.evHops := rfl
@[simp] theorem Chip.respond_ceHours (a : Access) (k : RespKind) (d : Nat) : (s.respond a k d).ceHours = s.ceHours := rfl
@[simp] theorem Chip.respond_heads (a : Access) (k : RespKind) (d : Nat) : (s.respond a k d).heads = s.heads := rfl
@[simp] theorem Chip.respond_genlock (a : Access) (k : RespKind) (d : Nat) : (s.respond a k d).genlock = s.genlock := rfl
@[simp] theorem Chip.respond_lpes (a : Access) (k : RespKind) (d : Nat) : (s.respond a k d).lpes = s.lpes := rfl
@[simp] theorem Chip.respond_comps (a : Access) (k : RespKind) (d : Nat) : (s.respond a k d).comps = s.comps := rfl
@[simp] theorem Chip.respond_lineCopies (a : Access) (k : RespKind) (d : Nat) : (s.respond a k d).lineCopies = s.lineCopies := rfl
@[simp] theorem Chip.respond_liveDirty (a : Access) (k : RespKind) (d : Nat) : (s.respond a k d).liveDirty = s.liveDirty := rfl
@[simp] theorem Chip.respond_regions (a : Access) (k : RespKind) (d : Nat) : (s.respond a k d).regions = s.regions := rfl
@[simp] theorem Chip.respond_issueQ (a : Access) (k : RespKind) (d : Nat) : (s.respond a k d).issueQ = s.issueQ := rfl
@[simp] theorem Chip.respond_links (a : Access) (k : RespKind) (d : Nat) : (s.respond a k d).links = s.links := rfl
@[simp] theorem Chip.respond_net (a : Access) (k : RespKind) (d : Nat) : (s.respond a k d).net = s.net := rfl
@[simp] theorem Chip.respond_tbHi (a : Access) (k : RespKind) (d : Nat) : (s.respond a k d).tbHi = s.tbHi := rfl
@[simp] theorem Chip.respond_cmps (a : Access) (k : RespKind) (d : Nat) : (s.respond a k d).cmps = s.cmps := rfl
@[simp] theorem Chip.respond_intvs (a : Access) (k : RespKind) (d : Nat) : (s.respond a k d).intvs = s.intvs := rfl
@[simp] theorem Chip.respond_caps (a : Access) (k : RespKind) (d : Nat) : (s.respond a k d).caps = s.caps := rfl
@[simp] theorem Chip.respond_adc (a : Access) (k : RespKind) (d : Nat) : (s.respond a k d).adc = s.adc := rfl
@[simp] theorem Chip.respond_retired (a : Access) (k : RespKind) (d : Nat) : (s.respond a k d).retired = s.retired := rfl
@[simp] theorem Chip.respond_cores (a : Access) (k : RespKind) (d : Nat) : (s.respond a k d).cores = s.cores := rfl
@[simp] theorem Chip.respond_mbx (a : Access) (k : RespKind) (d : Nat) : (s.respond a k d).mbx = s.mbx := rfl
@[simp] theorem Chip.respond_stages (a : Access) (k : RespKind) (d : Nat) : (s.respond a k d).stages = s.stages := rfl
@[simp] theorem Chip.respond_phys (a : Access) (k : RespKind) (d : Nat) : (s.respond a k d).phys = s.phys := rfl
@[simp] theorem Chip.respond_unusable (a : Access) (k : RespKind) (d : Nat) : (s.respond a k d).unusable = s.unusable := rfl
@[simp] theorem Chip.respond_dead (a : Access) (k : RespKind) (d : Nat) : (s.respond a k d).dead = s.dead := rfl
@[simp] theorem Chip.respond_wakes (a : Access) (k : RespKind) (d : Nat) : (s.respond a k d).wakes = s.wakes := rfl
@[simp] theorem Chip.respond_psm (a : Access) (k : RespKind) (d : Nat) : (s.respond a k d).psm = s.psm := rfl
@[simp] theorem Chip.respond_asy (a : Access) (k : RespKind) (d : Nat) : (s.respond a k d).asy = s.asy := rfl
@[simp] theorem Chip.respond_boot (a : Access) (k : RespKind) (d : Nat) : (s.respond a k d).boot = s.boot := rfl
@[simp] theorem Chip.respond_pcie (a : Access) (k : RespKind) (d : Nat) : (s.respond a k d).pcie = s.pcie := rfl
@[simp] theorem Chip.respond_smb (a : Access) (k : RespKind) (d : Nat) : (s.respond a k d).smb = s.smb := rfl
@[simp] theorem Chip.respond_busMaster (a : Access) (k : RespKind) (d : Nat) : (s.respond a k d).busMaster = s.busMaster := rfl
@[simp] theorem Chip.respond_blt (a : Access) (k : RespKind) (d : Nat) : (s.respond a k d).blt = s.blt := rfl
@[simp] theorem Chip.respond_dma (a : Access) (k : RespKind) (d : Nat) : (s.respond a k d).dma = s.dma := rfl
@[simp] theorem Chip.respond_dmaRr (a : Access) (k : RespKind) (d : Nat) : (s.respond a k d).dmaRr = s.dmaRr := rfl
@[simp] theorem Chip.respond_pads (a : Access) (k : RespKind) (d : Nat) : (s.respond a k d).pads = s.pads := rfl
@[simp] theorem Chip.respond_vio (a : Access) (k : RespKind) (d : Nat) : (s.respond a k d).vio = s.vio := rfl
@[simp] theorem Chip.respond_lockSeq (a : Access) (k : RespKind) (d : Nat) : (s.respond a k d).lockSeq = s.lockSeq := rfl
@[simp] theorem Chip.respond_samples (a : Access) (k : RespKind) (d : Nat) : (s.respond a k d).samples = s.samples := rfl
@[simp] theorem Chip.respond_evkAt (a : Access) (k : RespKind) (d : Nat) : (s.respond a k d).evkAt = s.evkAt := rfl
@[simp] theorem Chip.respond_skipped (a : Access) (k : RespKind) (d : Nat) : (s.respond a k d).skipped = s.skipped := rfl
@[simp] theorem Chip.respond_waits (a : Access) (k : RespKind) (d : Nat) : (s.respond a k d).waits = s.waits := rfl
@[simp] theorem Chip.respond_serials (a : Access) (k : RespKind) (d : Nat) : (s.respond a k d).serials = s.serials := rfl
@[simp] theorem Chip.respond_psqs (a : Access) (k : RespKind) (d : Nat) : (s.respond a k d).psqs = s.psqs := rfl
@[simp] theorem Chip.respond_snd (a : Access) (k : RespKind) (d : Nat) : (s.respond a k d).snd = s.snd := rfl
@[simp] theorem Chip.respond_repair (a : Access) (k : RespKind) (d : Nat) : (s.respond a k d).repair = s.repair := rfl
@[simp] theorem Chip.respond_held (a : Access) (k : RespKind) (d : Nat) : (s.respond a k d).held = s.held := rfl

/-! ### An event on its way -/

@[simp] theorem Chip.enqueue_flds (p h : Nat) : (s.enqueue p h).flds = s.flds := rfl
@[simp] theorem Chip.enqueue_mem (p h : Nat) : (s.enqueue p h).mem = s.mem := rfl
@[simp] theorem Chip.enqueue_marks (p h : Nat) : (s.enqueue p h).marks = s.marks := rfl
@[simp] theorem Chip.enqueue_tb (p h : Nat) : (s.enqueue p h).tb = s.tb := rfl
@[simp] theorem Chip.enqueue_wraps (p h : Nat) : (s.enqueue p h).wraps = s.wraps := rfl
@[simp] theorem Chip.enqueue_freeCtr (p h : Nat) : (s.enqueue p h).freeCtr = s.freeCtr := rfl
@[simp] theorem Chip.enqueue_elog (p h : Nat) : (s.enqueue p h).elog = s.elog := rfl
@[simp] theorem Chip.enqueue_resps (p h : Nat) : (s.enqueue p h).resps = s.resps := rfl
@[simp] theorem Chip.enqueue_evAt (p h : Nat) : (s.enqueue p h).evAt = s.evAt := rfl
@[simp] theorem Chip.enqueue_evHops (p h : Nat) : (s.enqueue p h).evHops = s.evHops := rfl
@[simp] theorem Chip.enqueue_ceHours (p h : Nat) : (s.enqueue p h).ceHours = s.ceHours := rfl
@[simp] theorem Chip.enqueue_heads (p h : Nat) : (s.enqueue p h).heads = s.heads := rfl
@[simp] theorem Chip.enqueue_genlock (p h : Nat) : (s.enqueue p h).genlock = s.genlock := rfl
@[simp] theorem Chip.enqueue_lpes (p h : Nat) : (s.enqueue p h).lpes = s.lpes := rfl
@[simp] theorem Chip.enqueue_comps (p h : Nat) : (s.enqueue p h).comps = s.comps := rfl
@[simp] theorem Chip.enqueue_lineCopies (p h : Nat) : (s.enqueue p h).lineCopies = s.lineCopies := rfl
@[simp] theorem Chip.enqueue_liveDirty (p h : Nat) : (s.enqueue p h).liveDirty = s.liveDirty := rfl
@[simp] theorem Chip.enqueue_regions (p h : Nat) : (s.enqueue p h).regions = s.regions := rfl
@[simp] theorem Chip.enqueue_issueQ (p h : Nat) : (s.enqueue p h).issueQ = s.issueQ := rfl
@[simp] theorem Chip.enqueue_links (p h : Nat) : (s.enqueue p h).links = s.links := rfl
@[simp] theorem Chip.enqueue_net (p h : Nat) : (s.enqueue p h).net = s.net := rfl
@[simp] theorem Chip.enqueue_tbHi (p h : Nat) : (s.enqueue p h).tbHi = s.tbHi := rfl
@[simp] theorem Chip.enqueue_cmps (p h : Nat) : (s.enqueue p h).cmps = s.cmps := rfl
@[simp] theorem Chip.enqueue_intvs (p h : Nat) : (s.enqueue p h).intvs = s.intvs := rfl
@[simp] theorem Chip.enqueue_caps (p h : Nat) : (s.enqueue p h).caps = s.caps := rfl
@[simp] theorem Chip.enqueue_adc (p h : Nat) : (s.enqueue p h).adc = s.adc := rfl
@[simp] theorem Chip.enqueue_retired (p h : Nat) : (s.enqueue p h).retired = s.retired := rfl
@[simp] theorem Chip.enqueue_cores (p h : Nat) : (s.enqueue p h).cores = s.cores := rfl
@[simp] theorem Chip.enqueue_mbx (p h : Nat) : (s.enqueue p h).mbx = s.mbx := rfl
@[simp] theorem Chip.enqueue_stages (p h : Nat) : (s.enqueue p h).stages = s.stages := rfl
@[simp] theorem Chip.enqueue_phys (p h : Nat) : (s.enqueue p h).phys = s.phys := rfl
@[simp] theorem Chip.enqueue_unusable (p h : Nat) : (s.enqueue p h).unusable = s.unusable := rfl
@[simp] theorem Chip.enqueue_dead (p h : Nat) : (s.enqueue p h).dead = s.dead := rfl
@[simp] theorem Chip.enqueue_wakes (p h : Nat) : (s.enqueue p h).wakes = s.wakes := rfl
@[simp] theorem Chip.enqueue_psm (p h : Nat) : (s.enqueue p h).psm = s.psm := rfl
@[simp] theorem Chip.enqueue_asy (p h : Nat) : (s.enqueue p h).asy = s.asy := rfl
@[simp] theorem Chip.enqueue_boot (p h : Nat) : (s.enqueue p h).boot = s.boot := rfl
@[simp] theorem Chip.enqueue_pcie (p h : Nat) : (s.enqueue p h).pcie = s.pcie := rfl
@[simp] theorem Chip.enqueue_smb (p h : Nat) : (s.enqueue p h).smb = s.smb := rfl
@[simp] theorem Chip.enqueue_busMaster (p h : Nat) : (s.enqueue p h).busMaster = s.busMaster := rfl
@[simp] theorem Chip.enqueue_blt (p h : Nat) : (s.enqueue p h).blt = s.blt := rfl
@[simp] theorem Chip.enqueue_dma (p h : Nat) : (s.enqueue p h).dma = s.dma := rfl
@[simp] theorem Chip.enqueue_dmaRr (p h : Nat) : (s.enqueue p h).dmaRr = s.dmaRr := rfl
@[simp] theorem Chip.enqueue_pads (p h : Nat) : (s.enqueue p h).pads = s.pads := rfl
@[simp] theorem Chip.enqueue_vio (p h : Nat) : (s.enqueue p h).vio = s.vio := rfl
@[simp] theorem Chip.enqueue_lockSeq (p h : Nat) : (s.enqueue p h).lockSeq = s.lockSeq := rfl
@[simp] theorem Chip.enqueue_samples (p h : Nat) : (s.enqueue p h).samples = s.samples := rfl
@[simp] theorem Chip.enqueue_evkAt (p h : Nat) : (s.enqueue p h).evkAt = s.evkAt := rfl
@[simp] theorem Chip.enqueue_skipped (p h : Nat) : (s.enqueue p h).skipped = s.skipped := rfl
@[simp] theorem Chip.enqueue_waits (p h : Nat) : (s.enqueue p h).waits = s.waits := rfl
@[simp] theorem Chip.enqueue_serials (p h : Nat) : (s.enqueue p h).serials = s.serials := rfl
@[simp] theorem Chip.enqueue_psqs (p h : Nat) : (s.enqueue p h).psqs = s.psqs := rfl
@[simp] theorem Chip.enqueue_snd (p h : Nat) : (s.enqueue p h).snd = s.snd := rfl
@[simp] theorem Chip.enqueue_repair (p h : Nat) : (s.enqueue p h).repair = s.repair := rfl
@[simp] theorem Chip.enqueue_held (p h : Nat) : (s.enqueue p h).held = s.held := rfl

/-! ### A unit's own part -/

@[simp] theorem Chip.updAsy_flds (f : Asy → Asy) : (s.updAsy f).flds = s.flds := rfl
@[simp] theorem Chip.updAsy_mem (f : Asy → Asy) : (s.updAsy f).mem = s.mem := rfl
@[simp] theorem Chip.updAsy_marks (f : Asy → Asy) : (s.updAsy f).marks = s.marks := rfl
@[simp] theorem Chip.updAsy_tb (f : Asy → Asy) : (s.updAsy f).tb = s.tb := rfl
@[simp] theorem Chip.updAsy_freeCtr (f : Asy → Asy) : (s.updAsy f).freeCtr = s.freeCtr := rfl
@[simp] theorem Chip.updAsy_elog (f : Asy → Asy) : (s.updAsy f).elog = s.elog := rfl
@[simp] theorem Chip.updAsy_resps (f : Asy → Asy) : (s.updAsy f).resps = s.resps := rfl
@[simp] theorem Chip.updAsy_evq (f : Asy → Asy) : (s.updAsy f).evq = s.evq := rfl
@[simp] theorem Chip.updAsy_phys (f : Asy → Asy) : (s.updAsy f).phys = s.phys := rfl
@[simp] theorem Chip.updAsy_boot (f : Asy → Asy) : (s.updAsy f).boot = s.boot := rfl
@[simp] theorem Chip.updAsy_psm (f : Asy → Asy) : (s.updAsy f).psm = s.psm := rfl
@[simp] theorem Chip.updAsy_vio (f : Asy → Asy) : (s.updAsy f).vio = s.vio := rfl
@[simp] theorem Chip.updAsy_pads (f : Asy → Asy) : (s.updAsy f).pads = s.pads := rfl
@[simp] theorem Chip.updAsy_fld (f : Asy → Asy) (g : Fd) (i j : Nat) : (s.updAsy f).fld g i j = s.fld g i j := rfl
@[simp] theorem Chip.updPsm_flds (f : Psm → Psm) : (s.updPsm f).flds = s.flds := rfl
@[simp] theorem Chip.updPsm_mem (f : Psm → Psm) : (s.updPsm f).mem = s.mem := rfl
@[simp] theorem Chip.updPsm_marks (f : Psm → Psm) : (s.updPsm f).marks = s.marks := rfl
@[simp] theorem Chip.updPsm_tb (f : Psm → Psm) : (s.updPsm f).tb = s.tb := rfl
@[simp] theorem Chip.updPsm_freeCtr (f : Psm → Psm) : (s.updPsm f).freeCtr = s.freeCtr := rfl
@[simp] theorem Chip.updPsm_elog (f : Psm → Psm) : (s.updPsm f).elog = s.elog := rfl
@[simp] theorem Chip.updPsm_resps (f : Psm → Psm) : (s.updPsm f).resps = s.resps := rfl
@[simp] theorem Chip.updPsm_evq (f : Psm → Psm) : (s.updPsm f).evq = s.evq := rfl
@[simp] theorem Chip.updPsm_phys (f : Psm → Psm) : (s.updPsm f).phys = s.phys := rfl
@[simp] theorem Chip.updPsm_boot (f : Psm → Psm) : (s.updPsm f).boot = s.boot := rfl
@[simp] theorem Chip.updPsm_vio (f : Psm → Psm) : (s.updPsm f).vio = s.vio := rfl
@[simp] theorem Chip.updPsm_pads (f : Psm → Psm) : (s.updPsm f).pads = s.pads := rfl
@[simp] theorem Chip.updPsm_fld (f : Psm → Psm) (g : Fd) (i j : Nat) : (s.updPsm f).fld g i j = s.fld g i j := rfl
@[simp] theorem Chip.updPcie_flds (f : Pcie → Pcie) : (s.updPcie f).flds = s.flds := rfl
@[simp] theorem Chip.updPcie_mem (f : Pcie → Pcie) : (s.updPcie f).mem = s.mem := rfl
@[simp] theorem Chip.updPcie_marks (f : Pcie → Pcie) : (s.updPcie f).marks = s.marks := rfl
@[simp] theorem Chip.updPcie_tb (f : Pcie → Pcie) : (s.updPcie f).tb = s.tb := rfl
@[simp] theorem Chip.updPcie_freeCtr (f : Pcie → Pcie) : (s.updPcie f).freeCtr = s.freeCtr := rfl
@[simp] theorem Chip.updPcie_elog (f : Pcie → Pcie) : (s.updPcie f).elog = s.elog := rfl
@[simp] theorem Chip.updPcie_resps (f : Pcie → Pcie) : (s.updPcie f).resps = s.resps := rfl
@[simp] theorem Chip.updPcie_evq (f : Pcie → Pcie) : (s.updPcie f).evq = s.evq := rfl
@[simp] theorem Chip.updPcie_phys (f : Pcie → Pcie) : (s.updPcie f).phys = s.phys := rfl
@[simp] theorem Chip.updPcie_boot (f : Pcie → Pcie) : (s.updPcie f).boot = s.boot := rfl
@[simp] theorem Chip.updPcie_psm (f : Pcie → Pcie) : (s.updPcie f).psm = s.psm := rfl
@[simp] theorem Chip.updPcie_vio (f : Pcie → Pcie) : (s.updPcie f).vio = s.vio := rfl
@[simp] theorem Chip.updPcie_pads (f : Pcie → Pcie) : (s.updPcie f).pads = s.pads := rfl
@[simp] theorem Chip.updPcie_fld (f : Pcie → Pcie) (g : Fd) (i j : Nat) : (s.updPcie f).fld g i j = s.fld g i j := rfl
@[simp] theorem Chip.updSmb_flds (f : Smb → Smb) : (s.updSmb f).flds = s.flds := rfl
@[simp] theorem Chip.updSmb_mem (f : Smb → Smb) : (s.updSmb f).mem = s.mem := rfl
@[simp] theorem Chip.updSmb_marks (f : Smb → Smb) : (s.updSmb f).marks = s.marks := rfl
@[simp] theorem Chip.updSmb_tb (f : Smb → Smb) : (s.updSmb f).tb = s.tb := rfl
@[simp] theorem Chip.updSmb_freeCtr (f : Smb → Smb) : (s.updSmb f).freeCtr = s.freeCtr := rfl
@[simp] theorem Chip.updSmb_elog (f : Smb → Smb) : (s.updSmb f).elog = s.elog := rfl
@[simp] theorem Chip.updSmb_resps (f : Smb → Smb) : (s.updSmb f).resps = s.resps := rfl
@[simp] theorem Chip.updSmb_evq (f : Smb → Smb) : (s.updSmb f).evq = s.evq := rfl
@[simp] theorem Chip.updSmb_phys (f : Smb → Smb) : (s.updSmb f).phys = s.phys := rfl
@[simp] theorem Chip.updSmb_boot (f : Smb → Smb) : (s.updSmb f).boot = s.boot := rfl
@[simp] theorem Chip.updSmb_psm (f : Smb → Smb) : (s.updSmb f).psm = s.psm := rfl
@[simp] theorem Chip.updSmb_vio (f : Smb → Smb) : (s.updSmb f).vio = s.vio := rfl
@[simp] theorem Chip.updSmb_pads (f : Smb → Smb) : (s.updSmb f).pads = s.pads := rfl
@[simp] theorem Chip.updSmb_fld (f : Smb → Smb) (g : Fd) (i j : Nat) : (s.updSmb f).fld g i j = s.fld g i j := rfl
@[simp] theorem Chip.updNet_flds (f : Net → Net) : (s.updNet f).flds = s.flds := rfl
@[simp] theorem Chip.updNet_mem (f : Net → Net) : (s.updNet f).mem = s.mem := rfl
@[simp] theorem Chip.updNet_marks (f : Net → Net) : (s.updNet f).marks = s.marks := rfl
@[simp] theorem Chip.updNet_tb (f : Net → Net) : (s.updNet f).tb = s.tb := rfl
@[simp] theorem Chip.updNet_freeCtr (f : Net → Net) : (s.updNet f).freeCtr = s.freeCtr := rfl
@[simp] theorem Chip.updNet_elog (f : Net → Net) : (s.updNet f).elog = s.elog := rfl
@[simp] theorem Chip.updNet_resps (f : Net → Net) : (s.updNet f).resps = s.resps := rfl
@[simp] theorem Chip.updNet_evq (f : Net → Net) : (s.updNet f).evq = s.evq := rfl
@[simp] theorem Chip.updNet_phys (f : Net → Net) : (s.updNet f).phys = s.phys := rfl
@[simp] theorem Chip.updNet_boot (f : Net → Net) : (s.updNet f).boot = s.boot := rfl
@[simp] theorem Chip.updNet_psm (f : Net → Net) : (s.updNet f).psm = s.psm := rfl
@[simp] theorem Chip.updNet_vio (f : Net → Net) : (s.updNet f).vio = s.vio := rfl
@[simp] theorem Chip.updNet_pads (f : Net → Net) : (s.updNet f).pads = s.pads := rfl
@[simp] theorem Chip.updNet_fld (f : Net → Net) (g : Fd) (i j : Nat) : (s.updNet f).fld g i j = s.fld g i j := rfl
@[simp] theorem Chip.updBoot_flds (f : Boot → Boot) : (s.updBoot f).flds = s.flds := rfl
@[simp] theorem Chip.updBoot_mem (f : Boot → Boot) : (s.updBoot f).mem = s.mem := rfl
@[simp] theorem Chip.updBoot_marks (f : Boot → Boot) : (s.updBoot f).marks = s.marks := rfl
@[simp] theorem Chip.updBoot_tb (f : Boot → Boot) : (s.updBoot f).tb = s.tb := rfl
@[simp] theorem Chip.updBoot_freeCtr (f : Boot → Boot) : (s.updBoot f).freeCtr = s.freeCtr := rfl
@[simp] theorem Chip.updBoot_elog (f : Boot → Boot) : (s.updBoot f).elog = s.elog := rfl
@[simp] theorem Chip.updBoot_resps (f : Boot → Boot) : (s.updBoot f).resps = s.resps := rfl
@[simp] theorem Chip.updBoot_evq (f : Boot → Boot) : (s.updBoot f).evq = s.evq := rfl
@[simp] theorem Chip.updBoot_phys (f : Boot → Boot) : (s.updBoot f).phys = s.phys := rfl
@[simp] theorem Chip.updBoot_psm (f : Boot → Boot) : (s.updBoot f).psm = s.psm := rfl
@[simp] theorem Chip.updBoot_vio (f : Boot → Boot) : (s.updBoot f).vio = s.vio := rfl
@[simp] theorem Chip.updBoot_pads (f : Boot → Boot) : (s.updBoot f).pads = s.pads := rfl
@[simp] theorem Chip.updBoot_fld (f : Boot → Boot) (g : Fd) (i j : Nat) : (s.updBoot f).fld g i j = s.fld g i j := rfl
@[simp] theorem Chip.updSnd_flds (f : Sound → Sound) : (s.updSnd f).flds = s.flds := rfl
@[simp] theorem Chip.updSnd_mem (f : Sound → Sound) : (s.updSnd f).mem = s.mem := rfl
@[simp] theorem Chip.updSnd_marks (f : Sound → Sound) : (s.updSnd f).marks = s.marks := rfl
@[simp] theorem Chip.updSnd_tb (f : Sound → Sound) : (s.updSnd f).tb = s.tb := rfl
@[simp] theorem Chip.updSnd_freeCtr (f : Sound → Sound) : (s.updSnd f).freeCtr = s.freeCtr := rfl
@[simp] theorem Chip.updSnd_elog (f : Sound → Sound) : (s.updSnd f).elog = s.elog := rfl
@[simp] theorem Chip.updSnd_resps (f : Sound → Sound) : (s.updSnd f).resps = s.resps := rfl
@[simp] theorem Chip.updSnd_evq (f : Sound → Sound) : (s.updSnd f).evq = s.evq := rfl
@[simp] theorem Chip.updSnd_phys (f : Sound → Sound) : (s.updSnd f).phys = s.phys := rfl
@[simp] theorem Chip.updSnd_boot (f : Sound → Sound) : (s.updSnd f).boot = s.boot := rfl
@[simp] theorem Chip.updSnd_psm (f : Sound → Sound) : (s.updSnd f).psm = s.psm := rfl
@[simp] theorem Chip.updSnd_vio (f : Sound → Sound) : (s.updSnd f).vio = s.vio := rfl
@[simp] theorem Chip.updSnd_pads (f : Sound → Sound) : (s.updSnd f).pads = s.pads := rfl
@[simp] theorem Chip.updSnd_fld (f : Sound → Sound) (g : Fd) (i j : Nat) : (s.updSnd f).fld g i j = s.fld g i j := rfl
@[simp] theorem Chip.updChan_flds (n : Nat) (f : DmaChan → DmaChan) : (s.updChan n f).flds = s.flds := rfl
@[simp] theorem Chip.updChan_mem (n : Nat) (f : DmaChan → DmaChan) : (s.updChan n f).mem = s.mem := rfl
@[simp] theorem Chip.updChan_marks (n : Nat) (f : DmaChan → DmaChan) : (s.updChan n f).marks = s.marks := rfl
@[simp] theorem Chip.updChan_tb (n : Nat) (f : DmaChan → DmaChan) : (s.updChan n f).tb = s.tb := rfl
@[simp] theorem Chip.updChan_freeCtr (n : Nat) (f : DmaChan → DmaChan) : (s.updChan n f).freeCtr = s.freeCtr := rfl
@[simp] theorem Chip.updChan_elog (n : Nat) (f : DmaChan → DmaChan) : (s.updChan n f).elog = s.elog := rfl
@[simp] theorem Chip.updChan_resps (n : Nat) (f : DmaChan → DmaChan) : (s.updChan n f).resps = s.resps := rfl
@[simp] theorem Chip.updChan_evq (n : Nat) (f : DmaChan → DmaChan) : (s.updChan n f).evq = s.evq := rfl
@[simp] theorem Chip.updChan_phys (n : Nat) (f : DmaChan → DmaChan) : (s.updChan n f).phys = s.phys := rfl
@[simp] theorem Chip.updChan_boot (n : Nat) (f : DmaChan → DmaChan) : (s.updChan n f).boot = s.boot := rfl
@[simp] theorem Chip.updChan_psm (n : Nat) (f : DmaChan → DmaChan) : (s.updChan n f).psm = s.psm := rfl
@[simp] theorem Chip.updChan_vio (n : Nat) (f : DmaChan → DmaChan) : (s.updChan n f).vio = s.vio := rfl
@[simp] theorem Chip.updChan_pads (n : Nat) (f : DmaChan → DmaChan) : (s.updChan n f).pads = s.pads := rfl
@[simp] theorem Chip.updChan_fld (n : Nat) (f : DmaChan → DmaChan) (g : Fd) (i j : Nat) : (s.updChan n f).fld g i j = s.fld g i j := rfl
@[simp] theorem Chip.updHead_flds (n : Nat) (f : Head → Head) : (s.updHead n f).flds = s.flds := rfl
@[simp] theorem Chip.updHead_mem (n : Nat) (f : Head → Head) : (s.updHead n f).mem = s.mem := rfl
@[simp] theorem Chip.updHead_marks (n : Nat) (f : Head → Head) : (s.updHead n f).marks = s.marks := rfl
@[simp] theorem Chip.updHead_tb (n : Nat) (f : Head → Head) : (s.updHead n f).tb = s.tb := rfl
@[simp] theorem Chip.updHead_freeCtr (n : Nat) (f : Head → Head) : (s.updHead n f).freeCtr = s.freeCtr := rfl
@[simp] theorem Chip.updHead_elog (n : Nat) (f : Head → Head) : (s.updHead n f).elog = s.elog := rfl
@[simp] theorem Chip.updHead_resps (n : Nat) (f : Head → Head) : (s.updHead n f).resps = s.resps := rfl
@[simp] theorem Chip.updHead_evq (n : Nat) (f : Head → Head) : (s.updHead n f).evq = s.evq := rfl
@[simp] theorem Chip.updHead_phys (n : Nat) (f : Head → Head) : (s.updHead n f).phys = s.phys := rfl
@[simp] theorem Chip.updHead_boot (n : Nat) (f : Head → Head) : (s.updHead n f).boot = s.boot := rfl
@[simp] theorem Chip.updHead_psm (n : Nat) (f : Head → Head) : (s.updHead n f).psm = s.psm := rfl
@[simp] theorem Chip.updHead_vio (n : Nat) (f : Head → Head) : (s.updHead n f).vio = s.vio := rfl
@[simp] theorem Chip.updHead_pads (n : Nat) (f : Head → Head) : (s.updHead n f).pads = s.pads := rfl
@[simp] theorem Chip.updHead_fld (n : Nat) (f : Head → Head) (g : Fd) (i j : Nat) : (s.updHead n f).fld g i j = s.fld g i j := rfl
@[simp] theorem Chip.updCore_flds (n : Nat) (f : Core → Core) : (s.updCore n f).flds = s.flds := rfl
@[simp] theorem Chip.updCore_mem (n : Nat) (f : Core → Core) : (s.updCore n f).mem = s.mem := rfl
@[simp] theorem Chip.updCore_marks (n : Nat) (f : Core → Core) : (s.updCore n f).marks = s.marks := rfl
@[simp] theorem Chip.updCore_tb (n : Nat) (f : Core → Core) : (s.updCore n f).tb = s.tb := rfl
@[simp] theorem Chip.updCore_freeCtr (n : Nat) (f : Core → Core) : (s.updCore n f).freeCtr = s.freeCtr := rfl
@[simp] theorem Chip.updCore_elog (n : Nat) (f : Core → Core) : (s.updCore n f).elog = s.elog := rfl
@[simp] theorem Chip.updCore_resps (n : Nat) (f : Core → Core) : (s.updCore n f).resps = s.resps := rfl
@[simp] theorem Chip.updCore_evq (n : Nat) (f : Core → Core) : (s.updCore n f).evq = s.evq := rfl
@[simp] theorem Chip.updCore_phys (n : Nat) (f : Core → Core) : (s.updCore n f).phys = s.phys := rfl
@[simp] theorem Chip.updCore_boot (n : Nat) (f : Core → Core) : (s.updCore n f).boot = s.boot := rfl
@[simp] theorem Chip.updCore_psm (n : Nat) (f : Core → Core) : (s.updCore n f).psm = s.psm := rfl
@[simp] theorem Chip.updCore_vio (n : Nat) (f : Core → Core) : (s.updCore n f).vio = s.vio := rfl
@[simp] theorem Chip.updCore_pads (n : Nat) (f : Core → Core) : (s.updCore n f).pads = s.pads := rfl
@[simp] theorem Chip.updCore_fld (n : Nat) (f : Core → Core) (g : Fd) (i j : Nat) : (s.updCore n f).fld g i j = s.fld g i j := rfl
@[simp] theorem Chip.updLink_flds (n : Nat) (f : Link → Link) : (s.updLink n f).flds = s.flds := rfl
@[simp] theorem Chip.updLink_mem (n : Nat) (f : Link → Link) : (s.updLink n f).mem = s.mem := rfl
@[simp] theorem Chip.updLink_marks (n : Nat) (f : Link → Link) : (s.updLink n f).marks = s.marks := rfl
@[simp] theorem Chip.updLink_tb (n : Nat) (f : Link → Link) : (s.updLink n f).tb = s.tb := rfl
@[simp] theorem Chip.updLink_freeCtr (n : Nat) (f : Link → Link) : (s.updLink n f).freeCtr = s.freeCtr := rfl
@[simp] theorem Chip.updLink_elog (n : Nat) (f : Link → Link) : (s.updLink n f).elog = s.elog := rfl
@[simp] theorem Chip.updLink_resps (n : Nat) (f : Link → Link) : (s.updLink n f).resps = s.resps := rfl
@[simp] theorem Chip.updLink_evq (n : Nat) (f : Link → Link) : (s.updLink n f).evq = s.evq := rfl
@[simp] theorem Chip.updLink_phys (n : Nat) (f : Link → Link) : (s.updLink n f).phys = s.phys := rfl
@[simp] theorem Chip.updLink_boot (n : Nat) (f : Link → Link) : (s.updLink n f).boot = s.boot := rfl
@[simp] theorem Chip.updLink_psm (n : Nat) (f : Link → Link) : (s.updLink n f).psm = s.psm := rfl
@[simp] theorem Chip.updLink_vio (n : Nat) (f : Link → Link) : (s.updLink n f).vio = s.vio := rfl
@[simp] theorem Chip.updLink_pads (n : Nat) (f : Link → Link) : (s.updLink n f).pads = s.pads := rfl
@[simp] theorem Chip.updLink_fld (n : Nat) (f : Link → Link) (g : Fd) (i j : Nat) : (s.updLink n f).fld g i j = s.fld g i j := rfl
@[simp] theorem Chip.updLpe_flds (n : Nat) (f : Lpe → Lpe) : (s.updLpe n f).flds = s.flds := rfl
@[simp] theorem Chip.updLpe_mem (n : Nat) (f : Lpe → Lpe) : (s.updLpe n f).mem = s.mem := rfl
@[simp] theorem Chip.updLpe_marks (n : Nat) (f : Lpe → Lpe) : (s.updLpe n f).marks = s.marks := rfl
@[simp] theorem Chip.updLpe_tb (n : Nat) (f : Lpe → Lpe) : (s.updLpe n f).tb = s.tb := rfl
@[simp] theorem Chip.updLpe_freeCtr (n : Nat) (f : Lpe → Lpe) : (s.updLpe n f).freeCtr = s.freeCtr := rfl
@[simp] theorem Chip.updLpe_elog (n : Nat) (f : Lpe → Lpe) : (s.updLpe n f).elog = s.elog := rfl
@[simp] theorem Chip.updLpe_resps (n : Nat) (f : Lpe → Lpe) : (s.updLpe n f).resps = s.resps := rfl
@[simp] theorem Chip.updLpe_evq (n : Nat) (f : Lpe → Lpe) : (s.updLpe n f).evq = s.evq := rfl
@[simp] theorem Chip.updLpe_phys (n : Nat) (f : Lpe → Lpe) : (s.updLpe n f).phys = s.phys := rfl
@[simp] theorem Chip.updLpe_boot (n : Nat) (f : Lpe → Lpe) : (s.updLpe n f).boot = s.boot := rfl
@[simp] theorem Chip.updLpe_psm (n : Nat) (f : Lpe → Lpe) : (s.updLpe n f).psm = s.psm := rfl
@[simp] theorem Chip.updLpe_vio (n : Nat) (f : Lpe → Lpe) : (s.updLpe n f).vio = s.vio := rfl
@[simp] theorem Chip.updLpe_pads (n : Nat) (f : Lpe → Lpe) : (s.updLpe n f).pads = s.pads := rfl
@[simp] theorem Chip.updLpe_fld (n : Nat) (f : Lpe → Lpe) (g : Fd) (i j : Nat) : (s.updLpe n f).fld g i j = s.fld g i j := rfl
@[simp] theorem Chip.updComp_flds (n : Nat) (f : Comp → Comp) : (s.updComp n f).flds = s.flds := rfl
@[simp] theorem Chip.updComp_mem (n : Nat) (f : Comp → Comp) : (s.updComp n f).mem = s.mem := rfl
@[simp] theorem Chip.updComp_marks (n : Nat) (f : Comp → Comp) : (s.updComp n f).marks = s.marks := rfl
@[simp] theorem Chip.updComp_tb (n : Nat) (f : Comp → Comp) : (s.updComp n f).tb = s.tb := rfl
@[simp] theorem Chip.updComp_freeCtr (n : Nat) (f : Comp → Comp) : (s.updComp n f).freeCtr = s.freeCtr := rfl
@[simp] theorem Chip.updComp_elog (n : Nat) (f : Comp → Comp) : (s.updComp n f).elog = s.elog := rfl
@[simp] theorem Chip.updComp_resps (n : Nat) (f : Comp → Comp) : (s.updComp n f).resps = s.resps := rfl
@[simp] theorem Chip.updComp_evq (n : Nat) (f : Comp → Comp) : (s.updComp n f).evq = s.evq := rfl
@[simp] theorem Chip.updComp_phys (n : Nat) (f : Comp → Comp) : (s.updComp n f).phys = s.phys := rfl
@[simp] theorem Chip.updComp_boot (n : Nat) (f : Comp → Comp) : (s.updComp n f).boot = s.boot := rfl
@[simp] theorem Chip.updComp_psm (n : Nat) (f : Comp → Comp) : (s.updComp n f).psm = s.psm := rfl
@[simp] theorem Chip.updComp_vio (n : Nat) (f : Comp → Comp) : (s.updComp n f).vio = s.vio := rfl
@[simp] theorem Chip.updComp_pads (n : Nat) (f : Comp → Comp) : (s.updComp n f).pads = s.pads := rfl
@[simp] theorem Chip.updComp_fld (n : Nat) (f : Comp → Comp) (g : Fd) (i j : Nat) : (s.updComp n f).fld g i j = s.fld g i j := rfl
@[simp] theorem Chip.updPsq_flds (n : Nat) (f : Psq → Psq) : (s.updPsq n f).flds = s.flds := rfl
@[simp] theorem Chip.updPsq_mem (n : Nat) (f : Psq → Psq) : (s.updPsq n f).mem = s.mem := rfl
@[simp] theorem Chip.updPsq_marks (n : Nat) (f : Psq → Psq) : (s.updPsq n f).marks = s.marks := rfl
@[simp] theorem Chip.updPsq_tb (n : Nat) (f : Psq → Psq) : (s.updPsq n f).tb = s.tb := rfl
@[simp] theorem Chip.updPsq_freeCtr (n : Nat) (f : Psq → Psq) : (s.updPsq n f).freeCtr = s.freeCtr := rfl
@[simp] theorem Chip.updPsq_elog (n : Nat) (f : Psq → Psq) : (s.updPsq n f).elog = s.elog := rfl
@[simp] theorem Chip.updPsq_resps (n : Nat) (f : Psq → Psq) : (s.updPsq n f).resps = s.resps := rfl
@[simp] theorem Chip.updPsq_evq (n : Nat) (f : Psq → Psq) : (s.updPsq n f).evq = s.evq := rfl
@[simp] theorem Chip.updPsq_phys (n : Nat) (f : Psq → Psq) : (s.updPsq n f).phys = s.phys := rfl
@[simp] theorem Chip.updPsq_boot (n : Nat) (f : Psq → Psq) : (s.updPsq n f).boot = s.boot := rfl
@[simp] theorem Chip.updPsq_psm (n : Nat) (f : Psq → Psq) : (s.updPsq n f).psm = s.psm := rfl
@[simp] theorem Chip.updPsq_vio (n : Nat) (f : Psq → Psq) : (s.updPsq n f).vio = s.vio := rfl
@[simp] theorem Chip.updPsq_pads (n : Nat) (f : Psq → Psq) : (s.updPsq n f).pads = s.pads := rfl
@[simp] theorem Chip.updPsq_fld (n : Nat) (f : Psq → Psq) (g : Fd) (i j : Nat) : (s.updPsq n f).fld g i j = s.fld g i j := rfl
@[simp] theorem Chip.updSerial_flds (n : Nat) (f : Serial → Serial) : (s.updSerial n f).flds = s.flds := rfl
@[simp] theorem Chip.updSerial_mem (n : Nat) (f : Serial → Serial) : (s.updSerial n f).mem = s.mem := rfl
@[simp] theorem Chip.updSerial_marks (n : Nat) (f : Serial → Serial) : (s.updSerial n f).marks = s.marks := rfl
@[simp] theorem Chip.updSerial_tb (n : Nat) (f : Serial → Serial) : (s.updSerial n f).tb = s.tb := rfl
@[simp] theorem Chip.updSerial_freeCtr (n : Nat) (f : Serial → Serial) : (s.updSerial n f).freeCtr = s.freeCtr := rfl
@[simp] theorem Chip.updSerial_elog (n : Nat) (f : Serial → Serial) : (s.updSerial n f).elog = s.elog := rfl
@[simp] theorem Chip.updSerial_resps (n : Nat) (f : Serial → Serial) : (s.updSerial n f).resps = s.resps := rfl
@[simp] theorem Chip.updSerial_evq (n : Nat) (f : Serial → Serial) : (s.updSerial n f).evq = s.evq := rfl
@[simp] theorem Chip.updSerial_phys (n : Nat) (f : Serial → Serial) : (s.updSerial n f).phys = s.phys := rfl
@[simp] theorem Chip.updSerial_boot (n : Nat) (f : Serial → Serial) : (s.updSerial n f).boot = s.boot := rfl
@[simp] theorem Chip.updSerial_psm (n : Nat) (f : Serial → Serial) : (s.updSerial n f).psm = s.psm := rfl
@[simp] theorem Chip.updSerial_vio (n : Nat) (f : Serial → Serial) : (s.updSerial n f).vio = s.vio := rfl
@[simp] theorem Chip.updSerial_pads (n : Nat) (f : Serial → Serial) : (s.updSerial n f).pads = s.pads := rfl
@[simp] theorem Chip.updSerial_fld (n : Nat) (f : Serial → Serial) (g : Fd) (i j : Nat) : (s.updSerial n f).fld g i j = s.fld g i j := rfl
@[simp] theorem Chip.updVoice_flds (n : Nat) (f : Voice → Voice) : (s.updVoice n f).flds = s.flds := rfl
@[simp] theorem Chip.updVoice_mem (n : Nat) (f : Voice → Voice) : (s.updVoice n f).mem = s.mem := rfl
@[simp] theorem Chip.updVoice_marks (n : Nat) (f : Voice → Voice) : (s.updVoice n f).marks = s.marks := rfl
@[simp] theorem Chip.updVoice_tb (n : Nat) (f : Voice → Voice) : (s.updVoice n f).tb = s.tb := rfl
@[simp] theorem Chip.updVoice_freeCtr (n : Nat) (f : Voice → Voice) : (s.updVoice n f).freeCtr = s.freeCtr := rfl
@[simp] theorem Chip.updVoice_elog (n : Nat) (f : Voice → Voice) : (s.updVoice n f).elog = s.elog := rfl
@[simp] theorem Chip.updVoice_resps (n : Nat) (f : Voice → Voice) : (s.updVoice n f).resps = s.resps := rfl
@[simp] theorem Chip.updVoice_evq (n : Nat) (f : Voice → Voice) : (s.updVoice n f).evq = s.evq := rfl
@[simp] theorem Chip.updVoice_phys (n : Nat) (f : Voice → Voice) : (s.updVoice n f).phys = s.phys := rfl
@[simp] theorem Chip.updVoice_boot (n : Nat) (f : Voice → Voice) : (s.updVoice n f).boot = s.boot := rfl
@[simp] theorem Chip.updVoice_psm (n : Nat) (f : Voice → Voice) : (s.updVoice n f).psm = s.psm := rfl
@[simp] theorem Chip.updVoice_vio (n : Nat) (f : Voice → Voice) : (s.updVoice n f).vio = s.vio := rfl
@[simp] theorem Chip.updVoice_pads (n : Nat) (f : Voice → Voice) : (s.updVoice n f).pads = s.pads := rfl
@[simp] theorem Chip.updVoice_fld (n : Nat) (f : Voice → Voice) (g : Fd) (i j : Nat) : (s.updVoice n f).fld g i j = s.fld g i j := rfl
@[simp] theorem Chip.updEff_flds (n : Nat) (f : EffSt → EffSt) : (s.updEff n f).flds = s.flds := rfl
@[simp] theorem Chip.updEff_mem (n : Nat) (f : EffSt → EffSt) : (s.updEff n f).mem = s.mem := rfl
@[simp] theorem Chip.updEff_marks (n : Nat) (f : EffSt → EffSt) : (s.updEff n f).marks = s.marks := rfl
@[simp] theorem Chip.updEff_tb (n : Nat) (f : EffSt → EffSt) : (s.updEff n f).tb = s.tb := rfl
@[simp] theorem Chip.updEff_freeCtr (n : Nat) (f : EffSt → EffSt) : (s.updEff n f).freeCtr = s.freeCtr := rfl
@[simp] theorem Chip.updEff_elog (n : Nat) (f : EffSt → EffSt) : (s.updEff n f).elog = s.elog := rfl
@[simp] theorem Chip.updEff_resps (n : Nat) (f : EffSt → EffSt) : (s.updEff n f).resps = s.resps := rfl
@[simp] theorem Chip.updEff_evq (n : Nat) (f : EffSt → EffSt) : (s.updEff n f).evq = s.evq := rfl
@[simp] theorem Chip.updEff_phys (n : Nat) (f : EffSt → EffSt) : (s.updEff n f).phys = s.phys := rfl
@[simp] theorem Chip.updEff_boot (n : Nat) (f : EffSt → EffSt) : (s.updEff n f).boot = s.boot := rfl
@[simp] theorem Chip.updEff_psm (n : Nat) (f : EffSt → EffSt) : (s.updEff n f).psm = s.psm := rfl
@[simp] theorem Chip.updEff_vio (n : Nat) (f : EffSt → EffSt) : (s.updEff n f).vio = s.vio := rfl
@[simp] theorem Chip.updEff_pads (n : Nat) (f : EffSt → EffSt) : (s.updEff n f).pads = s.pads := rfl
@[simp] theorem Chip.updEff_fld (n : Nat) (f : EffSt → EffSt) (g : Fd) (i j : Nat) : (s.updEff n f).fld g i j = s.fld g i j := rfl
@[simp] theorem Chip.updCmp_flds (n : Nat) (f : CmpSt → CmpSt) : (s.updCmp n f).flds = s.flds := rfl
@[simp] theorem Chip.updCmp_mem (n : Nat) (f : CmpSt → CmpSt) : (s.updCmp n f).mem = s.mem := rfl
@[simp] theorem Chip.updCmp_marks (n : Nat) (f : CmpSt → CmpSt) : (s.updCmp n f).marks = s.marks := rfl
@[simp] theorem Chip.updCmp_tb (n : Nat) (f : CmpSt → CmpSt) : (s.updCmp n f).tb = s.tb := rfl
@[simp] theorem Chip.updCmp_freeCtr (n : Nat) (f : CmpSt → CmpSt) : (s.updCmp n f).freeCtr = s.freeCtr := rfl
@[simp] theorem Chip.updCmp_elog (n : Nat) (f : CmpSt → CmpSt) : (s.updCmp n f).elog = s.elog := rfl
@[simp] theorem Chip.updCmp_resps (n : Nat) (f : CmpSt → CmpSt) : (s.updCmp n f).resps = s.resps := rfl
@[simp] theorem Chip.updCmp_evq (n : Nat) (f : CmpSt → CmpSt) : (s.updCmp n f).evq = s.evq := rfl
@[simp] theorem Chip.updCmp_phys (n : Nat) (f : CmpSt → CmpSt) : (s.updCmp n f).phys = s.phys := rfl
@[simp] theorem Chip.updCmp_boot (n : Nat) (f : CmpSt → CmpSt) : (s.updCmp n f).boot = s.boot := rfl
@[simp] theorem Chip.updCmp_psm (n : Nat) (f : CmpSt → CmpSt) : (s.updCmp n f).psm = s.psm := rfl
@[simp] theorem Chip.updCmp_vio (n : Nat) (f : CmpSt → CmpSt) : (s.updCmp n f).vio = s.vio := rfl
@[simp] theorem Chip.updCmp_pads (n : Nat) (f : CmpSt → CmpSt) : (s.updCmp n f).pads = s.pads := rfl
@[simp] theorem Chip.updCmp_fld (n : Nat) (f : CmpSt → CmpSt) (g : Fd) (i j : Nat) : (s.updCmp n f).fld g i j = s.fld g i j := rfl
@[simp] theorem Chip.updIntv_flds (n : Nat) (f : IntSt → IntSt) : (s.updIntv n f).flds = s.flds := rfl
@[simp] theorem Chip.updIntv_mem (n : Nat) (f : IntSt → IntSt) : (s.updIntv n f).mem = s.mem := rfl
@[simp] theorem Chip.updIntv_marks (n : Nat) (f : IntSt → IntSt) : (s.updIntv n f).marks = s.marks := rfl
@[simp] theorem Chip.updIntv_tb (n : Nat) (f : IntSt → IntSt) : (s.updIntv n f).tb = s.tb := rfl
@[simp] theorem Chip.updIntv_freeCtr (n : Nat) (f : IntSt → IntSt) : (s.updIntv n f).freeCtr = s.freeCtr := rfl
@[simp] theorem Chip.updIntv_elog (n : Nat) (f : IntSt → IntSt) : (s.updIntv n f).elog = s.elog := rfl
@[simp] theorem Chip.updIntv_resps (n : Nat) (f : IntSt → IntSt) : (s.updIntv n f).resps = s.resps := rfl
@[simp] theorem Chip.updIntv_evq (n : Nat) (f : IntSt → IntSt) : (s.updIntv n f).evq = s.evq := rfl
@[simp] theorem Chip.updIntv_phys (n : Nat) (f : IntSt → IntSt) : (s.updIntv n f).phys = s.phys := rfl
@[simp] theorem Chip.updIntv_boot (n : Nat) (f : IntSt → IntSt) : (s.updIntv n f).boot = s.boot := rfl
@[simp] theorem Chip.updIntv_psm (n : Nat) (f : IntSt → IntSt) : (s.updIntv n f).psm = s.psm := rfl
@[simp] theorem Chip.updIntv_vio (n : Nat) (f : IntSt → IntSt) : (s.updIntv n f).vio = s.vio := rfl
@[simp] theorem Chip.updIntv_pads (n : Nat) (f : IntSt → IntSt) : (s.updIntv n f).pads = s.pads := rfl
@[simp] theorem Chip.updIntv_fld (n : Nat) (f : IntSt → IntSt) (g : Fd) (i j : Nat) : (s.updIntv n f).fld g i j = s.fld g i j := rfl
@[simp] theorem Chip.updCap_flds (n : Nat) (f : CapSt → CapSt) : (s.updCap n f).flds = s.flds := rfl
@[simp] theorem Chip.updCap_mem (n : Nat) (f : CapSt → CapSt) : (s.updCap n f).mem = s.mem := rfl
@[simp] theorem Chip.updCap_marks (n : Nat) (f : CapSt → CapSt) : (s.updCap n f).marks = s.marks := rfl
@[simp] theorem Chip.updCap_tb (n : Nat) (f : CapSt → CapSt) : (s.updCap n f).tb = s.tb := rfl
@[simp] theorem Chip.updCap_freeCtr (n : Nat) (f : CapSt → CapSt) : (s.updCap n f).freeCtr = s.freeCtr := rfl
@[simp] theorem Chip.updCap_elog (n : Nat) (f : CapSt → CapSt) : (s.updCap n f).elog = s.elog := rfl
@[simp] theorem Chip.updCap_resps (n : Nat) (f : CapSt → CapSt) : (s.updCap n f).resps = s.resps := rfl
@[simp] theorem Chip.updCap_evq (n : Nat) (f : CapSt → CapSt) : (s.updCap n f).evq = s.evq := rfl
@[simp] theorem Chip.updCap_phys (n : Nat) (f : CapSt → CapSt) : (s.updCap n f).phys = s.phys := rfl
@[simp] theorem Chip.updCap_boot (n : Nat) (f : CapSt → CapSt) : (s.updCap n f).boot = s.boot := rfl
@[simp] theorem Chip.updCap_psm (n : Nat) (f : CapSt → CapSt) : (s.updCap n f).psm = s.psm := rfl
@[simp] theorem Chip.updCap_vio (n : Nat) (f : CapSt → CapSt) : (s.updCap n f).vio = s.vio := rfl
@[simp] theorem Chip.updCap_pads (n : Nat) (f : CapSt → CapSt) : (s.updCap n f).pads = s.pads := rfl
@[simp] theorem Chip.updCap_fld (n : Nat) (f : CapSt → CapSt) (g : Fd) (i j : Nat) : (s.updCap n f).fld g i j = s.fld g i j := rfl
@[simp] theorem Chip.updRegion_flds (n r : Nat) (f : Region → Region) : (s.updRegion n r f).flds = s.flds := rfl
@[simp] theorem Chip.updRegion_mem (n r : Nat) (f : Region → Region) : (s.updRegion n r f).mem = s.mem := rfl
@[simp] theorem Chip.updRegion_marks (n r : Nat) (f : Region → Region) : (s.updRegion n r f).marks = s.marks := rfl
@[simp] theorem Chip.updRegion_tb (n r : Nat) (f : Region → Region) : (s.updRegion n r f).tb = s.tb := rfl
@[simp] theorem Chip.updRegion_freeCtr (n r : Nat) (f : Region → Region) : (s.updRegion n r f).freeCtr = s.freeCtr := rfl
@[simp] theorem Chip.updRegion_elog (n r : Nat) (f : Region → Region) : (s.updRegion n r f).elog = s.elog := rfl
@[simp] theorem Chip.updRegion_resps (n r : Nat) (f : Region → Region) : (s.updRegion n r f).resps = s.resps := rfl
@[simp] theorem Chip.updRegion_evq (n r : Nat) (f : Region → Region) : (s.updRegion n r f).evq = s.evq := rfl
@[simp] theorem Chip.updRegion_phys (n r : Nat) (f : Region → Region) : (s.updRegion n r f).phys = s.phys := rfl
@[simp] theorem Chip.updRegion_boot (n r : Nat) (f : Region → Region) : (s.updRegion n r f).boot = s.boot := rfl
@[simp] theorem Chip.updRegion_psm (n r : Nat) (f : Region → Region) : (s.updRegion n r f).psm = s.psm := rfl
@[simp] theorem Chip.updRegion_vio (n r : Nat) (f : Region → Region) : (s.updRegion n r f).vio = s.vio := rfl
@[simp] theorem Chip.updRegion_pads (n r : Nat) (f : Region → Region) : (s.updRegion n r f).pads = s.pads := rfl
@[simp] theorem Chip.updRegion_fld (n r : Nat) (f : Region → Region) (g : Fd) (i j : Nat) : (s.updRegion n r f).fld g i j = s.fld g i j := rfl
@[simp] theorem Chip.updFrm_flds (n r : Nat) (f : Frm → Frm) : (s.updFrm n r f).flds = s.flds := rfl
@[simp] theorem Chip.updFrm_mem (n r : Nat) (f : Frm → Frm) : (s.updFrm n r f).mem = s.mem := rfl
@[simp] theorem Chip.updFrm_marks (n r : Nat) (f : Frm → Frm) : (s.updFrm n r f).marks = s.marks := rfl
@[simp] theorem Chip.updFrm_tb (n r : Nat) (f : Frm → Frm) : (s.updFrm n r f).tb = s.tb := rfl
@[simp] theorem Chip.updFrm_freeCtr (n r : Nat) (f : Frm → Frm) : (s.updFrm n r f).freeCtr = s.freeCtr := rfl
@[simp] theorem Chip.updFrm_elog (n r : Nat) (f : Frm → Frm) : (s.updFrm n r f).elog = s.elog := rfl
@[simp] theorem Chip.updFrm_resps (n r : Nat) (f : Frm → Frm) : (s.updFrm n r f).resps = s.resps := rfl
@[simp] theorem Chip.updFrm_evq (n r : Nat) (f : Frm → Frm) : (s.updFrm n r f).evq = s.evq := rfl
@[simp] theorem Chip.updFrm_phys (n r : Nat) (f : Frm → Frm) : (s.updFrm n r f).phys = s.phys := rfl
@[simp] theorem Chip.updFrm_boot (n r : Nat) (f : Frm → Frm) : (s.updFrm n r f).boot = s.boot := rfl
@[simp] theorem Chip.updFrm_psm (n r : Nat) (f : Frm → Frm) : (s.updFrm n r f).psm = s.psm := rfl
@[simp] theorem Chip.updFrm_vio (n r : Nat) (f : Frm → Frm) : (s.updFrm n r f).vio = s.vio := rfl
@[simp] theorem Chip.updFrm_pads (n r : Nat) (f : Frm → Frm) : (s.updFrm n r f).pads = s.pads := rfl
@[simp] theorem Chip.updFrm_fld (n r : Nat) (f : Frm → Frm) (g : Fd) (i j : Nat) : (s.updFrm n r f).fld g i j = s.fld g i j := rfl

@[simp] theorem Chip.respond_fld (a : Access) (k : RespKind) (d : Nat) (g : Fd) (i j : Nat) :
    (s.respond a k d).fld g i j = s.fld g i j := rfl
@[simp] theorem Chip.enqueue_fld (p h : Nat) (g : Fd) (i j : Nat) : (s.enqueue p h).fld g i j = s.fld g i j := rfl

end Sys2Proof.Machine
end

