-- ==== Sys2Proof/Laws/Store.lean ====
section
/-! SUPPORT. Laws of sparse lists and of memory: read after write, and the canonical form kept (spec/11_fabric_stores.md). -/

namespace Sys2Proof.Machine

variable {κ α : Type} [DecidableEq κ]

@[simp] theorem Store.get?_nil (k : κ) : Store.get? k ([] : List (κ × α)) = none := rfl

theorem Store.get?_cons (k : κ) (p : κ × α) (t : List (κ × α)) :
    Store.get? k (p :: t) = if p.1 = k then some p.2 else Store.get? k t := rfl

/-- An erased key is not found. -/
@[simp] theorem Store.get?_erase_self (k : κ) (l : List (κ × α)) : Store.get? k (Store.erase k l) = none := by
  induction l with
  | nil => rfl
  | cons p t ih =>
    by_cases h : p.1 = k
    · simpa [Store.erase, List.filter, h] using ih
    · simpa [Store.erase, List.filter, h, Store.get?_cons] using ih

/-- Erasing a key leaves every other one. -/
theorem Store.get?_erase_ne {k j : κ} (h : j ≠ k) (l : List (κ × α)) : Store.get? j (Store.erase k l) = Store.get? j l := by
  induction l with
  | nil => rfl
  | cons p t ih =>
    by_cases hp : p.1 = k
    · have hj : p.1 ≠ j := fun e => h (e ▸ hp)
      simpa [Store.erase, List.filter, hp, Store.get?_cons, hj, Ne.symm h] using ih
    · have ih' : Store.get? j (List.filter (fun p => decide (p.1 ≠ k)) t) = Store.get? j t := ih
      simp only [Store.erase, List.filter, decide_not, hp, decide_false, Bool.not_false, Store.get?_cons]
      rw [← ih']
      simp

/-- What an insertion adds is found where the key was not listed before. -/
theorem Store.get?_insert_self (lt : κ → κ → Bool) (k : κ) (v : α) (l : List (κ × α)) (h : Store.get? k l = none) :
    Store.get? k (Store.insert lt k v l) = some v := by
  induction l with
  | nil => simp [Store.insert, Store.get?_cons]
  | cons p t ih =>
    rw [Store.get?_cons] at h
    by_cases hp : p.1 = k
    · simp [hp] at h
    · rw [if_neg hp] at h
      simp only [Store.insert]
      split
      · simp [Store.get?_cons]
      · rw [Store.get?_cons, if_neg hp, ih h]

/-- An insertion leaves every other key. -/
theorem Store.get?_insert_ne (lt : κ → κ → Bool) {k j : κ} (h : j ≠ k) (v : α) (l : List (κ × α)) :
    Store.get? j (Store.insert lt k v l) = Store.get? j l := by
  induction l with
  | nil => simp [Store.insert, Store.get?_cons, Ne.symm h]
  | cons p t ih =>
    simp only [Store.insert]
    split
    · simp [Store.get?_cons, Ne.symm h]
    · simp [Store.get?_cons, ih]

/-- A key that was set is found. -/
@[simp] theorem Store.get?_put_self (lt : κ → κ → Bool) (k : κ) (v : α) (l : List (κ × α)) :
    Store.get? k (Store.put lt k v l) = some v :=
  Store.get?_insert_self lt k v _ (Store.get?_erase_self k l)

/-- Setting a key leaves every other one. -/
theorem Store.get?_put_ne (lt : κ → κ → Bool) {k j : κ} (h : j ≠ k) (v : α) (l : List (κ × α)) :
    Store.get? j (Store.put lt k v l) = Store.get? j l := by
  rw [Store.put, Store.get?_insert_ne lt h, Store.get?_erase_ne h]

/-! ### Numbered stores -/

@[simp] theorem NStore.get_set_self {α : Type} (d : α) (m : NStore α) (k : Nat) (v : α) : NStore.get d (NStore.set m k v) k = v := by
  simp [NStore.get, NStore.set]

theorem NStore.get_set_ne {α : Type} (d : α) (m : NStore α) {j k : Nat} (h : j ≠ k) (v : α) :
    NStore.get d (NStore.set m k v) j = NStore.get d m j := by
  simp [NStore.get, NStore.set, Store.get?_put_ne _ h]

/-! ### Memory -/

/-- A byte written reads back. -/
@[simp] theorem Memory.byte_setByte_self (m : List Host.Cell) (a : Nat) (b : Byte) :
    Memory.byte (Memory.setByte m a b) a = b := by
  unfold Memory.byte Memory.setByte
  split
  · next h => simp [h]
  · simp

/-- A byte written leaves every other byte. -/
theorem Memory.byte_setByte_ne (m : List Host.Cell) {a x : Nat} (h : x ≠ a) (b : Byte) :
    Memory.byte (Memory.setByte m a b) x = Memory.byte m x := by
  unfold Memory.byte Memory.setByte
  split
  · rw [Store.get?_erase_ne h]
  · rw [Store.get?_put_ne _ h]

/-- A write leaves every byte outside it. -/
theorem Memory.byte_write_outside (n : Nat) : ∀ (m : List Host.Cell) (a v x : Nat), (x < a ∨ a + n ≤ x) →
    Memory.byte (Memory.write m a v n) x = Memory.byte m x := by
  induction n with
  | zero => intro m a v x _; rfl
  | succ n ih =>
    intro m a v x h
    rw [Memory.write, ih _ _ _ _ (by omega), Memory.byte_setByte_ne _ (by omega)]

/-- A write's first byte, which the rest of it leaves. -/
theorem Memory.byte_write_first (m : List Host.Cell) (a v n : Nat) :
    Memory.byte (Memory.write m a v (n + 1)) a = BitVec.ofNat 8 v := by
  rw [Memory.write, Memory.byte_write_outside _ _ _ _ _ (by omega), Memory.byte_setByte_self]

/-- What was written reads back, cut to its width. -/
theorem Memory.read_write_self (n : Nat) : ∀ (m : List Host.Cell) (a v : Nat),
    Memory.read (Memory.write m a v n) a n = v % 256 ^ n := by
  induction n with
  | zero => intro m a v; simp [Memory.read, Nat.mod_one]
  | succ n ih =>
    intro m a v
    rw [Memory.read, Memory.byte_write_first]
    rw [Memory.write, ih, BitVec.toNat_ofNat, show 256 ^ (n + 1) = 256 * 256 ^ n from Nat.pow_succ', Nat.mod_mul]

/-- The rising order of the listed addresses, seen from a lower address. -/
theorem Memory.insert_sorted (k : Nat) (v : Byte) : ∀ (l : List Host.Cell), List.Pairwise (fun a b => a.1 < b.1) l →
    (∀ p ∈ l, p.1 ≠ k) → List.Pairwise (fun a b => a.1 < b.1) (Store.insert (fun x y => decide (x < y)) k v l) := by
  intro l
  induction l with
  | nil => intro _ _; simp [Store.insert]
  | cons p t ih =>
    intro hs hk
    have hp : p.1 ≠ k := hk p (by simp)
    rw [List.pairwise_cons] at hs
    simp only [Store.insert]
    split
    · next h =>
      simp only [decide_eq_true_eq] at h
      rw [List.pairwise_cons, List.pairwise_cons]
      refine ⟨?_, hs⟩
      intro b hb
      rcases List.mem_cons.1 hb with rfl | hb
      · exact h
      · exact lt_trans h (hs.1 b hb)
    · next h =>
      simp only [decide_eq_true_eq] at h
      rw [List.pairwise_cons]
      refine ⟨?_, ih hs.2 fun q hq => hk q (by simp [hq])⟩
      have key : ∀ (l : List Host.Cell), (∀ b ∈ l, p.1 < b.1) → p.1 < k →
          ∀ b ∈ Store.insert (fun x y => decide (x < y)) k v l, p.1 < b.1 := by
        intro l
        induction l with
        | nil => intro _ hk b hb; simp [Store.insert] at hb; subst hb; exact hk
        | cons q u ih2 =>
          intro hl hk b hb
          simp only [Store.insert] at hb
          split at hb
          · rcases List.mem_cons.1 hb with rfl | hb
            · exact hk
            · exact hl b hb
          · rcases List.mem_cons.1 hb with rfl | hb
            · exact hl _ (by simp)
            · exact ih2 (fun c hc => hl c (by simp [hc])) hk b hb
      exact key t hs.1 (by omega)

/-- What an insertion lists. -/
theorem Memory.mem_insert (k : Nat) (v : Byte) (l : List Host.Cell) :
    ∀ p ∈ Store.insert (fun x y => decide (x < y)) k v l, p = (k, v) ∨ p ∈ l := by
  induction l with
  | nil => intro p hp; simp [Store.insert] at hp; exact Or.inl hp
  | cons q u ih =>
    intro p hp
    simp only [Store.insert] at hp
    split at hp
    · rcases List.mem_cons.1 hp with rfl | hp
      · exact Or.inl rfl
      · exact Or.inr hp
    · rcases List.mem_cons.1 hp with rfl | hp
      · exact Or.inr (by simp)
      · exact (ih p hp).imp id (fun h => by simp [h])

/-- Leaving entries out keeps the canonical form. -/
theorem Memory.wf_filter {m : List Host.Cell} (h : Memory.wf m = true) (q : Host.Cell → Bool) :
    Memory.wf (m.filter q) = true := by
  simp only [Memory.wf, Bool.and_eq_true, decide_eq_true_eq, List.all_eq_true] at h ⊢
  exact ⟨h.1.filter q, fun p hp => h.2 p (List.mem_filter.1 hp).1⟩

theorem Memory.wf_nil : Memory.wf [] = true := by simp [Memory.wf]

/-- A byte written keeps the canonical form. -/
theorem Memory.wf_setByte {m : List Host.Cell} (h : Memory.wf m = true) (a : Nat) (b : Byte) :
    Memory.wf (Memory.setByte m a b) = true := by
  unfold Memory.setByte
  split
  · exact Memory.wf_filter h _
  · next hb =>
    have he : Memory.wf (Store.erase a m) = true := Memory.wf_filter h _
    simp only [Memory.wf, Bool.and_eq_true, decide_eq_true_eq, List.all_eq_true] at he ⊢
    refine ⟨Memory.insert_sorted a b _ he.1 ?_, ?_⟩
    · intro p hp
      simpa using (List.mem_filter.1 hp).2
    · intro p hp
      rcases Memory.mem_insert a b _ p hp with rfl | hp
      · exact hb
      · exact he.2 p hp

/-- Every write keeps the canonical form. -/
theorem Memory.wf_write (n : Nat) : ∀ {m : List Host.Cell} (_ : Memory.wf m = true) (a v : Nat),
    Memory.wf (Memory.write m a v n) = true := by
  induction n with
  | zero => intro m h a v; exact h
  | succ n ih => intro m h a v; exact ih (Memory.wf_setByte h a _) _ _

end Sys2Proof.Machine
end

