-- ==== Sys2Proof/Laws/Ops.lean ====
section
/-! SUPPORT. What the shared operations do, each said once: register fields read back, events, sticky bits, counters and error
records leave the stores and the responses alone (spec/11_fabric_stores.md, spec/12_time_events_measurement.md). -/

namespace Sys2Proof.Machine

/-! ### Register fields -/

/-- A field set reads back what was put, cut to its width. -/
@[simp] theorem Chip.fld_setFld_self (s : Chip) (f : Fd) (i j v : Nat) : (s.setFld f i j v).fld f i j = v % 2 ^ f.width := by
  unfold Chip.fld Chip.setFld
  split
  · next h => simp [h]
  · simp

/-- Another field is left. -/
theorem Chip.fld_setFld_ne (s : Chip) {f g : Fd} {i j i' j' : Nat} (h : g.key i' j' ≠ f.key i j) (v : Nat) :
    (s.setFld f i j v).fld g i' j' = s.fld g i' j' := by
  unfold Chip.fld Chip.setFld
  split
  · rw [Store.get?_erase_ne h]
  · rw [Store.get?_put_ne _ h]

/-- A field of another place is left, whatever the registers' numbers. -/
theorem Chip.fld_setFld_other (s : Chip) {f g : Fd} (h : g.id ≠ f.id ∨ g.lo ≠ f.lo) (i j i' j' v : Nat) :
    (s.setFld f i j v).fld g i' j' = s.fld g i' j' := by
  refine s.fld_setFld_ne (fun e => ?_) v
  simp only [Fd.key, FKey.mk.injEq] at e
  rcases h with h | h
  · exact h e.1
  · exact h e.2.1

theorem Chip.on_setFld_other (s : Chip) {f g : Fd} (h : g.id ≠ f.id ∨ g.lo ≠ f.lo) (i j i' j' v : Nat) :
    (s.setFld f i j v).on g i' j' = s.on g i' j' := by
  unfold Chip.on; rw [s.fld_setFld_other h]

theorem Chip.fld_bump_other (s : Chip) {f g k : Fd} (h : k.id ≠ f.id) (h' : k.id ≠ g.id) (i j n i' j' : Nat) :
    (s.bump f g i j n).fld k i' j' = s.fld k i' j' := by
  unfold Chip.bump
  dsimp only
  split
  · exact s.fld_setFld_other (.inl h) ..
  · rw [Chip.fld_setFld_other _ (.inl h'), Chip.fld_setFld_other _ (.inl h)]

theorem Chip.fld_enqueue (s : Chip) (p n : Nat) (k : Fd) (i j : Nat) : (s.enqueue p n).fld k i j = s.fld k i j := rfl

/-- An event leaves every field but those of the event fabric's status. -/
theorem Chip.fld_raiseHop (s : Chip) {k : Fd} (h : k.id ≠ .evfStat ∧ k.id ≠ .evfLoopcnt) (p n i j : Nat) :
    (s.raiseHop p n).fld k i j = s.fld k i j := by
  have e : ((s.setFld F.evfStat_LASTSRC 0 0 p).bump F.evfLoopcnt_COUNT F.evfLoopcnt_SAT).fld k i j = s.fld k i j := by
    rw [Chip.fld_bump_other _ h.2 h.2, Chip.fld_setFld_other _ (.inl h.1)]
  unfold Chip.raiseHop
  split
  · rfl
  · dsimp only
    split
    · exact e
    · rw [Chip.fld_enqueue, Chip.fld_setFld_other _ (.inl h.1), e]

theorem Chip.fld_raise (s : Chip) {k : Fd} (h : k.id ≠ .evfStat ∧ k.id ≠ .evfLoopcnt) (p i j : Nat) :
    (s.raise p).fld k i j = s.fld k i j := s.fld_raiseHop h p 0 i j

/-- A field without reserved encodings takes the bits of its place. -/
theorem Chip.writeFld_plain (s : Chip) {f : Fd} (h : f.resv = []) (i j v : Nat) :
    s.writeFld f i j v = s.setFld f i j (bits v f.hi f.lo) := by
  simp [Chip.writeFld, h]

/-! ### Operations that leave a part of the chip -/

/-- What none of the operations over registers, events and the error log changes. -/
structure Chip.Kept (t s : Chip) : Prop where
  mem : t.mem = s.mem
  resps : t.resps = s.resps
  tb : t.tb = s.tb
  boot : t.boot = s.boot

theorem Chip.Kept.refl (s : Chip) : Chip.Kept s s := ⟨rfl, rfl, rfl, rfl⟩

theorem Chip.Kept.trans {a b c : Chip} (h : Chip.Kept a b) (g : Chip.Kept b c) : Chip.Kept a c :=
  ⟨h.mem.trans g.mem, h.resps.trans g.resps, h.tb.trans g.tb, h.boot.trans g.boot⟩

theorem Chip.setFld_kept (s : Chip) (f : Fd) (i j v : Nat) : Chip.Kept (s.setFld f i j v) s := ⟨rfl, rfl, rfl, rfl⟩

theorem Chip.enqueue_kept (s : Chip) (p h : Nat) : Chip.Kept (s.enqueue p h) s := ⟨rfl, rfl, rfl, rfl⟩

theorem Chip.bump_kept (s : Chip) (f g : Fd) (i j n : Nat) : Chip.Kept (s.bump f g i j n) s := by
  unfold Chip.bump
  dsimp only
  split
  · exact s.setFld_kept _ _ _ _
  · exact (Chip.setFld_kept _ _ _ _ _).trans (s.setFld_kept _ _ _ _)

theorem Chip.raiseHop_kept (s : Chip) (p h : Nat) : Chip.Kept (s.raiseHop p h) s := by
  unfold Chip.raiseHop
  split
  · exact s.enqueue_kept p h
  · have k := (Chip.bump_kept (s.setFld F.evfStat_LASTSRC 0 0 p) F.evfLoopcnt_COUNT F.evfLoopcnt_SAT 0 0 1).trans
      (s.setFld_kept _ _ _ _)
    split
    · exact k
    · exact (Chip.enqueue_kept _ _ _).trans ((Chip.setFld_kept _ _ _ _ _).trans k)

theorem Chip.raise_kept (s : Chip) (p : Nat) : Chip.Kept (s.raise p) s := s.raiseHop_kept p 0

theorem Chip.stick_kept (s : Chip) (f : Fd) (i p j : Nat) : Chip.Kept (s.stick f i p j) s := by
  unfold Chip.stick
  split
  · exact .refl s
  · exact (Chip.raise_kept _ _).trans (s.setFld_kept _ _ _ _)

theorem Chip.logErr_kept (s : Chip) (k : Nat) (m : Master) (st a : Nat) : Chip.Kept (s.logErr k m st a) s := by
  unfold Chip.logErr
  split
  · dsimp only
    split
    · exact (Chip.raise_kept _ _).trans ⟨rfl, rfl, rfl, rfl⟩
    · exact ⟨rfl, rfl, rfl, rfl⟩
  · exact (Chip.stick_kept _ _ _ _ _).trans (s.bump_kept _ _ _ _ _)

/-- A chain of steps that each keep these parts keeps them. -/
theorem Chip.foldl_kept {α : Type} (f : Chip → α → Chip) (h : ∀ s a, Chip.Kept (f s a) s) (l : List α) (s : Chip) :
    Chip.Kept (l.foldl f s) s := by
  induction l generalizing s with
  | nil => exact .refl s
  | cons a l ih => exact (ih (f s a)).trans (h s a)

/-! ### Operations over the registers and the events on their way, and nothing else -/

/-- Nothing but register fields and events on their way differs; every other part of t is that of s. -/
def Chip.RegsOnly (t s : Chip) : Prop := t = { s with flds := t.flds, evq := t.evq }

theorem Chip.RegsOnly.refl (s : Chip) : Chip.RegsOnly s s := rfl

theorem Chip.RegsOnly.trans {a b c : Chip} (h : Chip.RegsOnly a b) (g : Chip.RegsOnly b c) : Chip.RegsOnly a c := by
  unfold Chip.RegsOnly at *; rw [h, g]

/-- What such an operation leaves of any part that it does not touch. -/
theorem Chip.RegsOnly.part {α : Type} {t s : Chip} (h : Chip.RegsOnly t s) (f : Chip → α)
    (hf : ∀ (c : Chip) (x : List (FKey × Nat)) (y : List Arrival), f { c with flds := x, evq := y } = f c) : f t = f s := by
  rw [h, hf]

theorem Chip.setFld_regs (s : Chip) (f : Fd) (i j v : Nat) : Chip.RegsOnly (s.setFld f i j v) s := rfl

theorem Chip.enqueue_regs (s : Chip) (p n : Nat) : Chip.RegsOnly (s.enqueue p n) s := rfl

theorem Chip.bump_regs (s : Chip) (f g : Fd) (i j n : Nat) : Chip.RegsOnly (s.bump f g i j n) s := by
  unfold Chip.bump; dsimp only; split <;> rfl

theorem Chip.raiseHop_regs (s : Chip) (p n : Nat) : Chip.RegsOnly (s.raiseHop p n) s := by
  have k := (Chip.bump_regs (s.setFld F.evfStat_LASTSRC 0 0 p) F.evfLoopcnt_COUNT F.evfLoopcnt_SAT 0 0 1).trans
    (s.setFld_regs F.evfStat_LASTSRC 0 0 p)
  unfold Chip.raiseHop
  split
  · rfl
  · dsimp only
    split
    · exact k
    · exact (Chip.enqueue_regs _ _ _).trans ((Chip.setFld_regs _ _ _ _ _).trans k)

theorem Chip.raise_regs (s : Chip) (p : Nat) : Chip.RegsOnly (s.raise p) s := s.raiseHop_regs p 0

/-- A sticky bit of one bit reads 1 after it is set, whatever the event does. -/
theorem Chip.on_stick (s : Chip) {f : Fd} (h : f.width = 1 ∧ f.id ≠ .evfStat ∧ f.id ≠ .evfLoopcnt) (i p j : Nat) :
    (s.stick f i p j).on f i j = true := by
  unfold Chip.stick
  split
  · assumption
  · unfold Chip.on
    rw [Chip.fld_raise _ h.2, Chip.fld_setFld_self, h.1]
    rfl

theorem Chip.stick_regs (s : Chip) (f : Fd) (i p j : Nat) : Chip.RegsOnly (s.stick f i p j) s := by
  unfold Chip.stick
  split
  · rfl
  · exact (Chip.raise_regs _ _).trans (s.setFld_regs _ _ _ _)

/-! ### A write at a store -/

theorem Chip.Kept.marks {t s : Chip} (h : Chip.Kept t s) (x : NStore Mark) : Chip.Kept { t with marks := x } s :=
  ⟨h.mem, h.resps, h.tb, h.boot⟩

theorem Chip.markUnit_kept (s : Chip) (m : Master) (a n : Nat) (p : Bool) (u : Nat) : Chip.Kept (s.markUnit m a n p u) s := by
  have put : ∀ (c : Bool) (x y : NStore Mark), Chip.Kept (if c then { s with marks := x } else { s with marks := y }) s := by
    intro c x y
    cases c <;> exact ⟨rfl, rfl, rfl, rfl⟩
  have log : ∀ (c : Bool) (t : Chip), Chip.Kept t s →
      Chip.Kept (if c then t.logErr 8 m (s.storeOf u) (s.localAddr a) else t) s := by
    intro c t h
    cases c
    · exact h
    · exact (Chip.logErr_kept _ _ _ _ _).trans h
  unfold Chip.markUnit
  dsimp only
  split
  · exact (log _ _ (put _ _ _)).marks _
  · exact log _ _ (put _ _ _)

/-- A write at a store changes the bytes it names, and neither the responses nor the count. -/
theorem Chip.memWrite_mem (s : Chip) (m : Master) (a n v : Nat) (p : Bool) :
    (s.memWrite m a n v p).mem = Memory.write s.mem a v n ∧ (s.memWrite m a n v p).resps = s.resps := by
  unfold Chip.memWrite Chip.disarmInj
  have k := Chip.foldl_kept (fun t u => t.markUnit m a n p u) (fun t u => t.markUnit_kept m a n p u) (unitsOf a n)
    { s with mem := Memory.write s.mem a v n }
  dsimp only
  split
  · exact ⟨k.mem, k.resps⟩
  · exact ⟨k.mem, k.resps⟩

theorem Chip.countCe_kept (s : Chip) (st : Nat) : Chip.Kept (s.countCe st) s := by
  have b : ∀ x, Chip.Kept { s.bump F.fabCe_COUNT F.fabCe_SAT st with ceHours := x } s := fun x =>
    ⟨(s.bump_kept _ _ _ _ _).mem, (s.bump_kept _ _ _ _ _).resps, (s.bump_kept _ _ _ _ _).tb, (s.bump_kept _ _ _ _ _).boot⟩
  have c : ∀ (p : Prop) [Decidable p] (t : Chip), Chip.Kept t s →
      Chip.Kept (if p then t.stick F.fabStat_CE_HIGH 0 342 else t) s := by
    intro p _ t h
    split
    · exact (Chip.stick_kept _ _ _ _ _).trans h
    · exact h
  exact c _ _ (b _)

theorem Chip.countUe_kept (s : Chip) (st : Nat) : Chip.Kept (s.countUe st) s :=
  (Chip.stick_kept _ _ _ _ _).trans (s.bump_kept _ _ _ _ _)

theorem Chip.checkUnit_kept (s : Chip) (u : Nat) : Chip.Kept (s.checkUnit u).2 s := by
  unfold Chip.checkUnit
  split
  · exact .refl s
  · exact (s.countCe_kept _).marks _
  · exact (s.countUe_kept _).marks _
  · exact .refl s

/-- A read corrects and counts; it changes no byte. -/
theorem Chip.checkUnits_kept (us : List Nat) (s : Chip) : Chip.Kept (s.checkUnits us).2 s := by
  induction us generalizing s with
  | nil => exact .refl s
  | cons u us ih => exact (ih (s.checkUnit u).2).trans (s.checkUnit_kept u)

end Sys2Proof.Machine
end

