-- ==== Sys2Proof/Laws/Rows.lean ====
section
/-! SUPPORT. What the commands over registers come to: a served access is its effect, and its response on the way
(spec/11_fabric_stores.md, R348). -/

namespace Sys2Proof.Machine

/-- A register address of this package names this package. -/
theorem Chip.localAddr_div (s : Chip) {la : Nat} (h : la < 2 ^ 30) : s.localAddr la / 2 ^ 30 = s.chipNo := by
  unfold Chip.localAddr; omega

theorem Chip.localAddr_mod (s : Chip) {la : Nat} (h : la < 2 ^ 30) : s.localAddr la % 2 ^ 30 = la := by
  unfold Chip.localAddr; omega

/-- Whether an access is held back does not depend on what it carries. -/
theorem Access.holdsBack_data (b a : Access) (v : Nat) : b.holdsBack { a with data := v } = b.holdsBack a := rfl

/-- An access that no earlier one holds back is taken at once. -/
theorem Chip.submit_free {s : Chip} {a : Access} (h : Free s a) : s.submit a = s.route a := by
  unfold Chip.submit; exact if_neg (by rw [h]; decide)

/-- An access to this package's register space that nothing holds back is performed and answered at once. -/
theorem Chip.submit_reg {s : Chip} {a : Access} (h : Free s a) (hc : a.addr / 2 ^ 30 = s.chipNo)
    (hr : 0x3C000000 ≤ a.addr % 2 ^ 30) :
    s.submit a = Chip.answer a (s.perform a.mst (a.addr % 2 ^ 30) a.size a.write a.data a.poison) := by
  rw [Chip.submit_free h]
  unfold Chip.route
  simp only [hc, if_true]
  exact if_neg fun x => absurd x.1 (Nat.not_lt.mpr hr)

/-- The same of an access to a store, no bank of which is being drained under it (R367). -/
theorem Chip.submit_store {s : Chip} {a : Access} (h : Free s a) (hc : a.addr / 2 ^ 30 = s.chipNo)
    (hr : s.heldByRepair (a.addr % 2 ^ 30) a.size = false) :
    s.submit a = Chip.answer a (s.perform a.mst (a.addr % 2 ^ 30) a.size a.write a.data a.poison) := by
  rw [Chip.submit_free h]
  unfold Chip.route
  simp only [hc, if_true]
  exact if_neg fun x => absurd (hr.symm.trans x.2) (by decide)

/-- An access through a debug window that is not refused. -/
theorem Chip.perform_window {s : Chip} {la n v : Nat} {w pz : Bool} (h : s.domOn 41 = true) (hl : 0x18000000 ≤ la ∧ la < 0x1A000000)
    (m : Master) : s.perform m la n w v pz = s.accessWin la n w v := by
  unfold Chip.perform
  rw [if_neg (by omega), if_neg (by simp [h]), if_pos hl]

theorem Chip.accessWin_read {s t : Chip} {la n v d : Nat} {p : Bool} (h : s.winRefuses la n false = none)
    (hr : s.winRead la = (d, p, t)) : s.accessWin la n false v = (if p then .poison else .okay, d, t) := by
  unfold Chip.accessWin
  rw [h, hr]
  rfl

theorem Chip.accessWin_write {s : Chip} {la n v : Nat} (h : s.winRefuses la n true = none) :
    s.accessWin la n true v = (.okay, 0, (s.winWrite la (v % 2 ^ 32)).dmaLevels) := by
  unfold Chip.accessWin
  rw [h]
  rfl

theorem Chip.accessWin_refused {s : Chip} {la n v : Nat} {w : Bool} {k : RespKind} (h : s.winRefuses la n w = some k) :
    s.accessWin la n w v = (k, 0, s) := by
  unfold Chip.accessWin
  rw [h]

/-- A command whose accesses meet no bank that is being drained. -/
theorem Chip.orWait_ran {s : Chip} (h : s.fld F.fabSpareStat_PHASE ≠ 2) (f : Chip → Chip) : s.orWait f = f s := by
  unfold Chip.orWait; rw [if_pos h]

/-- A write that is served does what the register's unit does with it. -/
theorem Chip.regWrite_served {s : Chip} {m : Master} {id : RegId} {i j : Nat} (h : Served s m id i j true) (v : Nat) :
    s.regWrite m id i j v = ((s.taken id).writeReg m id i j (v % 2 ^ 32)).afterWrite s m id i j v := by
  obtain ⟨h1, h2, h3, h4, h5, h6, h7⟩ := h
  unfold Chip.regWrite Chip.direct
  refine (Chip.submit_reg (a := given m true (s.localAddr (id.addr i j)) 4 v false) h7 (s.localAddr_div h4)
    ((s.localAddr_mod h4).symm ▸ h3)).trans ?_
  simp only [given, s.localAddr_mod h4]
  simp only [Chip.perform, if_pos h3, h2, h1, h5, Chip.accessReg, h6, Chip.answer, Chip.afterWrite, given, Chip.taken]
  simp

/-- A read that is served answers what the register reads as, and leaves what reading it leaves. -/
theorem Chip.regRead_served {s : Chip} {m : Master} {id : RegId} {i j : Nat} (h : Served s m id i j false) :
    s.regRead m id i j = (s.readReg m id i j).2.afterRead s m id i j (s.readReg m id i j).1 := by
  obtain ⟨h1, h2, h3, h4, h5, h6, h7⟩ := h
  unfold Chip.regRead Chip.direct
  refine (Chip.submit_reg (a := given m false (s.localAddr (id.addr i j)) 4 0 false) h7 (s.localAddr_div h4)
    ((s.localAddr_mod h4).symm ▸ h3)).trans ?_
  simp only [given, s.localAddr_mod h4]
  simp only [Chip.perform, if_pos h3, h2, h1, h5, Chip.accessReg, h6, Chip.answer, Chip.afterRead, given]
  simp

/-- While power-on reset does not hold, a command's effect happens. -/
theorem State.act_live {s : State} (h : Live s) (f : Chip → Chip) : s.act f = .next { s with chip := f s.chip } := by
  simp [State.act, h]

/-- A unit whose domain is on acts. -/
theorem Chip.whenOn_on {s : Chip} {d : Nat} (h : s.domOn d = true) (f : Chip → Chip) : s.whenOn d f = f s := by
  simp [Chip.whenOn, h]

/-- A unit whose domain is off does nothing. -/
theorem Chip.whenOn_off {s : Chip} {d : Nat} (h : s.domOn d = false) (f : Chip → Chip) : s.whenOn d f = s := by
  simp [Chip.whenOn, h]

/-! ### Line program commands -/

/-- An engine that may execute a command executes the one at its program address. -/
theorem Chip.lpeRow_cmd {c : Chip} {n op w : Nat} {ops : List Nat} (h : LpeCmd c n op w) (ho : ops.contains op = true)
    (k : Nat → Chip → Chip) : c.lpeRow n ops k = k w (c.lpeNext n) := by
  obtain ⟨h1, h0, h2, h3, h4⟩ := h
  unfold Chip.lpeRow
  rw [Chip.whenOn_on h1, Chip.orWait_ran h0]
  unfold Chip.lpeOn Chip.lpeNext
  rw [if_pos h2]
  rcases hf : c.lpeFetch (c.lpe n).pc with ⟨f, t⟩
  rw [hf] at h3
  subst h3
  simp only [h4, ho, if_true]

/-- The word after a command's first, where it is an address of the pattern store. -/
theorem Chip.lpeAddrWord_word {c : Chip} {n a : Nat} (h : LpeWord c n a) (ha : LpeTarget a) (k : Nat → Chip → Chip) :
    c.lpeAddrWord n k = k a (c.lpeNext n) := by
  obtain ⟨h1, h2, h3⟩ := h
  unfold Chip.lpeAddrWord Chip.lpeNext
  rcases hf : c.lpeFetch (c.lpe n).pc with ⟨f, t⟩
  rw [hf] at h3
  subst h3
  rw [if_neg (by simp [h1])]
  exact if_pos ha

/-- The one value of a command that writes one value. -/
theorem Chip.lpeValues_one {c : Chip} {n v : Nat} (h : LpeWord c n v) (put : Nat → Nat → Chip → Chip) :
    c.lpeValues n false put 0 1 = put 0 v (c.lpeNext n) := by
  obtain ⟨h1, h2, h3⟩ := h
  unfold Chip.lpeValues Chip.lpeNext
  simp only [Bool.false_eq_true, if_false]
  rcases hf : c.lpeFetch (c.lpe n).pc with ⟨f, t⟩
  rw [hf] at h3
  subst h3
  rw [if_neg (by simp [h1, h2])]
  rfl

/-! ### What a write to the audio block keeps first (R202) -/

theorem Chip.audTake_flds (s : Chip) : s.audTake.flds = s.flds := by
  unfold Chip.audTake
  split
  · split <;> rfl
  · rfl

@[simp] theorem Chip.audTake_fld (s : Chip) (f : Fd) (i j : Nat) : s.audTake.fld f i j = s.fld f i j := by
  unfold Chip.fld; rw [s.audTake_flds]

@[simp] theorem Chip.audTake_on (s : Chip) (f : Fd) (i j : Nat) : s.audTake.on f i j = s.on f i j := by
  unfold Chip.on; rw [s.audTake_fld]

@[simp] theorem Chip.audTake_fld64 (s : Chip) (lo hi : Fd) (i j : Nat) : s.audTake.fld64 lo hi i j = s.fld64 lo hi i j := by
  unfold Chip.fld64; rw [s.audTake_fld, s.audTake_fld]

@[simp] theorem Chip.audTake_tb (s : Chip) : s.audTake.tb = s.tb := by
  unfold Chip.audTake
  split
  · split <;> rfl
  · rfl

@[simp] theorem Chip.audTake_arm (s : Chip) : s.audTake.snd.arm = s.snd.arm := by
  unfold Chip.audTake
  split
  · split <;> rfl
  · rfl

@[simp] theorem Chip.audTake_stopping (s : Chip) : s.audTake.snd.stopping = s.snd.stopping := by
  unfold Chip.audTake
  split
  · split <;> rfl
  · rfl

/-! ### DMA commands (R255) -/

/-- A channel that is not HALTING does not settle. -/
theorem Chip.dmaSettle_kept {s : Chip} {c : Nat} (h : s.dmaState c ≠ 4) : s.dmaSettle c = s := by
  simp [Chip.dmaSettle, h]

/-- A descriptor read makes the channel ACTIVE. -/
theorem Chip.dmaFetch_state (s : Chip) (c : Nat) : (s.dmaFetch c).dmaState c = 2 := by
  unfold Chip.dmaFetch Chip.dmaState Chip.setDmaState
  rw [Chip.fld_setFld_other _ (Or.inl (by decide)), Chip.fld_setFld_self]
  rfl

theorem Chip.setDmaState_state (s : Chip) (c v : Nat) : (s.setDmaState c v).dmaState c = v % 8 := by
  unfold Chip.dmaState Chip.setDmaState
  rw [Chip.fld_setFld_self]
  rfl

/-- An error bit of a channel leaves its state. -/
theorem Chip.dmaErrBit_state (s : Chip) {f : Fd} (h : f.id ≠ F.dmacStat_STATE.id ∨ f.lo ≠ F.dmacStat_STATE.lo) (c : Nat) :
    (s.dmaErrBit f c).dmaState c = s.dmaState c := by
  have e : ∀ t : Chip, (t.setFld f c 0 1).fld F.dmacStat_STATE c = t.fld F.dmacStat_STATE c := fun t =>
    t.fld_setFld_other (h.imp Ne.symm Ne.symm) c 0 c 0 1
  unfold Chip.dmaErrBit Chip.dmaState
  dsimp only
  split
  · exact e s
  · rw [Chip.fld_raiseHop _ (by decide), Chip.fld_setFld_other _ (Or.inl (by decide)), e]

/-- A channel's request leaves a state below HALTING below it. -/
theorem Chip.dmaRequest_state {s : Chip} {c : Nat} (h : s.dmaState c = 2) : (s.dmaRequest c).dmaState c ≠ 4 := by
  have e : ∀ b, (s.setOn F.dmacStat_REQ c 0 b).dmaState c = 2 := fun b =>
    (s.fld_setFld_other (Or.inr (by decide)) c 0 c 0 _).trans h
  have k : ∀ (t : Chip) (w : Nat) (p : Prop) [Decidable p], t.dmaState c = 2 → w = 2 ∨ w = 3 →
      (if p then t.setDmaState c w else t).dmaState c ≠ 4 := by
    intro t w p _ ht hw
    split
    · rw [Chip.setDmaState_state]; omega
    · omega
  unfold Chip.dmaRequest
  have w : ∀ (b : Bool), (if b then 2 else 3) = 2 ∨ (if b then 2 else 3) = 3 := by decide
  refine k _ _ _ ?_ (w _)
  have u : ∀ (b : Bool), (if b = s.on F.dmacStat_REQ c then s else s.setOn F.dmacStat_REQ c 0 b).dmaState c = 2 := fun b => by
    split
    · exact h
    · exact e b
  exact u _

/-! ### Packets sent (R442, R448) -/

/-- Giving packets to links, and freeing their receive buffers, changes no register and nothing of the canvas. -/
theorem Chip.bufFree_same (s : Chip) (p : Packet) : (s.bufFree p).flds = s.flds ∧ (s.bufFree p).net = s.net := by
  unfold Chip.bufFree
  split <;> exact ⟨rfl, rfl⟩

theorem Chip.bufFrees_same (l : List Packet) : ∀ s : Chip,
    (l.foldl (fun t p => t.bufFree p) s).flds = s.flds ∧ (l.foldl (fun t p => t.bufFree p) s).net = s.net := by
  induction l with
  | nil => exact fun s => ⟨rfl, rfl⟩
  | cons p l ih =>
    intro s
    have h := ih (s.bufFree p)
    exact ⟨h.1.trans (s.bufFree_same p).1, h.2.trans (s.bufFree_same p).2⟩

theorem Chip.linkPump_same (s : Chip) (l : Nat) : (s.linkPump l).flds = s.flds ∧ (s.linkPump l).net = s.net := by
  unfold Chip.linkPump
  split
  · exact ⟨rfl, rfl⟩
  · exact Chip.bufFrees_same _ _

theorem Chip.talignSend_same (s : Chip) (l : Nat) : (s.talignSend l).flds = s.flds ∧ (s.talignSend l).net = s.net := by
  unfold Chip.talignSend Chip.ctlPacket
  exact Chip.linkPump_same _ _

end Sys2Proof.Machine
end

