-- ==== Sys2Proof/Laws/Time.lean ====
section
/-! SUPPORT. What a tick and a compare channel do, each said once (spec/12_time_events_measurement.md, R374 to R384). -/

namespace Sys2Proof.Machine

/-! ### A tick -/

theorem Chip.pinsWord_kept (s : Chip) (p n : Nat) :
    Chip.Kept (s.pinsWord p n).2 s ∧ (s.pinsWord p n).2.flds = s.flds := by
  unfold Chip.pinsWord
  dsimp only
  split <;> exact ⟨⟨rfl, rfl, rfl, rfl⟩, rfl⟩

/-- The synchronisers change only their samples and the free values drawn. -/
theorem Chip.samplePads_kept (s : Chip) : Chip.Kept s.samplePads s ∧ s.samplePads.flds = s.flds := by
  have h := s.pinsWord_kept 0 1024
  unfold Chip.samplePads
  generalize s.pinsWord 0 1024 = r at h
  exact ⟨⟨h.1.mem, h.1.resps, h.1.tb, h.1.boot⟩, h.2⟩

/-- The count goes on by n, whether it wraps or not, and no store changes. -/
theorem Chip.advance_tb (s : Chip) (n : Nat) :
    (s.advance n).tb = s.tb + BitVec.ofNat 64 n ∧ (s.advance n).mem = s.mem := by
  unfold Chip.advance
  dsimp only
  split
  · exact ⟨(Chip.stick_kept _ _ _ _ _).tb, (Chip.stick_kept _ _ _ _ _).mem⟩
  · exact ⟨rfl, rfl⟩

/-- What TICK does to the chip. -/
abbrev Chip.tick (s : Chip) : Chip := (s.samplePads.advance 1).noteCalm

theorem Chip.noteCalm_kept (s : Chip) : Chip.Kept s.noteCalm s ∧ s.noteCalm.flds = s.flds := ⟨⟨rfl, rfl, rfl, rfl⟩, rfl⟩

theorem Chip.tick_tb (s : Chip) : s.tick.tb = s.tb + 1 := by
  rw [(Chip.noteCalm_kept _).1.tb, (Chip.advance_tb _ 1).1, s.samplePads_kept.1.tb]
  rfl

theorem Chip.tick_mem (s : Chip) : s.tick.mem = s.mem := by
  rw [(Chip.noteCalm_kept _).1.mem, (Chip.advance_tb _ 1).2, s.samplePads_kept.1.mem]

/-- The number of the count is that of the chip before the synchronisers ran. -/
theorem Chip.samplePads_now (s : Chip) : s.samplePads.now = s.now := congrArg BitVec.toNat s.samplePads_kept.1.tb

/-- A tick that does not wrap the count changes no register. -/
theorem Chip.tick_flds (s : Chip) (h : s.now + 1 < 2 ^ 64) : s.tick.flds = s.flds := by
  rw [(Chip.noteCalm_kept _).2, ← s.samplePads_kept.2]
  have e := s.samplePads_now
  generalize s.samplePads = t at e
  unfold Chip.advance
  rw [if_neg (by omega)]

/-- The tick that wraps the count leaves WRAP set. -/
theorem Chip.tick_wrap (s : Chip) (h : s.tb = BitVec.allOnes 64) : s.tick.on F.tbStat_WRAP = true := by
  have e := s.samplePads_now
  have e2 : s.now = 2 ^ 64 - 1 := by unfold Chip.now; rw [h]; decide
  unfold Chip.tick
  generalize s.samplePads = t at e
  show (t.advance 1).on F.tbStat_WRAP = true
  unfold Chip.advance
  rw [if_pos (by omega)]
  exact Chip.on_stick _ (by decide) _ _ _

/-! ### Compare channels -/

/-- A channel that is not due does nothing, and neither does the one it shares its output with. -/
theorem Chip.compareFire_none {s : Chip} {c : Nat} (h : s.cmpDue c = none) : s.compareFire c = s := by
  simp [Chip.compareFire, Chip.cmpFireDue, h]

/-- A channel that is due and shares no output fires. -/
theorem Chip.compareFire_some {s : Chip} {c : Nat} {late : Bool} (hp : s.paired c = false) (h : s.cmpDue c = some late) :
    s.compareFire c = s.cmpFire c late := by
  simp [Chip.compareFire, Chip.cmpFireDue, h, hp]

end Sys2Proof.Machine
end

