-- ==== Sys2Proof/WellFormed.lean ====
section
/-! DEFINITION. Which commands are well formed: operands that are held as numbers lie in the ranges that the spec gives
them. Operands whose type is their range need no check. -/

namespace Sys2Proof
open Sys2Proof.Machine

/-- A master identity has 7 bits (Table 1.5); a remote one has the 8 bits of MASTER (Table 14.2) and comes over one of four
links from one of 1,024 chips. -/
def Machine.Master.wf : Master → Bool
  | .own id => decide (id < 128)
  | .remote link chip id => decide (link < 4 ∧ chip < 1024 ∧ id < 256)

/-- An access is of 1 to 16 bytes, and writes no more than it holds. -/
def Machine.FabricOp.wf : FabricOp → Bool
  | .issued _ => true
  | .given m _ _ _ size data => m.wf && decide (1 ≤ size ∧ size ≤ 16 ∧ data.toNat < 2 ^ (8 * size))

/-- The fields of a packet have the widths of Table 14.2, and its payload at most 256 bytes. -/
def Machine.Packet.wf (p : Packet) : Bool :=
  decide (p.typ < 16 ∧ p.vl < 4 ∧ p.cls < 2 ∧ p.len ≤ 256 ∧ p.seq < 4096 ∧ p.dst < 1024 ∧ p.src < 1024 ∧ p.master < 256 ∧
    p.resp < 4 ∧ p.tag < 65536 ∧ p.addr < 2 ^ 30 ∧ p.data < 2 ^ 2048 ∧ p.pmask < 65536 ∧ p.crc < 2 ^ 32 ∧ p.cuts.length ≤ 256)

/-- An AUX reply carries at most 16 bytes (R189). -/
def Machine.AuxReply.wf : AuxReply → Bool
  | .ack data => decide (data.length ≤ 16)
  | _ => true

/-- The units and links that a start-up meets exist. -/
def Machine.StartEnv.wf (e : StartEnv) : Bool :=
  (e.fails.all fun f => decide (f.1 ≤ 9 ∧ f.2 < 2048)) && (e.links.all fun l => decide (l.1 < 4 ∧ l.2.2 < 1024)) &&
  (e.counts.all fun n => decide (n < 2 ^ 64)) && (e.parent.all fun n => decide (n < 2 ^ 64)) && decide (e.us < 2 ^ 24)

/-- The readings of the 16 pace monitors, of 16 bits each (Table 16.5). -/
def readingsWf (l : List Nat) : Bool := decide (l.length ≤ 16) && l.all fun n => decide (n < 65536)

/-- A temperature in 0.25 °C that PSM_TEMP can hold. -/
def tempWf (t : Int) : Bool := decide (-32768 ≤ t ∧ t < 32768)

/-- Whether a command is well formed. -/
def Instr.wf (i : Instr) : Bool :=
  match i with
  | .registerWrite m _ _ => m.wf
  | .rcRead m _ => m.wf
  | .fabricAccess a => a.wf
  | .accessResponse m => m.wf
  | .latch _ _ => true
  | .lineRead _ _ _ => true
  | .vblank _ => true
  | .frameDone _ => true
  | .lmatch _ _ => true
  | .courseBegin _ => true
  | .lineCompose _ => true
  | .courseSeal _ => true
  | .teeFrameComplete _ => true
  | .scanTap _ _ => true
  | .flipArm m _ _ => m.wf
  | .fenceSignal m _ => m.wf
  | .htagArm m _ _ _ _ => m.wf
  | .regionLock m _ _ _ => m.wf
  | .freezeClear m _ => m.wf
  | .signatureRead m _ _ _ => m.wf
  | .lpEnd _ => true
  | .lpWait _ => true
  | .lpWaitr _ => true
  | .lpWr _ => true
  | .lpWrt _ => true
  | .lpAdd _ => true
  | .lpWrp _ => true
  | .lpWrm _ => true
  | .lpSetc _ => true
  | .lpDjnz _ => true
  | .lpJump _ => true
  | .lpCall _ => true
  | .lpRet _ => true
  | .lpSetp _ => true
  | .lpBadCmd _ => true
  | .lineRelease _ => true
  | .runaway _ => true
  | .headRun m _ _ => m.wf
  | .headStartInstant _ _ => true
  | .headStop m _ _ => m.wf
  | .pllLocked _ => true
  | .pllLost _ => true
  | .genlockFrameRef _ _ => true
  | .lockLost _ => true
  | .faddrWrite m _ _ => m.wf
  | .fstampRead m _ => m.wf
  | .glFperRead m => m.wf
  | .train m _ _ _ _ _ => m.wf
  | .hpdPlug _ _ _ _ _ => true
  | .hpdUnplug _ => true
  | .hpdIrq _ _ _ => true
  | .auxTransaction m _ _ => m.wf
  | .auxReply _ r => r.wf
  | .auxTimeout _ => true
  | .psrEnter m _ => m.wf
  | .psrExit m _ => m.wf
  | .audioRun m _ => m.wf
  | .audioStart => true
  | .blockCompute => true
  | .blockSend => true
  | .holdRelease m _ => m.wf
  | .keyOn m _ => m.wf
  | .keyOff m _ => m.wf
  | .voiceStop m _ => m.wf
  | .timedCommand m _ _ => m.wf
  | .heldWriteTaken k => decide (k.toNat < 5504)
  | .portEnable m _ _ => m.wf
  | .clkLoss _ => true
  | .rateSlip _ => true
  | .voiceRotation _ _ => true
  | .blitGo m => m.wf
  | .blitAbort m => m.wf
  | .blitBegin => true
  | .blitBurst => true
  | .blitWmark => true
  | .blitDone => true
  | .blitError => true
  | .dmaStart m _ => m.wf
  | .dmaHalt m _ => m.wf
  | .dmaResume m _ => m.wf
  | .dmaAbort m _ => m.wf
  | .dmaBell m _ => m.wf
  | .descriptorReturn _ => true
  | .dmaBurstStart => true
  | .pointerUpdate _ => true
  | .descriptorFinish _ => true
  | .instructionIssue _ => true
  | .syncComplete _ => true
  | .fabResult _ => true
  | .wfiEnd _ => true
  | .interruptEntry _ => true
  | .accTimeout _ => true
  | .coreRun m _ => m.wf
  | .coreHalt m _ => m.wf
  | .coreStep m _ => m.wf
  | .coreReset m _ => m.wf
  | .windowRead m _ _ => m.wf
  | .windowWrite m _ _ _ => m.wf
  | .coreRotation _ _ => true
  | .sourceEdge _ => true
  | .swset m _ => m.wf
  | .coreWakeDone _ => true
  | .claim m _ => m.wf
  | .mailboxSend _ _ => true
  | .mailboxRecv _ _ => true
  | .channelCfgWrite m _ _ => m.wf
  | .channelTimeout _ => true
  | .scrub _ => true
  | .elogPop m => m.wf
  | .ceHourEnd _ => true
  | .spareGo m _ => m.wf
  | .copyDone => true
  | .drainDone => true
  | .rowSwitch => true
  | .laneRotation _ _ => true
  | .tick => true
  | .refLost => true
  | .refReturn => true
  | .tbRead m => m.wf
  | .compareArm m _ _ => m.wf
  | .compareFire _ => true
  | .disarm m _ _ => m.wf
  | .intervalStart m _ => m.wf
  | .intervalCont m _ => m.wf
  | .intervalStop m _ => m.wf
  | .intervalLoad m _ => m.wf
  | .prescaledTick _ => true
  | .captureAccept _ _ _ => true
  | .captureCommit _ => true
  | .captureRead m _ => m.wf
  | .adcReady => true
  | .adcStart m => m.wf
  | .adcStop m => m.wf
  | .adcResult _ => true
  | .adcFifoPop m => m.wf
  | .eventDelivery => true
  | .swtrig m _ => m.wf
  | .swprod m _ => m.wf
  | .funcChange m _ _ => m.wf
  | .pinSet m _ _ => m.wf
  | .pinClr m _ _ => m.wf
  | .pinTgl m _ _ => m.wf
  | .lockKey m _ => m.wf
  | .pinPark m => m.wf
  | .unpark m => m.wf
  | .vioChange _ _ => true
  | .wakeEdge _ _ => true
  | .pinEdge _ _ _ => true
  | .serialPush m _ _ => m.wf
  | .serialPop m _ => m.wf
  | .uartFrame _ _ => true
  | .spiFrame _ _ => true
  | .i2cByte _ _ => true
  | .psqStop _ => true
  | .psqBranch _ => true
  | .psqAwait _ => true
  | .psqAwaitEnd _ _ _ => true
  | .psqStamp _ => true
  | .psqDrive _ => true
  | .psqSample _ => true
  | .psqPut _ => true
  | .psqFetch _ => true
  | .psqDeposit _ => true
  | .psqCopy _ => true
  | .psqSignal _ => true
  | .psqBadInst _ => true
  | .psqTimedAction _ => true
  | .psqFifoWaitEnd _ => true
  | .psqHalt m _ => m.wf
  | .psqResume m _ => m.wf
  | .psqRestart m _ => m.wf
  | .psqFlush m _ => m.wf
  | .psqRotation _ _ => true
  | .packetReceive _ p _ => p.wf
  | .linkAck _ _ => true
  | .linkNak _ => true
  | .linkCredit _ _ _ => true
  | .ackTimeout _ => true
  | .retrain _ _ _ => true
  | .laneSpare _ _ => true
  | .routeNotice _ _ => true
  | .responseTimeout _ => true
  | .broadcast m _ _ _ => m.wf
  | .talign _ _ _ _ _ _ _ => true
  | .tickAdjust => true
  | .lateJoin _ => true
  | .startUp e => e.wf
  | .powerOnReset _ => true
  | .powerOnResetRelease _ => true
  | .resetN _ => true
  | .coldReset m => m.wf
  | .keystoneReset m => m.wf
  | .perst => true
  | .functionLevelReset _ => true
  | .watchdogBite => true
  | .watchdogKick m _ => m.wf
  | .bootRead m => m.wf
  | .bootProgram m => m.wf
  | .bootErase4k m => m.wf
  | .bootErase64k m => m.wf
  | .bootCmdDone _ => true
  | .barRequest _ _ _ _ size v => decide (1 ≤ size ∧ size ≤ 4096 ∧ v < 2 ^ (8 * size))
  | .outboundAccess _ => true
  | .outboundTimeout _ => true
  | .vectorUnmask _ _ => true
  | .smbBootStatus => true
  | .smbId => true
  | .smbDigest => true
  | .smbSetAddress _ _ => true
  | .smbRead => true
  | .smbWrite _ _ => true
  | .smbWriteStatus => true
  | .footPark _ => true
  | .footReload _ => true
  | .footCold _ => true
  | .domainOff m _ => m.wf
  | .coreGate _ => true
  | .stateEntry => true
  | .wake => true
  | .stateExit => true
  | .alarm => true
  | .psmWake m => m.wf
  | .rearm m _ => m.wf
  | .toleranceChange => true
  | .thermHi tj => tempWf tj
  | .thermTrip tj => tempWf tj
  | .thermRecover tj => tempWf tj
  | .avsPeriod paces _ => readingsWf paces
  | .wearRefresh wears => readingsWf wears
  | .assayRequest m _ _ => m.wf
  | .assayAbort m => m.wf
  | .assayRun => true
  | .assayResult _ _ rows => rows.all fun r => decide (r < 4096)
  | .resPop m => m.wf
  | .lgrPop m => m.wf
  | .maintenanceEnter m => m.wf
  | .railEnter _ => true
  | .railLeave _ => true
  | .tbPllLock => true
  | .audioPllLock => true
  | .configurationRequest _ _ _ _ => true
  | .pcieLinkState _ => true
  | .testmode _ => true

end Sys2Proof
end

