-- ==== Sys2Proof/Tests/Slice0.lean ====
section
/-! SUPPORT. Tests: ill-formed commands that the checks turn away, the spec's worked examples, and a state that meets the
hypotheses of each clause of each statement. Expected values are the spec's, or worked by hand from it. -/

set_option linter.unusedVariables false

namespace Sys2Proof.Tests
open Sys2Proof.Machine

def base : Chip :=
  ((Chip.fresh.setFld F.psmDom_ON 0 0 0xFFFFFFFF).setFld F.psmDom_ON 1 0 0xFFFFFFFF).setFld F.psmDom_ON 2 0 3
/-- A head 1 whose settings may start: 640 by 480 on the DACs. -/
def scanBase : Chip :=
  [(F.shHtime_HA, 640), (F.shHtime_HT, 800), (F.shHsync_HFP, 16), (F.shHsync_HSW, 96), (F.shVtime_VA, 480),
   (F.shVtime_VT, 525), (F.shVsync_VFP, 10), (F.shVsync_VSW, 2), (F.shPclk_FREQ, 30000 * 4096), (F.shOut_OUTSEL, 2),
   (F.shStat_PLL_LOCK, 1), (F.shCtrl_PLL_EN, 1)].foldl (fun t p => t.setFld p.1 1 0 p.2) base
/-- Head 1 scanning with those settings; and in the tick in which dot x of its line y begins. -/
def scanning : Chip :=
  { (scanBase.setFld F.shStat_RUNNING 1 0 1).setFld F.shCtrl_RUN 1 0 1 with heads := [(1, { cur := some ⟨2 ^ 40, 0⟩ })] }
def beamBase (x y : Nat) : Chip := { scanning with tb := BitVec.ofNat 64 (scanning.beam16 1 x y / 65536).toNat }
/-- Head 1, of 16 empty lines, has a course whose lines the engine has released. -/
def composeBase : Chip :=
  { base.setFld F.shVtime_VA 1 0 16 with
    comps := [(1, { composing := true, frms := [{ lanes := [3] }] })], lpes := [(1, { released := 9 })] }
/-- A descriptor of 64 bytes at 0x08000000, the last of its chain. -/
def dmaDesc : Desc := { addr := 0x08000000, ctrl := 0x88000000, len := 64, src := 0x08001000, ext := 0, dst := 0x08002000, next := 0 }
/-- DMA channel 5 with that descriptor in hand; and at its end. -/
def dmaBase : Chip := { base.setFld F.dmacStat_STATE 5 0 2 with dma := [(5, { desc := some dmaDesc })] }
def dmaEnd : Chip := dmaBase.setFld F.dmacPos_POS 5 0 64
/-- Interrupt source 65 pending for core 0, which waits; and which runs with interrupts enabled. -/
def srcBase : Chip := ((base.setFld F.intcPend_PEND 2 0 2).setFld F.intcSrc_PRIO 64 0 5).setFld F.intcSrc_TARGETS 64 0 1
def reqBase : Chip := srcBase.setFld F.coreStat_STATE 0 0 3
def irqBase : Chip := (srcBase.setFld F.coreStat_STATE 0 0 2).setPort 0 0x182 1
/-- Core 3 runs a move that pops an empty sequencer FIFO. -/
def popBase : Chip := { base.setFld F.coreStat_STATE 3 0 2 with cores := [(3, { imem := [(0, 0x1B43E0000)] })] }
/-- Channel 3 in use, with core 2, which runs, as its receiver. -/
def mbxBase : Chip := ((base.setFld F.mbxChCfg_EN 3 0 1).setFld F.mbxChCfg_RXID 3 0 2).setFld F.coreStat_STATE 2 0 2
/-- Sequencer 3 with instruction w before it, running or waiting. -/
def seqBase (state w : Nat) : Chip := (base.setFld F.psqStat_STATE 3 0 state).setFld F.psqProg_INST 3 0 w
/-- Link 0 is UP with lanes 0 to 3. -/
def laneBase : Chip := ((base.setFld F.lnklStat_STATE 0 0 2).setFld F.lnklStat_LANES 0 0 15).setFld F.lnklStat_WIDTH 0 0 4
/-- Package 0 of a ring of four, its routes filled. -/
def ringBase : Chip :=
  let t := ((base.setFld F.lnkCfg_ROLE 0 0 1).setFld F.lnkCfg_TOPO 0 0 1).setFld F.lnkCfg_WM1 0 0 3
  { t with net := { t.net with filled := true } }
/-- The boot memory with one good copy: no sections but an empty list of registers (Table 15.1). -/
def image : NStore Nat :=
  [(0, 86), (1, 76), (2, 83), (3, 75), (4, 1), (5, 0), (6, 0), (7, 1), (8, 16), (9, 1), (10, 0), (11, 0), (12, 1), (13, 0), (14, 2), (15, 0), (16, 5), (17, 0), (18, 0), (19, 92), (20, 32), (21, 3), (24, 0), (25, 0), (26, 0), (27, 0), (28, 100), (29, 0), (32, 0), (33, 0), (34, 0), (35, 0), (36, 0), (37, 0), (38, 0), (39, 0), (40, 100), (41, 0), (44, 0), (45, 0), (64, 0), (65, 0), (66, 0), (67, 0), (68, 0), (69, 0), (70, 0), (71, 0), (76, 53), (77, 216), (78, 220), (79, 45), (252, 83), (253, 242), (254, 222), (255, 177), (256, 2), (257, 0), (258, 0), (259, 0), (260, 16), (261, 1), (262, 0), (263, 0), (264, 0), (265, 0), (266, 0), (267, 0), (268, 0), (269, 0), (270, 0), (271, 0)]
/-- A cold start with that memory and every rail good; and the chip after its sections are loaded. -/
def bootBase : Chip :=
  [F.sysSupply_VCORE_OK, F.sysSupply_VMEM_OK, F.sysSupply_VSER09_OK, F.sysSupply_VSER12_OK].foldl (fun t f => t.setFld f 0 0 1)
    { Chip.fresh with boot := { mem := image, due := some 0 } }
def bootLoaded : Bool × Chip :=
  let t := (((((bootBase.startBegin 0).takeHeader 0 0).startPower 0 {}).startLedger.startPark 0).setFld F.sysBoot_COPY 0 0 0).setOn
    F.sysBoot_FALLBACK 0 0 false
  t.loadSections 0 (t.boot.sections 0)
/-- A write that goes to host memory through window 0, which is in use. -/
def outAcc : Access := given (.own 0) true 0 4 7 false
def outBase : Chip :=
  { base.setFld F.hstObwinLo_EN 0 0 1 with pcie := { up := true, outQ := [outAcc] }, busMaster := [0] }
/-- Every core asleep, entries allowed, the tolerance wide; and with head 1 showing a self-refreshing panel. -/
def sleepBase : Chip :=
  [(F.psmCtrl_AUTO, 1), (F.psmCtrl_MAXSTATE, 1), (F.hstLtol_EN, 1), (F.hstLtol_US, 1000)].foldl (fun t p => t.setFld p.1 0 0 p.2)
    { (List.range 8).foldl (fun t k => t.setFld F.coreStat_STATE k 0 4) base with
      tb := 20000000, psm := { base.psm with calm := [(1, 0), (2, 0)] } }
def headSleep : Chip :=
  { [(F.shStat_RUNNING, 1), (F.shOut_OUTSEL, 1), (F.shDpcfg_PSR_EN, 1)].foldl (fun t p => t.setFld p.1 1 0 p.2)
      (sleepBase.setFld F.psmCtrl_MAXSTATE 0 0 2) with heads := [(1, { sinkPsr := true })] }
def st (c : Chip) : State := ⟨[], ⟨false, false⟩, c⟩

/-! ### Ill-formed commands: one for each check -/

theorem test_wf_master : (Instr.rcRead (.own 128) 0).wf = false ∧ (Instr.rcRead (.own 127) 0).wf = true := by decide
theorem test_wf_remote : (Instr.rcRead (.remote 4 0 0) 0).wf = false ∧ (Instr.rcRead (.remote 3 1023 255) 0).wf = true := by decide
theorem test_wf_access : (Instr.fabricAccess (.given (.own 0) true false 0 17 0)).wf = false ∧
    (Instr.fabricAccess (.given (.own 0) true false 0 1 256)).wf = false ∧
    (Instr.fabricAccess (.given (.own 0) true false 0 1 255)).wf = true := by decide
theorem test_wf_packet : (Instr.packetReceive 0 { (default : Packet) with seq := 4096 } true).wf = false ∧
    (Instr.packetReceive 0 { (default : Packet) with len := 257 } true).wf = false ∧
    (Instr.packetReceive 0 default true).wf = true := by decide +kernel
theorem test_wf_aux : (Instr.auxReply 0 (.ack (List.replicate 17 0))).wf = false ∧
    (Instr.auxReply 0 (.ack (List.replicate 16 0))).wf = true := by decide
theorem test_wf_start_up : (Instr.startUp { (default : StartEnv) with fails := [(10, 0)] }).wf = false ∧
    (Instr.startUp default).wf = true := by decide
theorem test_wf_bar : (Instr.barRequest 0 0 true 0 4 (2 ^ 32)).wf = false ∧ (Instr.barRequest 0 0 false 0 0 0).wf = false ∧
    (Instr.barRequest 0 0 true 0 4 (2 ^ 32 - 1)).wf = true := by decide
theorem test_wf_readings : (Instr.avsPeriod (List.replicate 17 0) true).wf = false ∧ (Instr.wearRefresh [65536]).wf = false ∧
    (Instr.wearRefresh [65535]).wf = true := by decide
theorem test_wf_temperature : (Instr.thermHi 32768).wf = false ∧ (Instr.thermHi (-32768)).wf = true := by decide
theorem test_wf_rows : (Instr.assayResult 0 0 [4096]).wf = false ∧ (Instr.assayResult 0 0 [4095]).wf = true := by decide
theorem test_wf_held_write : (Instr.heldWriteTaken 5504).wf = false ∧ (Instr.heldWriteTaken 5503).wf = true := by decide

/-! ### The spec's own worked examples -/

/-- R139: the CRC of the bytes "123456789". -/
theorem test_crc : crcEnd (crcBytes 0xFFFFFFFF 0x393837363534333231 9) = 0xE3069283 := by decide +kernel

/-- R51: the 5-bit value 0b10110 widens to 0xB5A, 0xFF to 0xFFF and 0x80 to 0x808. -/
theorem test_widen : widen 5 0b10110 = 0xB5A ∧ widen 8 0xFF = 0xFFF ∧ widen 8 0x80 = 0x808 := by decide +kernel

/-- The stages of pixel (1200, 900) worked below R121: the sprite, the tile, the backdrop. -/
theorem test_blend_sprite : (({} : Acc4).blend (layerPixel 0 0xFFF ⟨2056, 4095, 1028, 0⟩)) = ⟨2056, 516, 0, 2056⟩ := by decide +kernel
theorem test_blend_tile : ((⟨2056, 516, 0, 2056⟩ : Acc4).blend (layerPixel 0 0x800 ⟨4095, 514, 1542, 2570⟩)) = ⟨2184, 900, 640, 3076⟩ := by
  decide +kernel
theorem test_blend_backdrop : widen 10 0x100 = 1025 ∧ 640 + mul12 1025 (4095 - 3076) = 895 := by decide +kernel

/-- R182: red 2501 at 16 bpp. -/
theorem test_dither : ditherTo 0 7 2501 0 0 = 19 ∧ ditherTo 1 7 2501 0 0 = 20 ∧ ditherTo 2 7 2501 1 0 = 20 ∧
    ditherTo 2 7 2501 0 0 = 19 := by decide +kernel

/-- R215: a block with s0 = 1,000, q0 = 8, P = 0 and the codes 3 and -2. -/
theorem test_adpcm : adpcmSample (1000 + 8 * 2 ^ 24 + 0xE3 * 2 ^ 32) 0 = 1192 ∧
    adpcmSample (1000 + 8 * 2 ^ 24 + 0xE3 * 2 ^ 32) 1 = 1064 := by decide +kernel

/-- R201: a sum of 300 voices at full scale does not saturate a bus. -/
theorem test_bus_room : satMix (300 * 8388607) = 2516582100 := by decide +kernel

/-- Table 9.4: GP02 to ALU0.ADD, GP03 to ALU0.A, ALU0.R to GP02, 5 to GP02, with GP02 = 10, GP03 = 7 and ALU0.R = 40. -/
def slotOrder : Chip :=
  (((base.setPort 0 2 10).setPort 0 3 7).setPort 0 0x41 40).issueNow 0 0
    ((0x048 * 2 ^ 24 + 2 * 2 ^ 11) * 2 ^ 108 + (0x040 * 2 ^ 24 + 3 * 2 ^ 11) * 2 ^ 72 + (0x002 * 2 ^ 24 + 0x041 * 2 ^ 11) * 2 ^ 36 +
      (0x002 * 2 ^ 24 + 2 ^ 23 + 5)) false
theorem test_slot_order : slotOrder.port 0 0x41 = 17 ∧ slotOrder.port 0 0x40 = 7 ∧ slotOrder.port 0 2 = 5 := by decide +kernel

/-- Table 9.15: an indexed, a post-incremented and a pre-decremented load, BASE being 0x1000, 0x1000 and 0x1003. -/
def loadFrom (b : Nat) (m : Nat) (i : Nat) : Nat × Nat :=
  let s := ((base.putDmem 0 0x100A 77).putDmem 0 0x1000 88).setPort 0 0xC0 b
  let t := s.fireLsu s 0 0 ⟨0, 0xC8, none, 0, m⟩ i
  (t.port 0 0xC2, t.port 0 0xC0)
theorem test_loads : loadFrom 0x1000 0x080 5 = (77, 0x1000) ∧ loadFrom 0x1000 0x203 0 = (88, 0x1003) ∧
    loadFrom 0x1003 0x403 0 = (88, 0x1000) := by decide +kernel

/-- Table 10.6 at 0 tk: source 200 of PRIO 6 for cores 1, 2 and 3, of which 1 runs at PRI 4, 2 sleeps and 3 waits. -/
def delivery : Chip :=
  ([(F.intcSrc_PRIO, 199, 6), (F.intcSrc_TARGETS, 199, 0x0E), (F.intcPri_PRI, 1, 4), (F.coreStat_STATE, 1, 2),
    (F.coreStat_STATE, 2, 4), (F.coreStat_STATE, 3, 3)].foldl (fun t p => t.setFld p.1 p.2.1 0 p.2.2) base).raiseSource 200
theorem test_delivery : delivery.assigned 200 = some 3 ∧ delivery.claimWord 3 = 200 ∧ (delivery.claim 3).pri 3 = 6 := by decide +kernel

/-! ### Reset, the queue and the table's words -/

theorem test_reset_row : State.reset.chip.word .sysRstcause = 1 ∧ State.reset.chip.fld F.psmVlim_VMAX = 900 := by decide +kernel
theorem test_no_words : decodeTableWord 32 0 = none ∧ State.reset.withFetchWord 32 0 = State.reset := by decide +kernel
theorem test_step_front : (match step { st base with pending := [.tick, .tick] } with
    | .next t => (t.chip.tb, t.pending)
    | _ => (0, [])) = (1, [.tick]) := by decide +kernel

/-! ### States that meet each statement's hypotheses -/

theorem meets_StepRunsFront_1 : ∃ (s : State) (i : Instr) (rest : List Instr), s.pending = i :: rest :=
  ⟨{ st base with pending := [.tick] }, .tick, [], by decide⟩

theorem meets_StepRunsFront_2 : ∃ (s : State), s.pending = [] :=
  ⟨st base, by decide⟩

theorem meets_TestmodeKept_1 : ∃ (s : State) (t : State), TestmodeInv s ∧ step s = .next t :=
  ⟨st base, st base, by decide, rfl⟩

theorem meets_PowerOnResetHolds_1 : ∃ (s : State) (i : Instr), s.sup.por = true ∧ actsInReset i = false :=
  ⟨{ st base with sup := ⟨true, false⟩ }, .startUp default, by decide⟩

theorem meets_RegisterAddresses_1 : ∃ (id : RegId) (i : Nat) (j : Nat), i < id.row.n1 ∧ j < id.row.n2 :=
  ⟨.hmkCfg, 7, 63, by decide⟩

theorem meets_MemoryKept_1 : ∃ (s : State) (t : State), MemoryInv s ∧ step s = .next t :=
  ⟨{ st { base with mem := [(0x08000000, 5#8)] } with pending := [.fabricAccess (.given (.own 0) true false 0x08000001 1 7)] }, st (Chip.route { base with mem := [(0x08000000, 5#8)] } (given (.own 0) true 0x08000001 1 7 false)), by decide, rfl⟩

theorem meets_RegisterWrites_1 : ∃ (s : State) (m : Master) (id : RegId) (i : Nat) (j : Nat) (a : BitVec 40), Live s ∧
    Served s.chip m id i j true ∧ a.toNat = s.chip.localAddr (id.addr i j) :=
  ⟨st base, .own 0, .hstWinchip, 0, 0, 0x3F000104, by decide⟩

theorem meets_RegisterWrites_2 : ∃ (s : State) (m : Master) (a : BitVec 40), Live s ∧ Served s.chip m .hstWinchip 0 0 true ∧
    a.toNat = s.chip.localAddr (RegId.addr .hstWinchip 0 0) :=
  ⟨st base, .own 0, 0x3F000104, by decide⟩

theorem meets_RegisterWrites_3 : ∃ (s : State) (m : Master) (a : BitVec 40), Live s ∧ Served s.chip m .psmAlarmCtrl 0 0 true
    ∧ a.toNat = s.chip.localAddr (RegId.addr .psmAlarmCtrl 0 0) :=
  ⟨st base, .own 0, 0x3C100050, by decide⟩

theorem meets_ReadClears_1 : ∃ (s : State) (m : Master) (a : BitVec 40), Live s ∧ Served s.chip m .psmOffcnt 0 0 false ∧
    a.toNat = s.chip.localAddr (RegId.addr .psmOffcnt 0 0) :=
  ⟨st base, .own 0, 0x3C100058, by decide⟩

theorem meets_ReadClears_2 : ∃ (s : State) (m : Master) (a : BitVec 40), Live s ∧ Served s.chip m .hstWinchip 0 0 false ∧
    a.toNat = s.chip.localAddr (RegId.addr .hstWinchip 0 0) :=
  ⟨st base, .own 0, 0x3F000104, by decide⟩

theorem meets_RefusedAccesses_1 : ∃ (s : State) (m : Master) (a : BitVec 40) (v : BitVec 32) (id : RegId) (i : Nat) (j :
    Nat) (k : RespKind), Live s ∧ s.chip.domOn 41 = true ∧ a.toNat / 2 ^ 30 = s.chip.chipNo ∧ 0x3C000000 ≤ a.toNat % 2 ^ 30
    ∧ a.toNat % 4 = 0 ∧ decodeReg (a.toNat % 2 ^ 30) = some (id, i, j) ∧ s.chip.regRefuses m id i true = some k ∧ id ≠
    .mbxChCfg ∧ id ≠ .mbxChStat ∧ Free s.chip (given m true a.toNat 4 v.toNat false) :=
  ⟨st (base.setFld F.psmDom_ON 2 0 1), .own 0, 0x3C180000, 0, .asyReq, 0, 0, .domainOff, by decide⟩

theorem meets_RefusedAccesses_2 : ∃ (s : State) (m : Master) (a : BitVec 40) (v : BitVec 32), Live s ∧ a.toNat / 2 ^ 30 =
    s.chip.chipNo ∧ 0x3C000000 ≤ a.toNat % 2 ^ 30 ∧ (a.toNat % 4 ≠ 0 ∨ decodeReg (a.toNat % 2 ^ 30) = none) ∧ Free s.chip
    (given m true a.toNat 4 v.toNat false) :=
  ⟨st base, .own 0, 0x3C000030, 0, by decide⟩

theorem meets_StoreAccesses_1 : ∃ (s : State) (m : Master) (p : Bool) (a : BitVec 40) (n : Nat) (d : BitVec 128), Live s ∧
    s.chip.domOn 41 = true ∧ a.toNat / 2 ^ 30 = s.chip.chipNo ∧ a.toNat % 2 ^ 30 < 0x17210000 ∧ ¬ (0x16000000 ≤ a.toNat % 2
    ^ 30 ∧ a.toNat % 2 ^ 30 < 0x17000000) ∧ natural (a.toNat % 2 ^ 30) n = true ∧ s.chip.storeUp (a.toNat % 2 ^ 30) = true ∧
    s.chip.heldByRepair (a.toNat % 2 ^ 30) n = false ∧ Free s.chip (given m true a.toNat n d.toNat p) :=
  ⟨st base, .own 0, false, 0x08000010, 16, 0, by decide⟩

theorem meets_StoreAccesses_2 : ∃ (s : State) (m : Master) (a : BitVec 40) (n : Nat) (d : BitVec 128), Live s ∧ s.chip.domOn
    41 = true ∧ a.toNat / 2 ^ 30 = s.chip.chipNo ∧ a.toNat % 2 ^ 30 < 0x17210000 ∧ natural (a.toNat % 2 ^ 30) n = true ∧
    s.chip.storeUp (a.toNat % 2 ^ 30) = true ∧ s.chip.heldByRepair (a.toNat % 2 ^ 30) n = false ∧ Free s.chip (given m false
    a.toNat n d.toNat false) :=
  ⟨st base, .own 0, 0x08000010, 16, 0, by decide⟩

theorem meets_AccessesAndResponses_1 : ∃ (s : State) (n : Nat) (a : Access), Live s ∧ s.chip.issueQ[n]? = some a ∧ (∀ b ∈
    s.chip.issueQ.take n ++ s.chip.held, b.holdsBack a = false) :=
  ⟨st { base with issueQ := [given (.own 0x20) false 0x08000000 16 0 false] }, 0, given (.own 0x20) false 0x08000000 16 0 false, by decide⟩

theorem meets_AccessesAndResponses_2 : ∃ (s : State) (m : Master) (r : Resp) (rest : List Resp), Live s ∧ takeResp (fun r =>
    r.mst == m && !r.coreRead) s.chip.resps = some (r, rest) ∧ r.owner = .none :=
  ⟨st { base with resps := [⟨.own 0, .none, .okay, true, 0, 4, 0⟩] }, .own 0, ⟨.own 0, .none, .okay, true, 0, 4, 0⟩, [], by decide⟩

theorem meets_AccessesAndResponses_3 : ∃ (s : State) (m : Master) (r : Resp) (rest : List Resp), Live s ∧ s.chip.elog = [] ∧
    takeResp (fun r => r.mst == m && !r.coreRead) s.chip.resps = some (r, rest) ∧ r.owner = .none ∧ r.kind = .decode :=
  ⟨st { base with resps := [⟨.own 0, .none, .decode, true, 0, 4, 0⟩] }, .own 0, ⟨.own 0, .none, .decode, true, 0, 4, 0⟩, [], by decide⟩

theorem meets_RegisterSpaceAccesses_1 : ∃ (s : State) (m : Master) (wr : Bool) (p : Bool) (a : BitVec 40) (n : Nat) (d :
    BitVec 128), Live s ∧ a.toNat / 2 ^ 30 = s.chip.chipNo ∧ 0x3C000000 ≤ a.toNat % 2 ^ 30 ∧ (n ≠ 4 ∨ a.toNat % 4 ≠ 0) ∧
    Free s.chip (given m wr a.toNat n d.toNat p) :=
  ⟨st base, .own 0, true, false, 0x3D000001, 4, 0, by decide⟩

theorem meets_RegisterSpaceAccesses_2 : ∃ (s : State) (m : Master) (id : RegId) (i : Nat) (j : Nat) (a : BitVec 40), Live s
    ∧ Served s.chip m id i j true ∧ a.toNat = s.chip.localAddr (id.addr i j) :=
  ⟨st base, .own 0, .hstWinchip, 0, 0, 0x3F000104, by decide⟩

theorem meets_RegisterSpaceAccesses_3 : ∃ (s : State) (m : Master) (id : RegId) (i : Nat) (j : Nat) (a : BitVec 40), Live s
    ∧ Served s.chip m id i j false ∧ a.toNat = s.chip.localAddr (id.addr i j) :=
  ⟨st base, .own 0, .hstWinchip, 0, 0, 0x3F000104, by decide⟩

theorem meets_SupervisedRegions_1 : ∃ (s : State) (m : Master) (id : RegId) (h : Nat) (r : Nat) (a : BitVec 40), Live s ∧
    Served s.chip m id h r true ∧ RegionReg id ∧ a.toNat = s.chip.localAddr (id.addr h r) ∧ (s.chip.fld F.hmkCfg_SUPV h r =
    1 ∨ (s.chip.region h r).act.supv = true) ∧ m ≠ .own 0x11 :=
  ⟨st (base.setFld F.hmkCfg_SUPV 1 2 1), .own 0, .hmkMiscnt, 1, 2, BitVec.ofNat 40 ((base.setFld F.hmkCfg_SUPV 1 2 1).localAddr (RegId.addr .hmkMiscnt 1 2)), by decide⟩

theorem meets_SupervisedRegions_2 : ∃ (s : State) (m : Master) (id : RegId) (h : Nat) (r : Nat) (a : BitVec 40), Live s ∧
    Served s.chip (.own 0x11) id h r false ∧ Free s.chip (given m false a.toNat 4 0 false) ∧ RegionReg id ∧ a.toNat =
    s.chip.localAddr (id.addr h r) :=
  ⟨st (base.setFld F.hmkCfg_SUPV 1 2 1), .own 0, .hmkMiscnt, 1, 2, BitVec.ofNat 40 ((base.setFld F.hmkCfg_SUPV 1 2 1).localAddr (RegId.addr .hmkMiscnt 1 2)), by decide⟩

theorem meets_Assay_1 : ∃ (s : State) (m : Master), Live s ∧ Served s.chip m .asyReq 0 0 true ∧ s.chip.asy.queue.length < 8
    :=
  ⟨st base, .own 0, by decide⟩

theorem meets_Assay_2 : ∃ (s : State) (m : Master), Live s ∧ Served s.chip m .asyReq 0 0 true ∧ 8 ≤ s.chip.asy.queue.length
    ∧ s.chip.on F.asyStat_QFULL = false :=
  ⟨st { base with asy := { queue := List.replicate 8 (0, 1) } }, .own 0, by decide⟩

theorem meets_Assay_3 : ∃ (s : State) (m : Master), Live s ∧ Served s.chip m .asyReq 0 0 true ∧ s.chip.on F.asyStat_BUSY =
    false :=
  ⟨st base, .own 0, by decide⟩

theorem meets_Assay_4 : ∃ (s : State) (m : Master) (p : Nat), Live s ∧ Served s.chip m .asyReq 0 0 true ∧ s.chip.on
    F.asyStat_BUSY = true ∧ s.chip.asy.phys = some p ∧ s.chip.fld F.asyStat_CLASS = 7 ∧ s.chip.asy.results.length < 16 ∧
    s.chip.asy.marked = false :=
  ⟨st { (base.setFld F.asyStat_BUSY 0 0 1).setFld F.asyStat_CLASS 0 0 7 with asy := { phys := some 3 } }, .own 0, 3, by decide⟩

theorem meets_Assay_5 : ∃ (s : State) (cls : Nat) (idx : Nat) (rest : List (Nat × Nat)), Live s ∧ s.chip.domOn 65 = true ∧
    s.chip.on F.asyStat_BUSY = false ∧ s.chip.asy.queue = (cls, idx) :: rest ∧ indexOk cls idx = false ∧
    s.chip.asy.results.length < 16 :=
  ⟨st { base with asy := { queue := [(0, 9)] } }, 0, 9, [], by decide⟩

theorem meets_Assay_6 : ∃ (s : State) (cls : Nat) (idx : Nat) (rest : List (Nat × Nat)), Live s ∧ s.chip.domOn 65 = true ∧
    s.chip.on F.asyStat_BUSY = false ∧ s.chip.asy.queue = (cls, idx) :: rest ∧ indexOk cls idx = true ∧ cls = 8 ∨ cls = 9 ∧
    s.chip.on F.asyStat_MAINT = false ∧ s.chip.asy.results.length < 16 :=
  ⟨st { base with asy := { queue := [(9, 0)] } }, 9, 0, [], by decide⟩

theorem meets_Assay_7 : ∃ (s : State) (i : Nat) (rest : List (Nat × Nat)), Live s ∧ s.chip.domOn 65 = true ∧ s.chip.on
    F.asyStat_BUSY = false ∧ s.chip.asy.queue = (0, i) :: rest ∧ i < 8 ∧ s.chip.on F.asyStat_MAINT = false ∧
    s.chip.dead.contains i = false ∧ s.chip.freeSpares 0 (i / 4) = [] :=
  ⟨st { base with asy := { queue := [(0, 3)] }, unusable := [8] }, 3, [], by decide⟩

theorem meets_Assay_8 : ∃ (s : State) (i : Nat) (rest : List (Nat × Nat)), Live s ∧ s.chip.domOn 65 = true ∧ s.chip.on
    F.asyStat_BUSY = false ∧ s.chip.asy.queue = (0, i) :: rest ∧ i < 8 ∧ s.chip.on F.asyStat_MAINT = true ∧
    s.chip.dead.contains i = false :=
  ⟨st { base.setFld F.asyStat_MAINT 0 0 1 with asy := { queue := [(0, 3)] } }, 3, [], by decide⟩

set_option maxRecDepth 100000 in
theorem meets_Assay_9 : ∃ (s : State) (i : Nat) (p : Nat) (rest : List (Nat × Nat)) (ps : List Nat) (t : Chip), Live s ∧
    s.chip.domOn 65 = true ∧ s.chip.on F.asyStat_BUSY = false ∧ s.chip.asy.queue = (0, i) :: rest ∧ i < 8 ∧ s.chip.on
    F.asyStat_MAINT = false ∧ s.chip.dead.contains i = false ∧ s.chip.freeSpares 0 (i / 4) = p :: ps ∧ s.chip.coreRotate i p
    = t ∧ t.physOf 0 i = p :=
  ⟨st { base with asy := { queue := [(0, 3)] } }, 3, 8, [], [], Chip.coreRotate { base with asy := { queue := [(0, 3)] } } 3 8, by decide⟩

theorem meets_Assay_10 : ∃ (s : State) (code : BitVec 4) (detail : BitVec 32) (rows : List Nat) (p : Nat), Live s ∧
    s.chip.domOn 65 = true ∧ s.chip.on F.asyStat_BUSY = true ∧ s.chip.asy.phys = some p ∧ s.chip.asy.logical = none ∧
    s.chip.asy.marked = false ∧ s.chip.repair = none ∧ s.chip.fld F.asyStat_CLASS = 7 ∧ code = 0 ∧ s.chip.asy.results.length
    < 16 :=
  ⟨st { (base.setFld F.asyStat_BUSY 0 0 1).setFld F.asyStat_CLASS 0 0 7 with asy := { phys := some 3 } }, 0, 0, [], 3, by decide⟩

theorem meets_Assay_11 : ∃ (s : State) (m : Master), Live s ∧ Served s.chip m .asyResPop 0 0 true :=
  ⟨st base, .own 0, by decide⟩

theorem meets_Assay_12 : ∃ (s : State) (m : Master), Live s ∧ Served s.chip m .asyLgrPop 0 0 true :=
  ⟨st base, .own 0, by decide⟩

theorem meets_Assay_13 : ∃ (s : State) (m : Master), Live s ∧ Served s.chip m .asyMaint 0 0 true ∧ m ≠ .own 0x11 ∧ m ≠ .own
    0x18 :=
  ⟨st base, .own 0, by decide⟩

theorem meets_Assay_14 : ∃ (s : State) (m : Master) (t1 : Chip) (t2 : Chip) (t3 : Chip) (t4 : Chip) (t5 : Chip), Live s ∧
    Served s.chip m .asyMaint 0 0 true ∧ m = .own 0x11 ∨ m = .own 0x18 ∧ (List.range 8).foldl (fun t k => t.coreHalt k)
    s.chip = t1 ∧ (List.range 8).foldl (fun t h => if t.on F.shCtrl_RUN h then t.setFld F.shCtrl_RUN h 0 0 else t) t1 = t2 ∧
    t2.writeAudCtrl (t2.word .audCtrl % 2 ^ 32 - b2n (t2.on F.audCtrl_RUN) * 2 ^ F.audCtrl_RUN.lo) = t3 ∧ t3.chans.foldl
    (fun t k => t.dmaHalt k) t3 = t4 ∧ (List.range 64).foldl (fun t q => t.psqHalt q) t4 = t5 :=
  ⟨st base, .own 0x11, (List.range 8).foldl (fun t k => t.coreHalt k) base, base, base, base, base, by decide⟩

theorem meets_Rails_1 : ∃ (s : State) (r : Fin 5), Live s ∧ s.chip.fld (railOk r.1) = 1 :=
  ⟨st (base.setFld F.sysSupply_VMEM_OK 0 0 1), 1, by decide⟩

theorem meets_Rails_2 : ∃ (s : State) (r : Fin 5), Live s ∧ s.chip.fld (railOk r.1) = 0 ∧ (r.1 ≠ 2 ∧ r.1 ≠ 3 ∨ s.chip.fld
    (railLost r.1) = 0) ∧ s.chip.boot.railsLost = false :=
  ⟨st base, 1, by decide⟩

theorem meets_Rails_3 : ∃ (s : State) (r : Fin 2) (t : Chip), Live s ∧ s.chip.fld (railOk r.1) = 0 ∧ s.chip.boot.railsLost =
    true ∧ s.chip.setFld (railOk r.1) 0 0 1 = t ∧ t.fld F.sysSupply_VCORE_OK = 1 ∧ t.fld F.sysSupply_VMEM_OK = 1 :=
  ⟨st { base.setFld F.sysSupply_VMEM_OK 0 0 1 with boot := { base.boot with railsLost := true } }, 0, { base.setFld F.sysSupply_VMEM_OK 0 0 1 with boot := { base.boot with railsLost := true } }.setFld F.sysSupply_VCORE_OK 0 0 1, by decide⟩

theorem meets_Rails_4 : ∃ (s : State) (r : Fin 5), Live s ∧ s.chip.fld (railOk r.1) = 1 ∧ r.1 ≤ 1 :=
  ⟨st (base.setFld F.sysSupply_VMEM_OK 0 0 1), 1, by decide⟩

theorem meets_Rails_5 : ∃ (s : State) (r : Fin 5), Live s ∧ s.chip.fld (railOk r.1) = 1 ∧ (r.1 = 2 ∨ r.1 = 3) :=
  ⟨st (base.setFld F.sysSupply_VSER09_OK 0 0 1), 2, by decide⟩

theorem meets_Rails_6 : ∃ (s : State), Live s ∧ s.chip.fld F.sysSupply_VDAC_OK = 1 :=
  ⟨st (base.setFld F.sysSupply_VDAC_OK 0 0 1), by decide⟩

theorem meets_Rails_7 : ∃ (s : State) (r : Fin 5), s.sup.por = true :=
  ⟨⟨[], ⟨true, false⟩, base⟩, 0, by decide⟩

theorem meets_ErrorLog_1 : ∃ (s : State) (m : Master), Live s ∧ Served s.chip m .fabElogPop 0 0 true :=
  ⟨st base, .own 0, by decide⟩

theorem meets_ErrorLog_2 : ∃ (s : State) (a : BitVec 30), Live s ∧ s.chip.domOn 41 = true ∧ s.chip.on F.fabCtrl_SCRUB_EN =
    true ∧ a.toNat / 16 * 16 < 0x17000000 ∧ s.chip.storeUp (a.toNat / 16 * 16) = true ∧ Store.get? (a.toNat / 16 * 16)
    s.chip.marks = some .uncorrectable :=
  ⟨st { (base.setFld F.fabCtrl_SCRUB_EN 0 0 1) with marks := [(0x08000010, .uncorrectable)] }, 0x08000013, by decide⟩

theorem meets_ErrorLog_3 : ∃ (s : State) (a : BitVec 30), Live s ∧ s.chip.domOn 41 = true ∧ s.chip.on F.fabCtrl_SCRUB_EN =
    true ∧ a.toNat / 16 * 16 < 0x17000000 ∧ s.chip.storeUp (a.toNat / 16 * 16) = true ∧ Store.get? (a.toNat / 16 * 16)
    s.chip.marks = some .correctable :=
  ⟨st { (base.setFld F.fabCtrl_SCRUB_EN 0 0 1) with marks := [(0x08000010, .correctable)] }, 0x08000013, by decide⟩

theorem meets_ErrorLog_4 : ∃ (s : State) (i : Fin 64) (b : Nat) (n : Nat), Live s ∧ s.chip.domOn 41 = true ∧ Store.get? i.1
    s.chip.ceHours = some (b, n) ∧ 3600000000000 ≤ sub64 s.chip.tb.toNat b :=
  ⟨st { base with ceHours := [(3, (0, 2))], tb := 3600000000000 }, 3, 0, 2, by decide⟩

theorem meets_StoreRepair_1 : ∃ (s : State) (m : Master) (v : BitVec 32) (p : Nat) (rest : List Nat), Live s ∧ Served s.chip
    m .fabSpareCmd 0 0 true ∧ s.chip.on F.fabSpareStat_BUSY = false ∧ bits v.toNat 5 0 < 28 ∧ s.chip.bankSpares = p :: rest
    :=
  ⟨st base, .own 0, 0x80000003, 28, [29], by decide⟩

theorem meets_StoreRepair_2 : ∃ (s : State) (m : Master) (v : BitVec 32), Live s ∧ Served s.chip m .fabSpareCmd 0 0 true ∧
    s.chip.on F.fabSpareStat_BUSY = true :=
  ⟨st (base.setFld F.fabSpareStat_BUSY 0 0 1), .own 0, 0x80000003, by decide⟩

theorem meets_StoreRepair_3 : ∃ (s : State) (r : Repair), Live s ∧ s.chip.domOn 41 = true ∧ s.chip.repair = some r ∧
    s.chip.fld F.fabSpareStat_PHASE = 1 :=
  ⟨st { (base.setFld F.fabSpareStat_PHASE 0 0 1) with repair := some ⟨3, 0, 28, false⟩ }, ⟨3, 0, 28, false⟩, by decide⟩

theorem meets_StoreRepair_4 : ∃ (s : State) (r : Repair), Live s ∧ s.chip.domOn 41 = true ∧ s.chip.repair = some r ∧
    s.chip.fld F.fabSpareStat_PHASE = 2 :=
  ⟨st { (base.setFld F.fabSpareStat_PHASE 0 0 2) with repair := some ⟨3, 0, 28, false⟩ }, ⟨3, 0, 28, false⟩, by decide⟩

theorem meets_StoreRepair_5 : ∃ (s : State) (r : Repair), Live s ∧ s.chip.domOn 41 = true ∧ s.chip.repair = some r ∧
    s.chip.fld F.fabSpareStat_PHASE = 3 ∧ s.chip.on F.shStat_RUNNING ((r.store - 32) / 2) = false ∨ s.chip.atLineStart
    ((r.store - 32) / 2) = true ∧ s.chip.writeBackInFlight ((r.store - 32) / 2) ((r.store - 32) % 2) = false :=
  ⟨st { (base.setFld F.fabSpareStat_PHASE 0 0 3) with repair := some ⟨33, 7, 0, false⟩ }, ⟨33, 7, 0, false⟩, by decide⟩

theorem meets_Rotations_1 : ∃ (s : State) (j : Fin 16) (p : Fin 20), Live s ∧ s.chip.domOn 37 = true ∧ s.chip.spareFree 1 16
    p.1 = true ∧ s.chip.laneBetween j.1 = true :=
  ⟨st base, 2, 17, by decide⟩

theorem meets_Rotations_2 : ∃ (s : State) (k : Fin 8) (p : Fin 9), Live s ∧ s.chip.spareFree 0 8 p.1 = true ∧ (s.chip.core
    k.1).fab = [] ∧ (s.chip.core k.1).blocked = none ∧ sub64 s.chip.now s.chip.rotationInstant ≤ sub64 s.chip.now
    (s.chip.core k.1).issuedAt :=
  ⟨st base, 2, 8, by decide⟩

set_option maxRecDepth 100000 in
theorem meets_Rotations_3 : ∃ (s : State) (i : Fin 512) (p : Fin 544), Live s ∧ s.chip.domOn 42 = true ∧ s.chip.spareFree 4
    512 p.1 = true :=
  ⟨st base, 2, 512, by decide⟩

theorem meets_Rotations_4 : ∃ (s : State) (q : Fin 64) (p : Fin 68), Live s ∧ s.chip.spareFree 5 64 p.1 = true ∧ (s.chip.psq
    q.1).wait = none ∧ s.chip.psqSoon q.1 = false :=
  ⟨st base, 2, 64, by decide⟩

theorem meets_Rotations_5 : ∃ (s : State) (q : Fin 64) (p : Fin 68), Live s ∧ s.chip.psqState q.1 = 2 ∧ bit (s.chip.psqInst
    q.1) 27 = true ∧ bits (s.chip.psqInst q.1) 31 28 = 5 ∧ reached (s.chip.psq q.1).tr (s.chip.now + 2000) = false :=
  ⟨st (seqBase 2 0x58000000), 3, 64, by decide⟩

theorem meets_TimeBase_2 : ∃ (s : State), s.chip.tb = BitVec.allOnes 64 :=
  ⟨st { base with tb := BitVec.allOnes 64 }, by decide⟩

theorem meets_TimeBase_3 : ∃ (s : State), Live s :=
  ⟨st base, by decide⟩

theorem meets_TimeBase_4 : ∃ (s : State), Live s :=
  ⟨st base, by decide⟩

theorem meets_TimeBase_6 : ∃ (s : State) (m : Master), Live s ∧ Served s.chip m .tbLo 0 0 false :=
  ⟨st base, .own 0, by decide⟩

theorem meets_CompareChannels_1 : ∃ (s : State) (m : Master) (i : Fin 256) (v : BitVec 32) (t : Chip), Live s ∧ Served
    s.chip m .cmpValHi i.1 0 true ∧ s.chip.cmpDue i.1 = none ∧ ((((s.chip.setFld F.cmpValLo_V i.1 0 (s.chip.cmp
    i.1).stage).setFld F.cmpValHi_V i.1 0 v.toNat).setFld F.cmpStat_ARMED i.1 0 1).updCmp i.1 fun x =>
    { x with since := s.chip.now, again := (s.chip.cmp i.1).firedAt == some s.chip.now }) = t ∧ t.cmpDue i.1 = none :=
  ⟨st base, .own 0, 3, 1, ((((base.setFld F.cmpValLo_V 3 0 0).setFld F.cmpValHi_V 3 0 1).setFld F.cmpStat_ARMED 3 0 1).updCmp 3 fun x => { x with since := base.now, again := (base.cmp 3).firedAt == some base.now }), by decide⟩

theorem meets_CompareChannels_2 : ∃ (s : State) (m : Master) (i : Fin 256) (v : BitVec 32) (t : Chip) (late : Bool), Live s
    ∧ Served s.chip m .cmpValHi i.1 0 true ∧ s.chip.cmpDue i.1 = none ∧ ((((s.chip.setFld F.cmpValLo_V i.1 0 (s.chip.cmp
    i.1).stage).setFld F.cmpValHi_V i.1 0 v.toNat).setFld F.cmpStat_ARMED i.1 0 1).updCmp i.1 fun x =>
    { x with since := s.chip.now, again := (s.chip.cmp i.1).firedAt == some s.chip.now }) = t ∧ t.paired i.1 = false ∧
    t.cmpDue i.1 = some late :=
  ⟨st base, .own 0, 3, 0, ((((base.setFld F.cmpValLo_V 3 0 0).setFld F.cmpValHi_V 3 0 0).setFld F.cmpStat_ARMED 3 0 1).updCmp 3 fun x => { x with since := base.now, again := (base.cmp 3).firedAt == some base.now }), false, by decide⟩

theorem meets_CompareChannels_3 : ∃ (s : State) (i : Fin 256), Live s ∧ s.chip.domOn 47 = true ∧ s.chip.paired i.1 = false ∧
    s.chip.cmpDue i.1 = some false ∧ s.chip.fld F.cmpPeriod_PERIOD i.1 = 0 :=
  ⟨st { (base.setFld F.cmpStat_ARMED 3 0 1) with tb := 5 }, 3, by decide⟩

theorem meets_CompareChannels_4 : ∃ (s : State) (i : Fin 256), Live s ∧ s.chip.domOn 47 = true ∧ s.chip.paired i.1 = false ∧
    s.chip.cmpDue i.1 = some true ∧ s.chip.fld F.cmpPeriod_PERIOD i.1 = 0 :=
  ⟨st { ((base.setFld F.cmpStat_ARMED 3 0 1).setFld F.timLatewin_WIN 0 0 100) with tb := 5, cmps := [(3, { again := true })] }, 3, by decide⟩

theorem meets_CompareChannels_5 : ∃ (s : State) (i : Fin 256), Live s ∧ s.chip.domOn 47 = true ∧ s.chip.paired i.1 = false ∧
    s.chip.cmpDue i.1 = some false ∧ s.chip.fld F.cmpPeriod_PERIOD i.1 ≠ 0 :=
  ⟨st { ((base.setFld F.cmpStat_ARMED 3 0 1).setFld F.cmpPeriod_PERIOD 3 0 7) with tb := 5 }, 3, by decide⟩

theorem meets_CompareChannels_6 : ∃ (c : Chip) (i : Nat), c.paired i = false ∧ (c.cmp (i + 1)).firedAt ≠ some c.now :=
  ⟨base, 4, by decide⟩

theorem meets_CompareChannels_7 : ∃ (c : Chip) (i : Nat), i % 2 = 1 ∧ c.on F.cmpCtrl_PAIR i = true ∧ c.fld F.cmpCtrl_ACT i =
    1 :=
  ⟨(base.setFld F.cmpCtrl_PAIR 5 0 1).setFld F.cmpCtrl_ACT 5 0 1, 5, by decide⟩

theorem meets_CompareChannels_8 : ∃ (s : State) (i : Fin 256), Live s ∧ s.chip.domOn 47 = true ∧ s.chip.cmpDue i.1 = none :=
  ⟨st base, 3, by decide⟩

theorem meets_CompareChannels_9 : ∃ (s : State) (m : Master) (i : Fin 256) (v : BitVec 32), Live s ∧ Served s.chip m
    .cmpCtrl i.1 0 true ∧ i.1 % 2 = 0 ∧ s.chip.on F.cmpCtrl_PAIR i.1 = false :=
  ⟨st base, .own 0, 4, 0, by decide⟩

theorem meets_CompareChannels_10 : ∃ (s : State) (m : Master) (i : Fin 256) (v : BitVec 32), Live s ∧ Served s.chip m
    .cmpCtrl i.1 0 true ∧ i.1 % 2 = 1 ∧ bits v.toNat 4 4 = 1 :=
  ⟨st base, .own 0, 5, 0x10, by decide⟩

theorem meets_IntervalCounters_1 : ∃ (s : State) (m : Master) (i : Fin 64), Live s ∧ Served s.chip m .intCmd i.1 0 true ∧
    s.chip.fld F.intReload_RELOAD i.1 ≠ 0 :=
  ⟨st (base.setFld F.intReload_RELOAD 2 0 5), .own 0, 2, by decide⟩

theorem meets_IntervalCounters_2 : ∃ (s : State) (m : Master) (i : Fin 64), Live s ∧ Served s.chip m .intCmd i.1 0 true ∧
    s.chip.fld F.intReload_RELOAD i.1 = 0 :=
  ⟨st base, .own 0, 2, by decide⟩

theorem meets_IntervalCounters_3 : ∃ (s : State) (m : Master) (i : Fin 64), Live s ∧ Served s.chip m .intCmd i.1 0 true ∧
    s.chip.fld F.intCount_COUNT i.1 ≠ 0 ∧ s.chip.on F.intStat_RUNNING i.1 = false :=
  ⟨st (base.setFld F.intCount_COUNT 2 0 5), .own 0, 2, by decide⟩

theorem meets_IntervalCounters_4 : ∃ (s : State) (m : Master) (i : Fin 64), Live s ∧ Served s.chip m .intCmd i.1 0 true :=
  ⟨st base, .own 0, 2, by decide⟩

theorem meets_IntervalCounters_5 : ∃ (s : State) (m : Master) (i : Fin 64), Live s ∧ Served s.chip m .intCmd i.1 0 true ∧
    s.chip.on F.intStat_RUNNING i.1 = false :=
  ⟨st base, .own 0, 2, by decide⟩

theorem meets_IntervalCounters_6 : ∃ (s : State) (i : Fin 64), Live s ∧ s.chip.domOn 47 = true ∧ s.chip.on F.intStat_RUNNING
    i.1 = true ∧ 2 ^ s.chip.fld F.intCtrl_PRE i.1 - (s.chip.intv i.1).last % 2 ^ s.chip.fld F.intCtrl_PRE i.1 ≤ sub64
    s.chip.now (s.chip.intv i.1).last ∧ (s.chip.intv i.1).load = true ∧ s.chip.fld F.intReload_RELOAD i.1 ≠ 0 :=
  ⟨st { ((base.setFld F.intReload_RELOAD 2 0 5).setFld F.intStat_RUNNING 2 0 1) with tb := 1, intvs := [(2, ⟨true, 0⟩)] }, 2, by decide⟩

theorem meets_IntervalCounters_7 : ∃ (s : State) (i : Fin 64), Live s ∧ s.chip.domOn 47 = true ∧ s.chip.on F.intStat_RUNNING
    i.1 = true ∧ 2 ^ s.chip.fld F.intCtrl_PRE i.1 - (s.chip.intv i.1).last % 2 ^ s.chip.fld F.intCtrl_PRE i.1 ≤ sub64
    s.chip.now (s.chip.intv i.1).last ∧ (s.chip.intv i.1).load = false ∧ 1 < s.chip.fld F.intCount_COUNT i.1 :=
  ⟨st { ((base.setFld F.intCount_COUNT 2 0 5).setFld F.intStat_RUNNING 2 0 1) with tb := 1 }, 2, by decide⟩

theorem meets_IntervalCounters_8 : ∃ (s : State) (i : Fin 64), Live s ∧ s.chip.domOn 47 = true ∧ s.chip.on F.intStat_RUNNING
    i.1 = true ∧ 2 ^ s.chip.fld F.intCtrl_PRE i.1 - (s.chip.intv i.1).last % 2 ^ s.chip.fld F.intCtrl_PRE i.1 ≤ sub64
    s.chip.now (s.chip.intv i.1).last ∧ (s.chip.intv i.1).load = false ∧ s.chip.fld F.intCount_COUNT i.1 ≤ 1 ∧ s.chip.on
    F.intCtrl_MODE i.1 = false :=
  ⟨st { ((base.setFld F.intCount_COUNT 2 0 1).setFld F.intStat_RUNNING 2 0 1) with tb := 1 }, 2, by decide⟩

theorem meets_CaptureChannels_1 : ∃ (s : State) (i : Fin 64) (r : Bool) (o : Fin 3) (e : Nat), Live s ∧ s.chip.domOn 47 =
    true ∧ s.chip.on F.capCtrl_EN i.1 = true ∧ s.chip.on F.capCtrl_KIND i.1 = false ∧ (s.chip.cap i.1).acceptAt ≠ some
    s.chip.now ∧ s.chip.edgeAt (s.chip.fld F.capCtrl_PORT i.1) (s.chip.fld F.capCtrl_FILT i.1) = some (e, r) ∧ edgeIs
    (s.chip.fld F.capCtrl_EDGE i.1) r = true :=
  ⟨st { ((base.setFld F.capCtrl_EN 5 0 1).setFld F.capCtrl_EDGE 5 0 1) with samples := [(5, [1]), (4, [1]), (3, [0])] }, 5, true, 1, 4, by decide⟩

theorem meets_CaptureChannels_2 : ∃ (s : State) (i : Fin 64) (v : Nat) (a : Nat) (hop : Nat) (rest : List (Nat × Nat ×
    Nat)), Live s ∧ s.chip.domOn 47 = true ∧ s.chip.on F.capCtrl_BIND i.1 = false ∧ (s.chip.cap i.1).waiting = (v, a, hop)
    :: rest ∧ 16 ≤ sub64 s.chip.now a :=
  ⟨st { base with tb := 16, caps := [(5, { waiting := [(3, 0, 0)] })] }, 5, 3, 0, 0, [], by decide⟩

theorem meets_CaptureChannels_3 : ∃ (s : State) (m : Master) (i : Fin 64), Live s ∧ Served s.chip m .capLo i.1 0 false :=
  ⟨st base, .own 0, 5, by decide⟩

theorem meets_CaptureChannels_4 : ∃ (c : Chip) (i : Nat), (c.cap i).waiting = [] ∧ (c.cap i).isNew = true :=
  ⟨{ base with caps := [(5, { isNew := true, value := 3 })] }, 5, by decide⟩

theorem meets_Converter_1 : ∃ (s : State), Live s ∧ s.chip.domOn 48 = true ∧ s.chip.on F.adcCtrl_EN = true :=
  ⟨st (base.setFld F.adcCtrl_EN 0 0 1), by decide⟩

theorem meets_Converter_2 : ∃ (s : State) (m : Master), Live s ∧ Served s.chip m .adcCmd 0 0 true ∧ s.chip.on F.adcStat_BUSY
    = false ∧ s.chip.on F.adcStat_READY = true :=
  ⟨st (base.setFld F.adcStat_READY 0 0 1), .own 0, by decide⟩

theorem meets_Converter_3 : ∃ (s : State) (m : Master), Live s ∧ Served s.chip m .adcCmd 0 0 true ∧ s.chip.on F.adcStat_BUSY
    = true :=
  ⟨st (base.setFld F.adcStat_BUSY 0 0 1), .own 0, by decide⟩

theorem meets_Converter_4 : ∃ (s : State) (m : Master), Live s ∧ Served s.chip m .adcCmd 0 0 true :=
  ⟨st base, .own 0, by decide⟩

theorem meets_Converter_5 : ∃ (s : State) (uv : BitVec 32), Live s ∧ s.chip.domOn 48 = true ∧ s.chip.on F.adcStat_BUSY =
    true ∧ 508 + 500 * s.chip.adc.step ≤ sub64 s.chip.now s.chip.adc.start ∧ s.chip.adc.ana = none ∧ s.chip.fld
    F.pinCfg_FUNC (s.chip.adcChan s.chip.adc.step) = 11 ∧ s.chip.adc.step < s.chip.fld F.adcCtrl_LENM1 ∧
    s.chip.adc.fifo.length < 32 ∧ s.chip.adc.fifo.length + 1 ≠ s.chip.fld F.adcFifomark_MARK ∧ bit (s.chip.fld
    F.adcWinen_EN) (s.chip.adcChan s.chip.adc.step) = false :=
  ⟨st { (((base.setFld F.adcStat_BUSY 0 0 1).setFld F.adcCtrl_LENM1 0 0 1).setFld F.pinCfg_FUNC 0 0 11) with tb := 508 }, 5, by decide⟩

theorem meets_Converter_6 : ∃ (s : State) (uv : BitVec 32), Live s ∧ s.chip.domOn 48 = true ∧ s.chip.on F.adcStat_BUSY =
    true ∧ 508 + 500 * s.chip.adc.step ≤ sub64 s.chip.now s.chip.adc.start ∧ s.chip.adc.ana = some false ∧ s.chip.adc.step <
    s.chip.fld F.adcCtrl_LENM1 ∧ s.chip.adc.fifo.length = 32 :=
  ⟨st { ((base.setFld F.adcStat_BUSY 0 0 1).setFld F.adcCtrl_LENM1 0 0 1) with tb := 508, adc := { fifo := List.replicate 32 1, ana := some false } }, 5, by decide⟩

theorem meets_Converter_7 : ∃ (s : State) (m : Master) (w : Nat) (rest : List Nat), Live s ∧ Served s.chip m .adcFifo 0 0
    false ∧ s.chip.adc.fifo = w :: rest :=
  ⟨st { base with adc := { fifo := [7] } }, .own 0, 7, [], by decide⟩

theorem meets_Converter_8 : ∃ (s : State) (m : Master), Live s ∧ Served s.chip m .adcFifo 0 0 false ∧ s.chip.adc.fifo = []
    :=
  ⟨st base, .own 0, by decide⟩

theorem meets_EventsDelivered_1 : ∃ (s : State) (m : Master) (t : BitVec 9), Live s ∧ Served s.chip m .evfSwtrig 0 0 true :=
  ⟨st base, .own 0, 70, by decide⟩

theorem meets_EventsDelivered_2 : ∃ (s : State) (m : Master) (v : BitVec 32), Live s ∧ Served s.chip m .evfSwprod 0 0 true
    :=
  ⟨st base, .own 0, 1, by decide⟩

theorem meets_EventsDelivered_3 : ∃ (s : State), Live s ∧ s.chip.domOn 47 = true ∧ s.chip.evAt ≠ some (s.chip.now / 4 * 4) ∧
    (s.chip.evq.filter fun a => a.due s.chip.now) = [] ∧ s.chip.countWaiting = [] :=
  ⟨st base, by decide⟩

theorem meets_EventsDelivered_4 : ∃ (s : State) (p : Nat) (n : Nat) (f : Nat) (a : Nat), Live s ∧ s.chip.domOn 47 = true ∧
    s.chip.evAt ≠ some (s.chip.now / 4 * 4) ∧ s.chip.evq = ([⟨p, a, n, [], [f], []⟩] : List Arrival) ∧ (a + 7) / 4 * 4 - a ≤
    sub64 s.chip.now a ∧ s.chip.countWaiting = [] ∧ p < 384 :=
  ⟨st { base with evq := [⟨5, 0, 0, [], [3], []⟩], tb := 8 }, 5, 0, 3, 0, by decide⟩

theorem meets_EventsDelivered_5 : ∃ (s : State) (k : Nat) (a : Nat), Live s ∧ s.chip.domOn 47 = true ∧ s.chip.evAt ≠ some
    (s.chip.now / 4 * 4) ∧ s.chip.evq = ([⟨1023, a, 0, [k], [], []⟩] : List Arrival) ∧ (a + 7) / 4 * 4 - a ≤ sub64
    s.chip.now a ∧ s.chip.countWaiting = [] ∧ s.chip.gatePass k = true ∧ 64 < k ∧ k < 128 ∧ s.chip.on F.evfTask_COUNT k =
    false :=
  ⟨st { (base.setFld F.evfTask_EN 70 0 1) with evq := [⟨1023, 0, 0, [70], [], []⟩], tb := 8 }, 70, 0, by decide⟩

theorem meets_ScanFrames_1 : ∃ (s : State) (h : Fin 8) (fr : BitVec 16), Live s ∧ s.chip.domOn (29 + h.1) = true ∧ s.chip.on
    F.shStat_RUNNING h.1 = true ∧ s.chip.latchDue h.1 (s.chip.now16 + fr.toNat) = true ∧ s.chip.on F.shCtrl_RUN h.1 = true ∧
    (s.chip.head h.1).psrArm = false ∧ s.chip.fld F.shFrame_FRAME h.1 + 1 < 2 ^ 32 :=
  ⟨st ((base.setFld F.shStat_RUNNING 1 0 1).setFld F.shCtrl_RUN 1 0 1), 1, 0, by decide⟩

theorem meets_ScanFrames_2 : ∃ (s : State) (h : Fin 8) (fr : BitVec 16), Live s ∧ s.chip.domOn (29 + h.1) = true ∧ s.chip.on
    F.shStat_RUNNING h.1 = true ∧ s.chip.latchDue h.1 (s.chip.now16 + fr.toNat) = true ∧ s.chip.on F.shCtrl_RUN h.1 = false
    :=
  ⟨st (base.setFld F.shStat_RUNNING 1 0 1), 1, 0, by decide⟩

theorem meets_ScanFrames_3 : ∃ (s : State) (h : Fin 8) (fr : BitVec 16), Live s ∧ s.chip.domOn (29 + h.1) = true ∧ s.chip.on
    F.shStat_RUNNING h.1 = true ∧ s.chip.latchDue h.1 (s.chip.now16 + fr.toNat) = true ∧ s.chip.on F.shCtrl_RUN h.1 = true ∧
    (s.chip.head h.1).psrArm = true :=
  ⟨st { ((base.setFld F.shStat_RUNNING 1 0 1).setFld F.shCtrl_RUN 1 0 1) with heads := [(1, { psrArm := true })] }, 1, 0, by decide⟩

theorem meets_ScanFrames_4 : ∃ (s : State) (h : Fin 8), Live s ∧ s.chip.domOn (29 + h.1) = true ∧ s.chip.lineStart h.1
    (s.chip.fld F.shVtime_VA h.1) = true ∧ NStore.get 0 (s.chip.head h.1).fired 2 ≠ s.chip.ticks + 1 :=
  ⟨st (beamBase 0 480), 1, by decide⟩

theorem meets_ScanFrames_5 : ∃ (s : State) (h : Fin 8), Live s ∧ s.chip.domOn (29 + h.1) = true ∧ s.chip.inTick h.1
    (s.chip.beam16 h.1 (s.chip.fld F.shHtime_HA h.1) (s.chip.fld F.shVtime_VA h.1 - 1)) = true ∧ NStore.get 0 (s.chip.head
    h.1).fired 3 ≠ s.chip.ticks + 1 :=
  ⟨st (beamBase 640 479), 1, by decide⟩

theorem meets_ScanFrames_6 : ∃ (s : State) (h : Fin 8) (k : Fin 2) (x : Nat) (y : Nat), Live s ∧ s.chip.domOn (29 + h.1) =
    true ∧ s.chip.on F.shLmatch_EN h.1 k.1 = true ∧ s.chip.fld F.shLmatch_DOT h.1 k.1 = x ∧ s.chip.fld F.shLmatch_LINE h.1
    k.1 = y ∧ x < s.chip.fld F.shHtime_HT h.1 ∧ y < s.chip.fld F.shVtime_VT h.1 - 1 ∧ s.chip.inTick h.1 (s.chip.beam16 h.1 x
    y) = true ∧ NStore.get 0 (s.chip.head h.1).fired (4 + k.1) ≠ s.chip.ticks + 1 :=
  ⟨st (((({ scanning with tb := (beamBase 5 7).tb }).setFld F.shLmatch_EN 1 1 1).setFld F.shLmatch_DOT 1 1 5).setFld F.shLmatch_LINE 1 1 7), 1, 1, 5, 7, by decide⟩

theorem meets_ScanFrames_7 : ∃ (s : State) (h : Fin 8) (y : BitVec 16) (g : BitVec 16), Live s ∧ s.chip.domOn (29 + h.1) =
    true ∧ s.chip.readable h.1 y.toNat = true :=
  ⟨st (beamBase 0 4), 1, 5, 0, by decide⟩

theorem meets_Composition_1 : ∃ (s : State) (h : Fin 8) (k : Nat) (x : Machine.Frm), Live s ∧ s.chip.domOn 37 = true ∧
    (s.chip.comp h.1).course = k + 1 ∧ s.chip.frm h.1 (s.chip.comp h.1).frame = x ∧ s.chip.courseReady h.1 (courseEnd
    (s.chip.va h.1) (2 ^ x.chLog2) (k + 1)) = true ∧ x.mode ≠ 1 ∧ (s.chip.lanesOf h.1).isEmpty = false ∧ k + 2 < courseCount
    (s.chip.va h.1) (2 ^ x.chLog2) :=
  ⟨st { ((base.setFld F.shStat_RUNNING 1 0 1).setFld F.shVtime_VA 1 0 16) with comps := [(1, { frame := 1, course := 1, frms := [{ frame := 1, lanes := [3] }] })] }, 1, 0, { frame := 1, lanes := [3] }, by decide⟩

theorem meets_Composition_2 : ∃ (s : State) (h : Fin 8), Live s ∧ s.chip.domOn 37 = true ∧ (s.chip.comp h.1).composing =
    true ∧ (s.chip.lanesOf h.1).isEmpty = false ∧ s.chip.lineOut h.1 (s.chip.comp h.1).frame (s.chip.comp h.1).line = false
    ∧ (s.chip.comp h.1).stalled = false :=
  ⟨st { base with comps := [(1, { composing := true, frms := [{ lanes := [3] }] })] }, 1, by decide⟩

theorem meets_Composition_3 : ∃ (s : State) (h : Fin 8) (t : Chip), Live s ∧ s.chip.domOn 37 = true ∧ (s.chip.comp
    h.1).composing = true ∧ (s.chip.lanesOf h.1).isEmpty = false ∧ s.chip.lineOut h.1 (s.chip.comp h.1).frame (s.chip.comp
    h.1).line = true ∧ s.chip.composeLine h.1 = some t ∧ (s.chip.comp h.1).line < courseEnd (s.chip.va h.1) (2 ^ (s.chip.frm
    h.1 (s.chip.comp h.1).frame).chLog2) (s.chip.comp h.1).course :=
  ⟨st composeBase, 1, { composeBase with comps := [(1, { composing := true, frms := [{ lanes := [3] }], line := 1, cur := [[]] })] }, by decide⟩

theorem meets_Composition_4 : ∃ (s : State) (h : Fin 8) (t : Chip), Live s ∧ s.chip.domOn 37 = true ∧ (s.chip.comp
    h.1).composing = true ∧ (s.chip.lanesOf h.1).isEmpty = false ∧ s.chip.lineOut h.1 (s.chip.comp h.1).frame (s.chip.comp
    h.1).line = true ∧ s.chip.composeLine h.1 = some t ∧ (s.chip.comp h.1).line = courseEnd (s.chip.va h.1) (2 ^ (s.chip.frm
    h.1 (s.chip.comp h.1).frame).chLog2) (s.chip.comp h.1).course ∧ (s.chip.comp h.1).course + 1 < courseCount (s.chip.va
    h.1) (2 ^ (s.chip.frm h.1 (s.chip.comp h.1).frame).chLog2) :=
  ⟨st { composeBase with comps := [(1, { composing := true, frms := [{ lanes := [3] }], line := 3 })] }, 1, { composeBase with comps := [(1, { composing := true, frms := [{ lanes := [3] }], line := 4, cur := [[]] })] }, by decide⟩

theorem meets_Composition_5 : ∃ (s : State) (h : Fin 8) (b : CourseBuf) (rest : List CourseBuf) (x : Machine.Frm) (d : Nat),
    Live s ∧ s.chip.domOn 37 = true ∧ (s.chip.comp h.1).bufs = b :: rest ∧ s.chip.frm h.1 b.frame = x ∧ x.mode = 0 ∧
    b.course + 1 < courseCount (s.chip.va h.1) (2 ^ x.chLog2) ∧ (((s.chip.updComp h.1 fun z =>
    { z with bufs := rest }).dueAt h.1 b.frame b.y0 - s.chip.now16) / 65536).toNat = d :=
  ⟨st { base.setFld F.shVtime_VA 1 0 16 with comps := [(1, { bufs := [⟨1, 0, 0, [[]], none⟩], frms := [{ frame := 1 }] })] }, 1, ⟨1, 0, 0, [[]], none⟩, [], { frame := 1 }, 0, by decide⟩

theorem meets_Composition_6 : ∃ (s : State) (h : Fin 8) (x : TeeFin), Live s ∧ s.chip.domOn 37 = true ∧ s.chip.teeReady h.1
    = some x :=
  ⟨st { base with comps := [(1, { teeFin := [⟨1, 0, 7⟩] })] }, 1, ⟨1, 0, 7⟩, by decide⟩

theorem meets_FenceSignals_1 : ∃ (s : State) (m : Master) (f : BitVec 8), Live s ∧ Served s.chip m .cpsFsig 0 0 true ∧
    s.chip.on F.cpsFence_SIG f.toNat = false :=
  ⟨st base, .remote 0 5 0x11, 7, by decide⟩

theorem meets_FenceSignals_2 : ∃ (s : State) (m : Master) (f : BitVec 8), Live s ∧ Served s.chip m .cpsFsig 0 0 true ∧
    s.chip.on F.cpsFence_SIG f.toNat = true :=
  ⟨st (base.setFld F.cpsFence_SIG 7 0 1), .own 0x11, 7, by decide⟩

theorem meets_FlipArms_1 : ∃ (s : State) (m : Master) (k : Fin 256) (v : BitVec 32), Live s ∧ Served s.chip m .cpsFlip k.1 0
    true ∧ s.chip.layIdle k.1 = false :=
  ⟨st ((base.setFld F.layAssignAct_BOUND 9 0 1).setFld F.shStat_RUNNING 0 0 1), .own 0, 9, 0x80000000, by decide⟩

theorem meets_FlipArms_2 : ∃ (s : State) (m : Master) (k : Fin 256) (v : BitVec 32), Live s ∧ Served s.chip m .cpsFlip k.1 0
    true ∧ s.chip.layIdle k.1 = true :=
  ⟨st base, .own 0, 9, 0x80000000, by decide⟩

theorem meets_Hallmarks_1 : ∃ (s : State) (m : Master) (h : Fin 8) (r : Fin 64) (v : BitVec 32), Live s ∧ Served s.chip m
    .hmkHtag0 h.1 r.1 true ∧ s.chip.supvBars m h.1 r.1 = false :=
  ⟨st base, .own 0, 1, 2, 3, by decide⟩

theorem meets_Hallmarks_2 : ∃ (s : State) (m : Master) (h : Fin 8) (r : Fin 64) (v : BitVec 32), Live s ∧ Served s.chip m
    .hmkHtag1 h.1 r.1 true ∧ s.chip.supvBars m h.1 r.1 = false :=
  ⟨st base, .own 0, 1, 2, 3, by decide⟩

theorem meets_Hallmarks_3 : ∃ (s : State) (m : Master) (h : Fin 8) (r : Fin 64) (v : BitVec 32), Live s ∧ Served s.chip m
    .hmkHtag1 h.1 r.1 true ∧ s.chip.supvBars m h.1 r.1 = true :=
  ⟨st (base.setFld F.hmkCfg_SUPV 1 2 1), .own 0, 1, 2, 3, by decide⟩

theorem meets_Hallmarks_4 : ∃ (s : State) (m : Master) (h : Fin 8) (r : Fin 64) (v : BitVec 32), Live s ∧ Served s.chip m
    .hmkCfg h.1 r.1 true ∧ s.chip.supvBars m h.1 r.1 = false ∧ s.chip.on F.hmkCfg_LOCK h.1 r.1 = true :=
  ⟨st (base.setFld F.hmkCfg_LOCK 1 2 1), .own 0, 1, 2, 3, by decide⟩

theorem meets_Hallmarks_5 : ∃ (s : State) (m : Master) (h : Fin 8) (r : Fin 64) (v : BitVec 32), Live s ∧ Served s.chip m
    .hmkCfg h.1 r.1 true ∧ s.chip.supvBars m h.1 r.1 = false ∧ s.chip.on F.hmkCfg_LOCK h.1 r.1 = false ∧ s.chip.on
    F.shStat_RUNNING h.1 = true :=
  ⟨st (base.setFld F.shStat_RUNNING 1 0 1), .own 0, 1, 2, 3, by decide⟩

theorem meets_Hallmarks_6 : ∃ (s : State) (m : Master) (h : Fin 8), Live s ∧ Served s.chip m .hmkHstat h.1 0 true ∧
    s.chip.on F.hmkHstat_FROZEN h.1 = true ∧ s.chip.on F.hmkHstat_FRZ_SUPV h.1 = false ∨ m = .own 0x11 :=
  ⟨st (base.setFld F.hmkHstat_FROZEN 1 0 1), .own 0, 1, by decide⟩

theorem meets_Hallmarks_7 : ∃ (s : State) (m : Master) (h : Fin 8) (r : Fin 64), Live s ∧ Served s.chip m .hmkLasts h.1 r.1
    false :=
  ⟨st base, .own 0, 1, 2, by decide⟩

theorem meets_Hallmarks_8 : ∃ (s : State) (m : Master) (h : Fin 8) (r : Fin 64), Live s ∧ Served s.chip m .hmkLastc h.1 r.1
    false :=
  ⟨st base, .own 0, 1, 2, by decide⟩

theorem meets_Hallmarks_9 : ∃ (s : State) (h : Fin 8) (r : Fin 64) (x : Region), Live s ∧ s.chip.domOn 37 = true ∧
    s.chip.region h.1 r.1 = x ∧ s.chip.on F.shStat_RUNNING h.1 = true ∧ x.act.en = true ∧ s.chip.regionShown h.1 x.act =
    true ∧ s.chip.tapPassed h.1 x = true :=
  ⟨st { (((base.setFld F.shStat_RUNNING 1 0 1).setFld F.shHtime_HA 1 0 8).setFld F.shVtime_VA 1 0 8) with regions := [(66, { act := { en := true }, scan := { row := 1, frame := 5 } })] }, 1, 2, { act := { en := true }, scan := { row := 1, frame := 5 } }, by decide⟩

theorem meets_LineProgramControl_1 : ∃ (s : State) (n : Fin 8) (w : Nat), Live s ∧ LpeCmd s.chip n.1 0 w :=
  ⟨st { base with mem := [], lpes := [(2, { running := true, pc := 0x08000000, tp := 0x08000004 })] }, 2, 0, by decide⟩

theorem meets_LineProgramControl_2 : ∃ (s : State) (n : Fin 8) (w : Nat), Live s ∧ LpeCmd s.chip n.1 1 w ∧ ((s.chip.lpeNext
    n.1).lpe n.1).line ≤ bits w 15 0 :=
  ⟨st { base with mem := [(0x08000000, 5#8), (0x08000003, 16#8)], lpes := [(2, { running := true, pc := 0x08000000, tp := 0x08000004 })] }, 2, 0x10000005, by decide⟩

theorem meets_LineProgramControl_3 : ∃ (s : State) (n : Fin 8) (w : Nat), Live s ∧ LpeCmd s.chip n.1 1 w ∧ bits w 15 0 <
    ((s.chip.lpeNext n.1).lpe n.1).line :=
  ⟨st { base with mem := [(0x08000000, 5#8), (0x08000003, 16#8)], lpes := [(2, { running := true, pc := 0x08000000, tp := 0x08000004, line := 6 })] }, 2, 0x10000005, by decide⟩

theorem meets_LineProgramControl_4 : ∃ (s : State) (n : Fin 8) (w : Nat), Live s ∧ LpeCmd s.chip n.1 2 w :=
  ⟨st { base with mem := [(0x08000000, 5#8), (0x08000003, 32#8)], lpes := [(2, { running := true, pc := 0x08000000, tp := 0x08000004 })] }, 2, 0x20000005, by decide⟩

theorem meets_LineProgramControl_5 : ∃ (s : State) (n : Fin 8) (w : Nat), Live s ∧ LpeCmd s.chip n.1 8 w :=
  ⟨st { base with mem := [(0x08000000, 5#8), (0x08000003, 129#8)], lpes := [(2, { running := true, pc := 0x08000000, tp := 0x08000004 })] }, 2, 0x81000005, by decide⟩

theorem meets_LineProgramControl_6 : ∃ (s : State) (n : Fin 8) (w : Nat) (a : Nat) (d : Nat), Live s ∧ LpeCmd s.chip n.1 9 w
    ∧ LpeWord (s.chip.lpeNext n.1) n.1 a ∧ LpeTarget a ∧ (((s.chip.lpeNext n.1).lpeNext n.1).lpe n.1).counters.getD (bits w
    25 24) 0 = d + 2 :=
  ⟨st { base with mem := [(0x08000003, 144#8), (0x08000005, 1#8), (0x08000007, 8#8)], lpes := [(2, { running := true, pc := 0x08000000, tp := 0x08000004, counters := [5, 1, 0, 0] })] }, 2, 0x90000000, 0x08000100, 3, by decide⟩

theorem meets_LineProgramControl_7 : ∃ (s : State) (n : Fin 8) (w : Nat) (a : Nat), Live s ∧ LpeCmd s.chip n.1 9 w ∧ LpeWord
    (s.chip.lpeNext n.1) n.1 a ∧ LpeTarget a ∧ (((s.chip.lpeNext n.1).lpeNext n.1).lpe n.1).counters.getD (bits w 25 24) 0 =
    1 :=
  ⟨st { base with mem := [(0x08000003, 145#8), (0x08000005, 1#8), (0x08000007, 8#8)], lpes := [(2, { running := true, pc := 0x08000000, tp := 0x08000004, counters := [5, 1, 0, 0] })] }, 2, 0x91000000, 0x08000100, by decide⟩

theorem meets_LineProgramControl_8 : ∃ (s : State) (n : Fin 8) (w : Nat) (a : Nat), Live s ∧ LpeCmd s.chip n.1 10 w ∧
    LpeWord (s.chip.lpeNext n.1) n.1 a ∧ LpeTarget a :=
  ⟨st { base with mem := [(0x08000003, 160#8), (0x08000005, 1#8), (0x08000007, 8#8)], lpes := [(2, { running := true, pc := 0x08000000, tp := 0x08000004 })] }, 2, 0xA0000000, 0x08000100, by decide⟩

theorem meets_LineProgramControl_9 : ∃ (s : State) (n : Fin 8) (w : Nat) (a : Nat), Live s ∧ LpeCmd s.chip n.1 11 w ∧
    LpeWord (s.chip.lpeNext n.1) n.1 a ∧ LpeTarget a ∧ (((s.chip.lpeNext n.1).lpeNext n.1).lpe n.1).stack.length < 4 :=
  ⟨st { base with mem := [(0x08000003, 176#8), (0x08000005, 1#8), (0x08000007, 8#8)], lpes := [(2, { running := true, pc := 0x08000000, tp := 0x08000004 })] }, 2, 0xB0000000, 0x08000100, by decide⟩

theorem meets_LineProgramControl_10 : ∃ (s : State) (n : Fin 8) (w : Nat) (a : Nat), Live s ∧ LpeCmd s.chip n.1 11 w ∧
    LpeWord (s.chip.lpeNext n.1) n.1 a ∧ LpeTarget a ∧ 4 ≤ (((s.chip.lpeNext n.1).lpeNext n.1).lpe n.1).stack.length :=
  ⟨st { base with mem := [(0x08000003, 176#8), (0x08000005, 1#8), (0x08000007, 8#8)], lpes := [(2, { running := true, pc := 0x08000000, tp := 0x08000004, stack := [1, 2, 3, 4] })] }, 2, 0xB0000000, 0x08000100, by decide⟩

theorem meets_LineProgramControl_11 : ∃ (s : State) (n : Fin 8) (w : Nat) (a : Nat) (rest : List Nat), Live s ∧ LpeCmd
    s.chip n.1 12 w ∧ ((s.chip.lpeNext n.1).lpe n.1).stack = a :: rest :=
  ⟨st { base with mem := [(0x08000003, 192#8)], lpes := [(2, { running := true, pc := 0x08000000, tp := 0x08000004, stack := [1, 2, 3, 4] })] }, 2, 0xC0000000, 1, [2, 3, 4], by decide⟩

theorem meets_LineProgramControl_12 : ∃ (s : State) (n : Fin 8) (w : Nat), Live s ∧ LpeCmd s.chip n.1 12 w ∧
    ((s.chip.lpeNext n.1).lpe n.1).stack = [] :=
  ⟨st { base with mem := [(0x08000003, 192#8)], lpes := [(2, { running := true, pc := 0x08000000, tp := 0x08000004 })] }, 2, 0xC0000000, by decide⟩

theorem meets_LineProgramControl_13 : ∃ (s : State) (n : Fin 8) (w : Nat) (a : Nat), Live s ∧ LpeCmd s.chip n.1 13 w ∧
    LpeWord (s.chip.lpeNext n.1) n.1 a ∧ LpeTarget a :=
  ⟨st { base with mem := [(0x08000003, 208#8), (0x08000005, 1#8), (0x08000007, 8#8)], lpes := [(2, { running := true, pc := 0x08000000, tp := 0x08000004 })] }, 2, 0xD0000000, 0x08000100, by decide⟩

theorem meets_LineProgramControl_14 : ∃ (s : State) (n : Fin 8) (w : Nat), Live s ∧ LpeCmd s.chip n.1 14 w ∨ LpeCmd s.chip
    n.1 15 w :=
  ⟨st { base with mem := [(0x08000003, 224#8)], lpes := [(2, { running := true, pc := 0x08000000, tp := 0x08000004 })] }, 2, 0xE0000000, by decide⟩

theorem meets_LineProgramControl_15 : ∃ (s : State) (n : Fin 8) (y : Nat), Live s ∧ s.chip.domOn (29 + n.1) = true ∧
    (s.chip.lpe n.1).running = true ∧ s.chip.frozen n.1 = false ∧ (s.chip.lpe n.1).hold = some y :=
  ⟨st { base with mem := [], lpes := [(2, { running := true, pc := 0x08000000, tp := 0x08000004, hold := some 7 })] }, 2, 7, by decide⟩

theorem meets_LineProgramControl_16 : ∃ (s : State) (n : Fin 8), Live s ∧ s.chip.domOn (29 + n.1) = true ∧ (s.chip.lpe
    n.1).running = true ∧ (s.chip.lpe n.1).hold = none ∧ s.chip.lpeExhausted n.1 = true ∧ s.chip.frozen n.1 = false :=
  ⟨st { base with mem := [], lpes := [(2, { running := true, pc := 0x08000000, tp := 0x08000004, steps := 1048576 })] }, 2, by decide⟩

theorem meets_LineProgramWrites_1 : ∃ (s : State) (n : Fin 8) (w : Nat) (v : Nat), Live s ∧ LpeCmd s.chip n.1 3 w ∧ LpeWord
    (s.chip.lpeNext n.1) n.1 v ∧ bits w 27 24 = 0 :=
  ⟨st { base with mem := [(0x08000000, 52#8), (0x08000002, 1#8), (0x08000003, 48#8), (0x08000004, 7#8)], lpes := [(2, { running := true, pc := 0x08000000, tp := 0x08000004 })] }, 2, 0x30010034, 7, by decide⟩

theorem meets_LineProgramWrites_2 : ∃ (s : State) (n : Fin 8) (w : Nat) (v : Nat), Live s ∧ LpeCmd s.chip n.1 4 w ∧
    (s.chip.lpeNext n.1).lpeExhausted n.1 = false ∧ ((s.chip.lpeNext n.1).lpe n.1).running = true ∧ ((s.chip.lpeNext
    n.1).lpeFetch ((s.chip.lpeNext n.1).lpe n.1).tp).1 = .word v ∧ bits w 27 24 = 0 :=
  ⟨st { base with mem := [(0x08000000, 52#8), (0x08000002, 1#8), (0x08000003, 64#8), (0x08000004, 7#8)], lpes := [(2, { running := true, pc := 0x08000000, tp := 0x08000004 })] }, 2, 0x40010034, 7, by decide⟩

theorem meets_LineProgramWrites_3 : ∃ (s : State) (n : Fin 8) (w : Nat) (v : Nat), Live s ∧ LpeCmd s.chip n.1 5 w ∧ LpeWord
    (s.chip.lpeNext n.1) n.1 v :=
  ⟨st { base with mem := [(0x08000000, 52#8), (0x08000002, 1#8), (0x08000003, 80#8), (0x08000004, 7#8)], lpes := [(2, { running := true, pc := 0x08000000, tp := 0x08000004 })] }, 2, 0x50010034, 7, by decide⟩

theorem meets_LineProgramWrites_4 : ∃ (s : State) (n : Fin 8) (w : Nat) (v : Nat), Live s ∧ LpeCmd s.chip n.1 6 w ∧ LpeWord
    (s.chip.lpeNext n.1) n.1 v ∧ bits w 27 24 = 0 :=
  ⟨st { base with mem := [(0x08000000, 52#8), (0x08000002, 1#8), (0x08000003, 96#8), (0x08000004, 7#8)], lpes := [(2, { running := true, pc := 0x08000000, tp := 0x08000004 })] }, 2, 0x60010034, 7, by decide⟩

theorem meets_LineProgramWrites_5 : ∃ (s : State) (n : Fin 8) (w : Nat) (v : Nat), Live s ∧ LpeCmd s.chip n.1 7 w ∧ LpeWord
    (s.chip.lpeNext n.1) n.1 v ∧ bits w 27 24 = 0 ∧ bits w 11 0 * 4 + bits w 15 14 < 16384 :=
  ⟨st { base with mem := [(0x08000000, 52#8), (0x08000003, 112#8), (0x08000004, 7#8)], lpes := [(2, { running := true, pc := 0x08000000, tp := 0x08000004 })] }, 2, 0x70000034, 7, by decide⟩

theorem meets_HeadControl_1 : ∃ (s : State) (m : Master) (h : Fin 8) (v : BitVec 32) (t : Chip), Live s ∧ Served s.chip m
    .shCtrl h.1 0 true ∧ (s.chip.writePllEn h.1 (bit v.toNat 1)).setFld F.shCtrl_RUN h.1 0 1 = t ∧ t.on F.shStat_RUNNING h.1
    = false ∧ t.startOk h.1 = true :=
  ⟨st scanBase, .own 0, 1, 3, (scanBase.writePllEn 1 true).setFld F.shCtrl_RUN 1 0 1, by decide⟩

theorem meets_HeadControl_2 : ∃ (s : State) (m : Master) (h : Fin 8) (v : BitVec 32) (t : Chip), Live s ∧ Served s.chip m
    .shCtrl h.1 0 true ∧ (s.chip.writePllEn h.1 (bit v.toNat 1)).setFld F.shCtrl_RUN h.1 0 1 = t ∧ t.on F.shStat_RUNNING h.1
    = false ∧ t.startOk h.1 = false :=
  ⟨st base, .own 0, 1, 3, (base.writePllEn 1 true).setFld F.shCtrl_RUN 1 0 1, by decide⟩

theorem meets_HeadControl_3 : ∃ (s : State) (m : Master) (h : Fin 8) (v : BitVec 32), Live s ∧ Served s.chip m .shCtrl h.1 0
    true :=
  ⟨st base, .own 0, 1, 3, by decide⟩

theorem meets_HeadControl_4 : ∃ (s : State) (h : Fin 8) (fr : BitVec 16) (t16 : Nat) (u : Chip), Live s ∧ s.chip.domOn (29 +
    h.1) = true ∧ (s.chip.head h.1).waiting = true ∧ (s.chip.head h.1).resume = false ∧ s.chip.startAt h.1 fr.toNat = some
    t16 ∧ (s.chip.updHead h.1 fun y =>
    { y with waiting := false, resume := false, hold := false, psrArm := false, heldDot := 0, cur := none, prev := none }) =
    u ∧ u.timingOk h.1 = true :=
  ⟨st { scanBase with heads := [(1, { waiting := true })] }, 1, 7, 7, { scanBase with heads := [(1, {})] }, by decide⟩

theorem meets_HeadControl_5 : ∃ (s : State) (h : Fin 8), Live s ∧ s.chip.domOn (29 + h.1) = true ∧ s.chip.on F.shCtrl_PLL_EN
    h.1 = true :=
  ⟨st (base.setFld F.shCtrl_PLL_EN 1 0 1), 1, by decide⟩

theorem meets_HeadControl_6 : ∃ (s : State) (h : Fin 8), Live s ∧ s.chip.domOn (29 + h.1) = true ∧ s.chip.on
    F.shStat_RUNNING h.1 = true :=
  ⟨st (base.setFld F.shStat_RUNNING 1 0 1), 1, by decide⟩

theorem meets_HeadControl_7 : ∃ (s : State) (f : Fin 64) (l : BitVec 16), Live s ∧ s.chip.domOn 29 = true ∧ s.chip.on
    F.glCtrl_EN = true ∧ s.chip.on F.sysSupply_VDAC_OK = true ∧ s.chip.genlock.seen = false ∧ s.chip.on F.glStat_STABLE =
    false :=
  ⟨st ((base.setFld F.glCtrl_EN 0 0 1).setFld F.sysSupply_VDAC_OK 0 0 1), 3, 525, by decide⟩

theorem meets_HeadControl_8 : ∃ (s : State) (f : Fin 64) (l : BitVec 16) (fs : List (Nat × Nat)), Live s ∧ s.chip.domOn 29 =
    true ∧ s.chip.on F.glCtrl_EN = true ∧ s.chip.on F.sysSupply_VDAC_OK = true ∧ s.chip.genlock.seen = true ∧
    (((s.chip.ticks * 64 + f.1 - s.chip.genlock.ref64, l.toNat) :: s.chip.genlock.frames).take 3) = fs ∧ framesAgree fs =
    true :=
  ⟨st { ((base.setFld F.glCtrl_EN 0 0 1).setFld F.sysSupply_VDAC_OK 0 0 1) with tb := 100, genlock := { seen := true, ref64 := 0, frames := [(6400, 525), (6400, 525), (6410, 525)] } }, 3, 525, [(6403, 525), (6400, 525), (6400, 525)], by decide⟩

theorem meets_HeadControl_9 : ∃ (s : State) (h : Fin 8), Live s ∧ s.chip.domOn (29 + h.1) = true ∧ 3 * s.chip.framePer h.1 ≤
    sub64 s.chip.tb.toNat (s.chip.genlock.ref64 / 64) ∧ s.chip.on F.glStat_PRESENT = true ∧ s.chip.on F.shStat_RUNNING h.1 =
    true ∧ s.chip.fld F.shLock_SYNCSRC h.1 = 1 ∧ (s.chip.head h.1).hold = false :=
  ⟨st (((base.setFld F.shStat_RUNNING 1 0 1).setFld F.shLock_SYNCSRC 1 0 1).setFld F.glStat_PRESENT 0 0 1), 1, by decide⟩

theorem meets_HeadControl_10 : ∃ (s : State) (m : Master) (h : Fin 8) (v : BitVec 32), Live s ∧ Served s.chip m .shFaddr h.1
    0 true ∧ s.chip.on F.shStat_RUNNING h.1 = true ∧ s.chip.fld F.cpsCtrlAct_MODE h.1 ≠ 2 :=
  ⟨st (base.setFld F.shStat_RUNNING 1 0 1), .own 0, 1, 0x1000, by decide⟩

theorem meets_HeadControl_11 : ∃ (s : State) (m : Master) (h : Fin 8) (v : BitVec 32), Live s ∧ Served s.chip m .shFaddr h.1
    0 true ∧ s.chip.on F.shStat_RUNNING h.1 = false :=
  ⟨st base, .own 0, 1, 0x1000, by decide⟩

theorem meets_HeadControl_12 : ∃ (s : State) (m : Master) (h : Fin 8) (x : Stamp), Live s ∧ Served s.chip m .shFstampLo h.1
    0 false ∧ (s.chip.head h.1).cur = some x :=
  ⟨st { base with heads := [(1, { cur := some default })] }, .own 0, 1, default, by decide⟩

theorem meets_HeadControl_13 : ∃ (s : State) (m : Master), Live s ∧ Served s.chip m .glFper 0 0 false :=
  ⟨st base, .own 0, by decide⟩

theorem meets_DisplayPort_1 : ∃ (s : State) (m : Master) (h : Fin 8) (v : BitVec 32), Live s ∧ Served s.chip m .shAuxctrl
    h.1 0 true ∧ s.chip.on F.shAuxstat_BUSY h.1 = true :=
  ⟨st (base.setFld F.shAuxstat_BUSY 1 0 1), .own 0, 1, 0x80000000, by decide⟩

theorem meets_DisplayPort_2 : ∃ (s : State) (m : Master) (h : Fin 8) (v : BitVec 32), Live s ∧ Served s.chip m .shAuxctrl
    h.1 0 true ∧ s.chip.on F.shAuxstat_BUSY h.1 = false ∧ bits v.toNat 31 28 = 8 ∨ bits v.toNat 31 28 = 9 :=
  ⟨st base, .own 0, 1, 0x80000000, by decide⟩

theorem meets_DisplayPort_3 : ∃ (s : State) (h : Fin 8) (d : List Byte), Live s ∧ s.chip.domOn (29 + h.1) = true ∧ s.chip.on
    F.shAuxstat_BUSY h.1 = true ∧ (s.chip.head h.1).trainReq = false :=
  ⟨st (base.setFld F.shAuxstat_BUSY 1 0 1), 1, [3], by decide⟩

theorem meets_DisplayPort_4 : ∃ (s : State) (h : Fin 8), Live s ∧ s.chip.domOn (29 + h.1) = true ∧ s.chip.on
    F.shAuxstat_BUSY h.1 = true ∧ (s.chip.head h.1).trainReq = false :=
  ⟨st (base.setFld F.shAuxstat_BUSY 1 0 1), 1, by decide⟩

theorem meets_DisplayPort_5 : ∃ (s : State) (h : Fin 8), Live s ∧ s.chip.domOn (29 + h.1) = true ∧ s.chip.on
    F.shAuxstat_BUSY h.1 = true ∧ (s.chip.head h.1).trainReq = false ∧ (s.chip.head h.1).auxTries < 7 :=
  ⟨st (base.setFld F.shAuxstat_BUSY 1 0 1), 1, by decide⟩

theorem meets_DisplayPort_6 : ∃ (s : State) (h : Fin 8), Live s ∧ s.chip.domOn (29 + h.1) = true ∧ s.chip.on
    F.shAuxstat_BUSY h.1 = true ∧ (s.chip.head h.1).trainReq = false ∧ 7 ≤ (s.chip.head h.1).auxTries :=
  ⟨st { base.setFld F.shAuxstat_BUSY 1 0 1 with heads := [(1, { auxTries := 7 })] }, 1, by decide⟩

theorem meets_DisplayPort_7 : ∃ (s : State) (h : Fin 8), Live s ∧ s.chip.domOn (29 + h.1) = true ∧ s.chip.on
    F.shAuxstat_BUSY h.1 = true ∧ (s.chip.head h.1).trainReq = false ∧ 400000 ≤ sub64 s.chip.tb.toNat (s.chip.head
    h.1).auxAt :=
  ⟨st { (base.setFld F.shAuxstat_BUSY 1 0 1) with tb := 400000 }, 1, by decide⟩

theorem meets_DisplayPort_8 : ∃ (s : State) (h : Fin 8) (r : Fin 4) (l : Fin 3) (p : Bool) (g : BitVec 16), Live s ∧
    s.chip.domOn (29 + h.1) = true ∧ s.chip.on F.shDpcfg_AUTO_LT h.1 = true :=
  ⟨st (base.setFld F.shDpcfg_AUTO_LT 1 0 1), 1, 0, 0, false, 0, by decide⟩

theorem meets_DisplayPort_9 : ∃ (s : State) (h : Fin 8) (r : Fin 4) (l : Fin 3) (p : Bool) (g : BitVec 16), Live s ∧
    s.chip.domOn (29 + h.1) = true ∧ s.chip.on F.shDpcfg_AUTO_LT h.1 = false :=
  ⟨st (base.setFld F.shDpcfg_AUTO_LT 1 0 0), 1, 0, 0, false, 0, by decide⟩

theorem meets_DisplayPort_10 : ∃ (s : State) (h : Fin 8), Live s ∧ s.chip.domOn (29 + h.1) = true :=
  ⟨st base, 1, by decide⟩

theorem meets_DisplayPort_11 : ∃ (s : State) (h : Fin 8) (g : BitVec 16), Live s ∧ s.chip.domOn (29 + h.1) = true :=
  ⟨st base, 1, 0, by decide⟩

theorem meets_DisplayPort_12 : ∃ (s : State) (h : Fin 8) (g : BitVec 16), Live s ∧ s.chip.domOn (29 + h.1) = true ∧
    s.chip.on F.shDpcfg_AUTO_LT h.1 = true :=
  ⟨st (base.setFld F.shDpcfg_AUTO_LT 1 0 1), 1, 0, by decide⟩

theorem meets_DisplayPort_13 : ∃ (s : State) (m : Master) (h : Fin 8), Live s ∧ Served s.chip m .shDpcmd h.1 0 true ∧
    s.chip.fld F.shOut_OUTSEL h.1 = 1 ∧ s.chip.on F.shDpcfg_PSR_EN h.1 = true ∧ (s.chip.head h.1).sinkPsr = true ∧ s.chip.on
    F.shStat_RUNNING h.1 = true :=
  ⟨st { (((base.setFld F.shOut_OUTSEL 1 0 1).setFld F.shDpcfg_PSR_EN 1 0 1).setFld F.shStat_RUNNING 1 0 1) with heads := [(1, { sinkPsr := true })] }, .own 0, 1, by decide⟩

theorem meets_DisplayPort_14 : ∃ (s : State) (m : Master) (h : Fin 8), Live s ∧ Served s.chip m .shDpcmd h.1 0 true ∧
    (s.chip.head h.1).sinkPsr = false :=
  ⟨st base, .own 0, 1, by decide⟩

theorem meets_DisplayPort_15 : ∃ (s : State) (m : Master) (h : Fin 8), Live s ∧ Served s.chip m .shDpcmd h.1 0 true ∧
    s.chip.on F.shDpstat_PSR_ACT h.1 = true ∧ s.chip.startOk h.1 = true :=
  ⟨st (scanBase.setFld F.shDpstat_PSR_ACT 1 0 1), .own 0, 1, by decide⟩

theorem meets_DisplayPort_16 : ∃ (s : State) (m : Master) (h : Fin 8) (r : Fin 4) (l : Fin 3) (p : Bool) (g : BitVec 16) (t
    : Chip), Live s ∧ Served s.chip m .shDpcmd h.1 0 true ∧ (s.chip.updHead h.1 fun x =>
    { x with trainReq := true }).afterWrite s.chip m .shDpcmd h.1 0 1 = t ∧ (t.head h.1).trainReq = true ∧ t.domOn (29 +
    h.1) = true :=
  ⟨st base, .own 0, 1, 0, 0, false, 0, (base.updHead 1 fun x => { x with trainReq := true }).afterWrite base (.own 0) .shDpcmd 1 0 1, by decide⟩

theorem meets_DisplayPort_17 : ∃ (c : Chip) (h : Nat) (g : Nat) (r : Nat) (l : Nat), (trainOrder (min (c.fld
    F.shDpcfg_MAXRATE h) (c.head h).sinkRate) (min (c.fld F.shDpcfg_LANES h) (c.head h).sinkLanes)).find? (fun x => c.dpFits
    h x.1 x.2 && bit g (x.1 + 4 * x.2)) = some (r, l) :=
  ⟨base, 1, 1, 0, 0, by decide⟩

theorem meets_DisplayPort_18 : ∃ (c : Chip) (h : Nat) (g : Nat), (trainOrder (min (c.fld F.shDpcfg_MAXRATE h) (c.head
    h).sinkRate) (min (c.fld F.shDpcfg_LANES h) (c.head h).sinkLanes)).find? (fun x => c.dpFits h x.1 x.2 && bit g (x.1 + 4
    * x.2)) = none :=
  ⟨base, 1, 0, by decide⟩

theorem meets_AudioEngine_1 : ∃ (s : State), Live s ∧ s.chip.domOn 44 = true ∧ s.chip.on F.audClk_PLL_EN = true :=
  ⟨st (base.setFld F.audClk_PLL_EN 0 0 1), by decide⟩

theorem meets_AudioEngine_2 : ∃ (s : State) (m : Master) (v : BitVec 32) (t : Chip), Live s ∧ Served s.chip m .audCtrl 0 0
    true ∧ bit v.toNat 0 = true ∧ ((s.chip.audTake.setFld F.audCtrl_TICKDIV 0 0 (v.toNat / 2 ^ 8)).setHold (bit v.toNat 1))
    = t ∧ s.chip.on F.audStat_RUNNING = false ∧ s.chip.snd.arm = none ∧ s.chip.on F.audStat_PLL_LOCK = true ∧ s.chip.on
    F.audClk_TBLOCK = false :=
  ⟨st (base.setFld F.audStat_PLL_LOCK 0 0 1), .own 0, 1, ((base.setFld F.audStat_PLL_LOCK 0 0 1).setFld F.audCtrl_TICKDIV 0 0 0).setHold false, by decide⟩

theorem meets_AudioEngine_3 : ∃ (s : State) (m : Master) (v : BitVec 32) (t : Chip), Live s ∧ Served s.chip m .audCtrl 0 0
    true ∧ bit v.toNat 0 = true ∧ ((s.chip.audTake.setFld F.audCtrl_TICKDIV 0 0 (v.toNat / 2 ^ 8)).setHold (bit v.toNat 1))
    = t ∧ s.chip.on F.audStat_RUNNING = false ∧ s.chip.snd.arm = none ∧ s.chip.on F.audStat_PLL_LOCK = false :=
  ⟨st base, .own 0, 1, (base.setFld F.audCtrl_TICKDIV 0 0 0).setHold false, by decide⟩

theorem meets_AudioEngine_4 : ∃ (s : State) (m : Master) (v : BitVec 32) (t : Chip), Live s ∧ Served s.chip m .audCtrl 0 0
    true ∧ bit v.toNat 0 = false ∧ ((s.chip.audTake.setFld F.audCtrl_TICKDIV 0 0 (v.toNat / 2 ^ 8)).setHold (bit v.toNat 1))
    = t :=
  ⟨st base, .own 0, 0, (base.setFld F.audCtrl_TICKDIV 0 0 0).setHold false, by decide⟩

theorem meets_AudioEngine_5 : ∃ (s : State) (m : Master) (v : BitVec 32), Live s ∧ Served s.chip m .audCtrl 0 0 true ∧
    v.toNat % 2 = 1 ∧ s.chip.on F.audStat_RUNNING = true ∧ s.chip.snd.stopping = false :=
  ⟨st (base.setFld F.audStat_RUNNING 0 0 1), .own 0, 1, by decide⟩

theorem meets_AudioEngine_7 : ∃ (s : State) (a : Nat) (n : Nat), Live s ∧ s.chip.domOn 44 = true ∧ s.chip.snd.arm = some (a,
    n) ∧ notBefore3 (3 * s.chip.now : Nat) (a : Nat) = true ∧ s.chip.on F.audStat_RUNNING = false ∧ s.chip.on
    F.audClk_TBLOCK = false :=
  ⟨st { base with snd := { base.snd with arm := some (0, 0) } }, 0, 0, by decide⟩

theorem meets_AudioEngine_8 : ∃ (s : State) (w : Chip) (k : Nat), Live s ∧ s.chip.domOn 44 = true ∧ s.chip.fld
    F.fabSpareStat_PHASE ≠ 2 ∧ s.chip.on F.audStat_RUNNING = true ∧ s.chip.snd.stopping = false ∧ s.chip.snd.block = k ∧
    s.chip.blockDue k = true ∧ { s.chip with flds := s.chip.regsFor k } = w :=
  ⟨st (base.setFld F.audStat_RUNNING 0 0 1), { base.setFld F.audStat_RUNNING 0 0 1 with flds := (base.setFld F.audStat_RUNNING 0 0 1).regsFor 0 }, 0, by decide⟩

theorem meets_AudioEngine_9 : ∃ (s : Chip) (k : Nat), s.snd.taken = [] ∧ s.snd.held = none :=
  ⟨base, 3, by decide⟩

theorem meets_AudioEngine_10 : ∃ (s : Chip) (k : Nat) (h : List (FKey × Nat)), s.snd.taken = [] ∧ s.snd.held = some h :=
  ⟨{ base with snd := { base.snd with held := some [] } }, 3, [], by decide⟩

theorem meets_AudioEngine_11 : ∃ (s : State) (o : NStore (List Int)) (k : Nat), Live s ∧ s.chip.domOn 44 = true ∧ s.chip.on
    F.audStat_RUNNING = true ∧ s.chip.snd.sent = k ∧ s.chip.sendDue k = true ∧ s.chip.snd.stopping = false ∧
    s.chip.snd.ready = [(k, o)] ∧ s.chip.fld F.audCtrl_TICKDIV ≤ s.chip.snd.ticks :=
  ⟨st { (base.setFld F.audStat_RUNNING 0 0 1) with snd := { base.snd with block := 1, ready := [(0, [])] } }, [], 0, by decide⟩

theorem meets_AudioEngine_12 : ∃ (s : State) (k : Nat), Live s ∧ s.chip.domOn 44 = true ∧ s.chip.on F.audStat_RUNNING = true
    ∧ s.chip.snd.sent = k ∧ s.chip.sendDue k = true ∧ s.chip.snd.stopping = false ∧ s.chip.snd.ready = [] ∧ s.chip.snd.ticks
    < s.chip.fld F.audCtrl_TICKDIV :=
  ⟨st ((base.setFld F.audStat_RUNNING 0 0 1).setFld F.audCtrl_TICKDIV 0 0 5), 0, by decide⟩

theorem meets_AudioEngine_13 : ∃ (s : State) (k : Nat), Live s ∧ s.chip.domOn 44 = true ∧ s.chip.on F.audStat_RUNNING = true
    ∧ s.chip.snd.sent = k ∧ s.chip.sendDue k = true ∧ s.chip.snd.stopping = true :=
  ⟨st { (base.setFld F.audStat_RUNNING 0 0 1) with snd := { base.snd with stopping := true } }, 0, by decide⟩

theorem meets_VoicesAndPorts_1 : ∃ (s : State) (m : Master) (i : Fin 512) (n : Nat), Live s ∧ Served s.chip m .vCmd i.1 0
    true ∧ s.chip.audTake.nextTaking = n :=
  ⟨st base, .own 0, 7, 0, by decide⟩

theorem meets_VoicesAndPorts_2 : ∃ (s : State) (m : Master) (i : Fin 512) (n : Nat), Live s ∧ Served s.chip m .vCmd i.1 0
    true ∧ s.chip.audTake.nextTaking = n :=
  ⟨st base, .own 0, 7, 0, by decide⟩

theorem meets_VoicesAndPorts_3 : ∃ (s : State) (m : Master) (i : Fin 512) (n : Nat), Live s ∧ Served s.chip m .vCmd i.1 0
    true ∧ s.chip.audTake.nextTaking = n :=
  ⟨st base, .own 0, 7, 0, by decide⟩

theorem meets_VoicesAndPorts_4 : ∃ (s : State) (m : Master) (i : Fin 512) (op : BitVec 2) (n : Nat), Live s ∧ Served s.chip
    m .vCmd i.1 0 true ∧ s.chip.audTake.nextTaking = n :=
  ⟨st base, .own 0, 7, 1, 0, by decide⟩

theorem meets_VoicesAndPorts_5 : ∃ (s : State) (k : BitVec 16) (f : Fd) (i : Nat) (j : Nat), Live s ∧ s.chip.domOn 44 = true
    ∧ (s.chip.slot k.toNat).fading = false ∧ (s.chip.slotRegs k.toNat).2.2.2 = (f, i, j) :=
  ⟨st base, 0, F.vOut_PEND, 0, 0, by decide⟩

theorem meets_VoicesAndPorts_6 : ∃ (s : State) (k : BitVec 16), Live s ∧ s.chip.domOn 44 = true ∧ (s.chip.slot
    k.toNat).fading = true :=
  ⟨st (base.updSnd fun d => { d with slots := [(0, { old := some (1, {}) })] }), 0, by decide⟩

theorem meets_VoicesAndPorts_7 : ∃ (s : State) (m : Master) (x : Fin 36) (v : BitVec 32), Live s ∧ Served s.chip m
    (audioPortReg x.1).1 (audioPortReg x.1).2 0 true ∧ s.chip.on (portF F.outCfg_EN F.spdCfg_EN F.dpaCfg_EN F.inCfg_EN
    x.1).1 (portF F.outCfg_EN F.spdCfg_EN F.dpaCfg_EN F.inCfg_EN x.1).2 = true :=
  ⟨st (base.setFld F.spdCfg_EN 2 0 1), .own 0, 18, 0, by decide⟩

theorem meets_VoicesAndPorts_8 : ∃ (s : State) (m : Master) (x : Fin 36) (v : BitVec 32) (t : Chip), Live s ∧ Served s.chip
    m (audioPortReg x.1).1 (audioPortReg x.1).2 0 true ∧ s.chip.on (portF F.outCfg_EN F.spdCfg_EN F.dpaCfg_EN F.inCfg_EN
    x.1).1 (portF F.outCfg_EN F.spdCfg_EN F.dpaCfg_EN F.inCfg_EN x.1).2 = false ∧ (portFields x.1).foldl (fun t f =>
    t.writeFld f (portF F.outCfg_EN F.spdCfg_EN F.dpaCfg_EN F.inCfg_EN x.1).2 0 (v.toNat % 2 ^ 31 + 2 ^ 31)) s.chip.audTake
    = t ∧ (¬ (x.1 < 16 ∨ 28 ≤ x.1) ∨ i2sInvalid ((portFields x.1).foldl (fun a f => a + t.fld f (portF F.outCfg_EN
    F.spdCfg_EN F.dpaCfg_EN F.inCfg_EN x.1).2 * 2 ^ f.lo) 0) = false) :=
  ⟨st base, .own 0, 18, 0, (portFields 18).foldl (fun t f => t.writeFld f 2 0 (2 ^ 31)) base, by decide⟩

theorem meets_VoicesAndPorts_9 : ∃ (s : State) (x : Fin 36), Live s ∧ s.chip.domOn 44 = true ∧ s.chip.portRunning x.1 = true
    ∧ x.1 < 16 ∨ 28 ≤ x.1 ∧ s.chip.on (portF F.outCfg_CLKSRC F.outCfg_CLKSRC F.outCfg_CLKSRC F.inCfg_CLKSRC x.1).1 (portF
    F.outCfg_CLKSRC F.outCfg_CLKSRC F.outCfg_CLKSRC F.inCfg_CLKSRC x.1).2 = true :=
  ⟨st ((base.setFld F.outStat_RUNNING 3 0 1).setFld F.outCfg_CLKSRC 3 0 1), 3, by decide⟩

theorem meets_VoicesAndPorts_10 : ∃ (s : State) (x : Fin 36), Live s ∧ s.chip.domOn 44 = true ∧ s.chip.portRunning x.1 =
    true ∧ 28 ≤ x.1 ∨ (x.1 < 16 ∧ s.chip.on F.outCfg_CLKSRC x.1 = true) :=
  ⟨st ((base.setFld F.outStat_RUNNING 3 0 1).setFld F.outCfg_CLKSRC 3 0 1), 3, by decide⟩

theorem meets_BlitQueue_1 : ∃ (s : State) (m : Master), Live s ∧ Served s.chip m .bltGo 0 0 true ∧ s.chip.blt.queue.length +
    b2n s.chip.blt.run.isSome < 4 :=
  ⟨st base, .own 0, by decide⟩

theorem meets_BlitQueue_2 : ∃ (s : State) (m : Master), Live s ∧ Served s.chip m .bltGo 0 0 true ∧ 4 ≤
    s.chip.blt.queue.length + b2n s.chip.blt.run.isSome :=
  ⟨st { base with blt := { queue := List.replicate 4 {} } }, .own 0, by decide⟩

theorem meets_BlitQueue_3 : ∃ (s : State) (m : Master), Live s ∧ Served s.chip m .bltGo 0 0 true ∧ s.chip.blt.run = none :=
  ⟨st { base with blt := { queue := List.replicate 4 {} } }, .own 0, by decide⟩

theorem meets_BlitQueue_4 : ∃ (s : State) (m : Master) (r : BltRun) (t : Chip), Live s ∧ Served s.chip m .bltGo 0 0 true ∧
    s.chip.blt.run = some r ∧ r.outAll = 0 ∧ { s.chip with blt := { s.chip.blt with queue := [] } } = t :=
  ⟨st { base with blt := { queue := List.replicate 4 {}, run := some { cmd := {} } } }, .own 0, { cmd := {} }, { base with blt := { queue := [], run := some { cmd := {} } } }, by decide⟩

theorem meets_BlitQueue_5 : ∃ (s : State) (m : Master) (r : BltRun), Live s ∧ Served s.chip m .bltGo 0 0 true ∧
    s.chip.blt.run = some r ∧ r.outAll ≠ 0 :=
  ⟨st { base with blt := { queue := List.replicate 4 {}, run := some { cmd := {}, outAll := 1 } } }, .own 0, { cmd := {}, outAll := 1 }, by decide⟩

theorem meets_BlitQueue_6 : ∃ (s : State) (b : BltCmd) (q : List BltCmd), Live s ∧ s.chip.domOn 46 = true ∧ s.chip.blt.run =
    none ∧ s.chip.blt.queue = b :: q ∧ b.badFmt = true :=
  ⟨st { base with blt := { queue := [{ op := 3 }] } }, { op := 3 }, [], by decide⟩

theorem meets_BlitQueue_7 : ∃ (s : State) (b : BltCmd) (q : List BltCmd), Live s ∧ s.chip.domOn 46 = true ∧ s.chip.blt.run =
    none ∧ s.chip.blt.queue = b :: q ∧ b.badFmt = false ∧ b.plan = none :=
  ⟨st { base with blt := { queue := [{ op := 1, sbase := 0, dbase := 0, sstride := 0x20000, dstride := 0x20004, w := 4, h := 2 }] } }, { op := 1, sbase := 0, dbase := 0, sstride := 0x20000, dstride := 0x20004, w := 4, h := 2 }, [], by decide⟩

theorem meets_BlitQueue_8 : ∃ (s : State) (b : BltCmd) (q : List BltCmd) (r : BltRun), Live s ∧ s.chip.domOn 46 = true ∧
    s.chip.blt.run = none ∧ s.chip.blt.queue = b :: q ∧ b.badFmt = false ∧ b.plan = some r :=
  ⟨st { base with blt := { queue := [{}] } }, {}, [], { cmd := {} }, by decide⟩

theorem meets_BlitRun_1 : ∃ (s : State) (r : BltRun) (r2 : BltRun) (t : Chip), Live s ∧ s.chip.domOn 46 = true ∧ s.chip.fld
    F.fabSpareStat_PHASE ≠ 2 ∧ s.chip.blt.run = some r ∧ r.failed = false ∧ r.aborted = false ∧ r.row < r.cmd.h ∧
    s.chip.blt.dead ≤ sub64 s.chip.now s.chip.blt.at_ ∧ s.chip.bltIssue r (256 * 2 ^ r.cmd.burstLog) (256 * 2 ^
    r.cmd.burstLog) = (t, r2) :=
  ⟨st { base with blt := { run := some { cmd := { burstLog := 0 } } } }, { cmd := { burstLog := 0 } }, ({ base with blt := { run := some { cmd := { burstLog := 0 } } } }.bltIssue { cmd := { burstLog := 0 } } 256 256).2, ({ base with blt := { run := some { cmd := { burstLog := 0 } } } }.bltIssue { cmd := { burstLog := 0 } } 256 256).1, by decide, by decide, by decide, by decide, by decide, by decide, by decide, by decide, rfl⟩

set_option maxRecDepth 100000 in
theorem meets_BlitRun_2 : ∃ (s : Chip) (r : BltRun) (f : Nat) (n : Nat) (q : Nat × Nat), n ≠ 0 ∧ r.row < r.cmd.h ∧ s.bltDown
    (r.needs (r.stretch n)) = some q :=
  ⟨base.setFld F.psmDom_ON 1 0 0xFFFFFFBF, { cmd := { op := 2, sbase := 0x08000000 } }, 4, 256, (0x08000000, 1), by decide⟩

theorem meets_BlitRun_3 : ∃ (s : Chip) (r : BltRun) (f : Nat) (n : Nat) (k : Nat) (y : Nat) (p : List (Nat × Bool) × Chip)
    (w : Chip × Nat), n ≠ 0 ∧ r.row < r.cmd.h ∧ r.strip = 0 ∧ r.stretch n = k ∧ s.bltDown (r.needs k) = none ∧ r.rowAt r.row
    = y ∧ s.bltSource r.cmd (r.colAt k) k y = p ∧ p.2.bltPut r.cmd (r.colAt k) y p.1 = w :=
  ⟨base, { cmd := {} }, 4, 256, 1, 0, ([(0, false)], base), base.bltPut {} 0 0 [(0, false)], by decide, by decide, by decide, by decide, by decide, by decide, rfl, rfl⟩

theorem meets_BlitRun_4 : ∃ (s : State) (r : BltRun), Live s ∧ s.chip.domOn 46 = true ∧ s.chip.blt.run = some r ∧ r.wmDue =
    true :=
  ⟨st { base with blt := { run := some { cmd := { wmEn := true }, rowsDone := 1 } } }, { cmd := { wmEn := true }, rowsDone := 1 }, by decide⟩

theorem meets_BlitRun_5 : ∃ (s : State) (r : BltRun), Live s ∧ s.chip.domOn 46 = true ∧ s.chip.blt.run = some r ∧ r.wmDue =
    false :=
  ⟨st { base with blt := { run := some { cmd := { wmEn := true } } } }, { cmd := { wmEn := true } }, by decide⟩

theorem meets_BlitRun_6 : ∃ (s : State) (r : BltRun), Live s ∧ s.chip.domOn 46 = true ∧ s.chip.blt.run = some r ∧ r.cmd.h ≤
    r.row ∧ r.outAll = 0 ∧ r.failed = false ∧ r.aborted = false ∧ r.wmDue = false ∧ r.cmd.fsig = true :=
  ⟨st { base with blt := { run := some { cmd := { fsig := true }, row := 1 } } }, { cmd := { fsig := true }, row := 1 }, by decide⟩

theorem meets_BlitRun_7 : ∃ (s : State) (r : BltRun), Live s ∧ s.chip.domOn 46 = true ∧ s.chip.blt.run = some r ∧ r.cmd.h ≤
    r.row ∧ r.outAll = 0 ∧ r.failed = false ∧ r.aborted = false ∧ r.wmDue = false ∧ r.cmd.fsig = false :=
  ⟨st { base with blt := { run := some { cmd := {}, row := 1 } } }, { cmd := {}, row := 1 }, by decide⟩

theorem meets_BlitRun_8 : ∃ (s : State) (r : BltRun), Live s ∧ s.chip.domOn 46 = true ∧ s.chip.blt.run = some r ∧ r.failed =
    true ∧ r.outAll = 0 ∧ r.aborted = false :=
  ⟨st { base with blt := { run := some { cmd := {}, failed := true } } }, { cmd := {}, failed := true }, by decide⟩

theorem meets_DmaCommands_1 : ∃ (s : State) (m : Master) (i : Fin 1024), Live s ∧ Served s.chip m .dmacCmd i.1 0 true ∧
    s.chip.dmaState i.1 = 0 ∧ dmaPaced (s.chip.fld F.dmacCfg_REQSRC i.1) = false :=
  ⟨st base, .own 0, 5, by decide⟩

theorem meets_DmaCommands_2 : ∃ (s : State) (m : Master) (i : Fin 1024), Live s ∧ Served s.chip m .dmacCmd i.1 0 true ∧
    s.chip.dmaState i.1 = 0 ∧ dmaPaced (s.chip.fld F.dmacCfg_REQSRC i.1) = true ∧ s.chip.fld F.dmacHi_MARK i.1 ≤ s.chip.fld
    F.dmacLo_MARK i.1 :=
  ⟨st (base.setFld F.dmacCfg_REQSRC 5 0 0x40), .own 0, 5, by decide⟩

theorem meets_DmaCommands_3 : ∃ (s : State) (m : Master) (i : Fin 1024), Live s ∧ Served s.chip m .dmacCmd i.1 0 true ∧
    s.chip.dmaState i.1 = 1 :=
  ⟨st (base.setFld F.dmacStat_STATE 5 0 1), .own 0, 5, by decide⟩

theorem meets_DmaCommands_4 : ∃ (s : State) (m : Master) (i : Fin 1024), Live s ∧ Served s.chip m .dmacCmd i.1 0 true ∧ 2 ≤
    s.chip.dmaState i.1 ∧ s.chip.dmaState i.1 ≠ 4 :=
  ⟨st (base.setFld F.dmacStat_STATE 5 0 2), .own 0, 5, by decide⟩

theorem meets_DmaCommands_5 : ∃ (s : State) (m : Master) (v : BitVec 32), Live s ∧ Served s.chip m .dmaBell 0 0 true ∧
    s.chip.dmaState (bits v.toNat 9 0) = 1 :=
  ⟨st (base.setFld F.dmacStat_STATE 5 0 1), .own 0, 5, by decide⟩

theorem meets_DmaCommands_6 : ∃ (s : State) (m : Master) (v : BitVec 32), Live s ∧ Served s.chip m .dmaBell 0 0 true ∧
    s.chip.dmaState (bits v.toNat 9 0) = 0 ∧ dmaPaced (s.chip.fld F.dmacCfg_REQSRC (bits v.toNat 9 0)) = false :=
  ⟨st base, .own 0, 5, by decide⟩

theorem meets_DmaCommands_7 : ∃ (s : State) (m : Master) (i : Fin 1024), Live s ∧ Served s.chip m .dmacCmd i.1 0 true ∧
    (s.chip.chan i.1).reading = true ∧ s.chip.dmaState i.1 = 2 :=
  ⟨st { base.setFld F.dmacStat_STATE 5 0 2 with dma := [(5, { reading := true })] }, .own 0, 5, by decide⟩

theorem meets_DmaCommands_8 : ∃ (s : State) (m : Master) (i : Fin 1024), Live s ∧ Served s.chip m .dmacCmd i.1 0 true ∧
    (s.chip.chan i.1).reading = false ∧ s.chip.dmaState i.1 = 2 ∨ s.chip.dmaState i.1 = 3 ∧ (s.chip.chan i.1).desc.isSome =
    true :=
  ⟨st { base.setFld F.dmacStat_STATE 5 0 2 with dma := [(5, { desc := some { addr := 0, ctrl := 0, len := 1, src := 0, ext := 0, dst := 0, next := 0 } })] }, .own 0, 5, by decide⟩

theorem meets_DmaCommands_9 : ∃ (s : Chip) (i : Nat), ((s.setDmaState i 4).chan i).bursts = [] ∧ ((s.setDmaState i 4).chan
    i).ptrs = [] ∧ ((s.setDmaState i 4).chan i).fail = none :=
  ⟨base, 5, by decide⟩

theorem meets_DmaCommands_10 : ∃ (s : State) (m : Master) (i : Fin 1024), Live s ∧ Served s.chip m .dmacCmd i.1 0 true ∧
    s.chip.dmaState i.1 = 5 ∧ (s.chip.chan i.1).desc.isSome = true :=
  ⟨st { base.setFld F.dmacStat_STATE 5 0 5 with dma := [(5, { desc := some { addr := 0, ctrl := 0, len := 1, src := 0, ext := 0, dst := 0, next := 0 } })] }, .own 0, 5, by decide⟩

theorem meets_DmaCommands_11 : ∃ (s : State) (m : Master) (i : Fin 1024), Live s ∧ Served s.chip m .dmacCmd i.1 0 true ∧
    s.chip.dmaState i.1 = 5 ∧ (s.chip.chan i.1).desc = none ∧ (s.chip.chan i.1).stop ≠ 2 :=
  ⟨st (base.setFld F.dmacStat_STATE 5 0 5), .own 0, 5, by decide⟩

theorem meets_DmaCommands_12 : ∃ (s : State) (m : Master) (i : Fin 1024), Live s ∧ Served s.chip m .dmacCmd i.1 0 true ∧
    s.chip.dmaState i.1 ≠ 5 ∧ s.chip.dmaState i.1 ≠ 4 :=
  ⟨st base, .own 0, 5, by decide⟩

theorem meets_DmaCommands_13 : ∃ (s : State) (m : Master) (i : Fin 1024), Live s ∧ Served s.chip m .dmacCmd i.1 0 true ∧
    (s.chip.chan i.1).reading = true ∧ s.chip.dmaState i.1 = 2 :=
  ⟨st { base.setFld F.dmacStat_STATE 5 0 2 with dma := [(5, { reading := true })] }, .own 0, 5, by decide⟩

theorem meets_DmaCommands_14 : ∃ (s : State) (m : Master) (i : Fin 1024), Live s ∧ Served s.chip m .dmacCmd i.1 0 true ∧
    s.chip.dmaState i.1 = 1 :=
  ⟨st (base.setFld F.dmacStat_STATE 5 0 1), .own 0, 5, by decide⟩

theorem meets_DmaCommands_15 : ∃ (s : State) (m : Master) (i : Fin 1024), Live s ∧ Served s.chip m .dmacCmd i.1 0 true ∧
    s.chip.dmaState i.1 = 0 ∨ s.chip.dmaState i.1 = 6 :=
  ⟨st base, .own 0, 5, by decide⟩

theorem meets_DmaTransfers_1 : ∃ (s : State) (i : Fin 1024), Live s ∧ s.chip.domOn 45 = true ∧ (s.chip.chan i.1).reading =
    true ∧ s.chip.fld F.dmacDesc_ADDR i.1 * 32 < 0x08000000 :=
  ⟨st { base with dma := [(5, { reading := true })] }, 5, by decide⟩

theorem meets_DmaTransfers_2 : ∃ (s : State) (i : Fin 1024) (a : Nat) (r : Nat × Bool × Chip), Live s ∧ s.chip.domOn 45 =
    true ∧ (s.chip.chan i.1).reading = true ∧ s.chip.fld F.dmacDesc_ADDR i.1 * 32 = a ∧ 0x08000000 ≤ a ∧ a < 0x16000000 ∧
    s.chip.storeUp a = true ∧ s.chip.heldByRepair a 32 = false ∧ s.chip.dmaHalf a = r ∧ r.2.1 = false ∧ bit r.1 31 = false ∧
    s.chip.dmaState i.1 ≠ 6 :=
  ⟨st { base.setFld F.dmacDesc_ADDR 5 0 0x400000 with dma := [(5, { reading := true })] }, 5, 0x08000000, ({ base.setFld F.dmacDesc_ADDR 5 0 0x400000 with dma := [(5, { reading := true })] } : Chip).dmaHalf 0x08000000, by decide, by decide, by decide, by decide, by decide, by decide, by decide, by decide, rfl, by decide, by decide, by decide⟩

theorem meets_DmaTransfers_3 : ∃ (s : State), Live s ∧ s.chip.domOn 45 = true ∧ s.chip.dmaPick = none :=
  ⟨st base, by decide⟩

theorem meets_DmaTransfers_4 : ∃ (s : State) (k : Nat) (q : Nat) (d : Desc) (rs : List (Nat × Nat × Nat)) (t : Chip), Live s
    ∧ s.chip.domOn 45 = true ∧ s.chip.dmaPick = some k ∧ (s.chip.chan k).desc = some d ∧ s.chip.fld F.dmacCfg_REQSRC k ≠ 1 ∧
    (s.chip.chan k).next = q ∧ d.reads (s.chip.fld F.dmacPos_POS k) (s.chip.dmaSize k) = rs ∧ s.chip.updChan k (fun x =>
    { x with bursts := x.bursts ++ [{ seq := q, off := s.chip.fld F.dmacPos_POS k, n := s.chip.dmaSize k, rd := rs.length, left := s.chip.dmaSize k }], next := q + 1 })
    = t :=
  ⟨st dmaBase, 5, 0, dmaDesc, dmaDesc.reads 0 (dmaBase.dmaSize 5), dmaBase.updChan 5 (fun x => { x with bursts := x.bursts ++ [{ seq := 0, off := 0, n := dmaBase.dmaSize 5, rd := (dmaDesc.reads 0 (dmaBase.dmaSize 5)).length, left := dmaBase.dmaSize 5 }], next := 0 + 1 }), by decide, by decide, by decide, by decide, by decide, by decide, by decide, rfl⟩

theorem meets_DmaTransfers_5 : ∃ (s : State) (i : Fin 1024) (p : Nat × Nat) (rest : List (Nat × Nat)) (t : Chip) (v : Nat),
    Live s ∧ s.chip.domOn 45 = true ∧ (s.chip.chan i.1).ptrs = p :: rest ∧ s.chip.fld F.dmacCfg_REQSRC i.1 = 0x200 + v ∧
    (s.chip.chan i.1).clean p.1 = true ∧ s.chip.updChan i.1 (fun x => { x with ptrs := rest }) = t ∧ t.domOn 42 = true :=
  ⟨st { base.setFld F.dmacCfg_REQSRC 5 0 0x203 with dma := [(5, { ptrs := [(64, 64)] })] }, 5, (64, 64), [], ({ base.setFld F.dmacCfg_REQSRC 5 0 0x203 with dma := [(5, { ptrs := [(64, 64)] })] } : Chip).updChan 5 (fun x => { x with ptrs := [] }), 3, by decide, by decide, by decide, by decide, by decide, rfl, by decide⟩

theorem meets_DmaTransfers_6 : ∃ (s : State) (i : Fin 1024) (p : Nat × Nat) (rest : List (Nat × Nat)), Live s ∧ s.chip.domOn
    45 = true ∧ (s.chip.chan i.1).ptrs = p :: rest ∧ (s.chip.chan i.1).clean p.1 = false :=
  ⟨st { base with dma := [(5, { ptrs := [(64, 64)], fail := some (16, 1) })] }, 5, (64, 64), [], by decide⟩

theorem meets_DmaTransfers_7 : ∃ (s : State) (i : Fin 1024) (d : Desc) (t : Chip), Live s ∧ s.chip.domOn 45 = true ∧
    (s.chip.chan i.1).desc = some d ∧ s.chip.dmaDue i.1 d = true ∧ s.chip.dmaPutWaits d.addr = false ∧ s.chip.dmaState i.1 ≠
    6 ∧ s.chip.dmaStatus i.1 d = (0, d.len) ∧ (s.chip.chan i.1).poison = false ∧ d.fsig = false ∧ d.irq = false ∧ d.last =
    true ∧ (s.chip.dmaPut (d.addr + 0x1C) d.len).dmaPut d.addr (d.ctrl % 2 ^ 31) = t :=
  ⟨st dmaEnd, 5, dmaDesc, (dmaEnd.dmaPut (0x08000000 + 0x1C) 64).dmaPut 0x08000000 (0x88000000 % 2 ^ 31), by decide, by decide, by decide, by decide, by decide, by decide, by decide, by decide, by decide, by decide, by decide, rfl⟩

theorem meets_DmaTransfers_8 : ∃ (s : State) (i : Fin 1024) (d : Desc), Live s ∧ s.chip.domOn 45 = true ∧ (s.chip.chan
    i.1).desc = some d ∧ s.chip.dmaDue i.1 d = false :=
  ⟨st dmaBase, 5, dmaDesc, by decide⟩

theorem meets_AnvilArithmetic_5 : ∃ (a : BitVec 36) (b : BitVec 36), b.toNat % 64 < 36 :=
  ⟨1, 5, by decide⟩

theorem meets_AnvilArithmetic_6 : ∃ (a : BitVec 36) (b : BitVec 36), 36 ≤ b.toNat % 64 :=
  ⟨1, 40, by decide⟩

theorem meets_CoreControl_1 : ∃ (s : State) (m : Master) (k : Fin 8), Live s ∧ Served s.chip m .coreCtrl k.1 0 true ∧
    s.chip.coreState k.1 ≤ 1 ∧ s.chip.domOn (s.chip.physOf 0 k.1) = true :=
  ⟨st base, .own 9, 3, by decide⟩

theorem meets_CoreControl_2 : ∃ (s : State) (m : Master) (k : Fin 8), Live s ∧ Served s.chip m .coreCtrl k.1 0 true ∧ 2 ≤
    s.chip.coreState k.1 :=
  ⟨st (base.setFld F.coreStat_STATE 3 0 2), .own 9, 3, by decide⟩

theorem meets_CoreControl_3 : ∃ (s : State) (m : Master) (k : Fin 8), Live s ∧ Served s.chip m .coreCtrl k.1 0 true ∧
    s.chip.coreState k.1 = 2 ∧ (s.chip.core k.1).blocked = none :=
  ⟨st (base.setFld F.coreStat_STATE 3 0 2), .own 9, 3, by decide⟩

theorem meets_CoreControl_4 : ∃ (s : State) (m : Master) (k : Fin 8) (n : Nat), Live s ∧ Served s.chip m .coreCtrl k.1 0
    true ∧ s.chip.coreState k.1 = 2 ∧ (s.chip.core k.1).blocked = some n :=
  ⟨st { base.setFld F.coreStat_STATE 3 0 2 with cores := [(3, { blocked := some 5 })] }, .own 9, 3, 5, by decide⟩

theorem meets_CoreControl_5 : ∃ (s : State) (m : Master) (k : Fin 8), Live s ∧ Served s.chip m .coreCtrl k.1 0 true ∧
    s.chip.coreState k.1 = 3 :=
  ⟨st (base.setFld F.coreStat_STATE 3 0 3), .own 9, 3, by decide⟩

theorem meets_CoreControl_6 : ∃ (s : State) (m : Master) (k : Fin 8), Live s ∧ Served s.chip m .coreCtrl k.1 0 true ∧
    s.chip.coreState k.1 = 1 :=
  ⟨st (base.setFld F.coreStat_STATE 3 0 1), .own 9, 3, by decide⟩

theorem meets_CoreControl_7 : ∃ (s : State) (m : Master) (k : Fin 8), Live s ∧ Served s.chip m .coreCtrl k.1 0 true ∧
    s.chip.coreState k.1 ≠ 1 :=
  ⟨st base, .own 9, 3, by decide⟩

theorem meets_CoreControl_8 : ∃ (s : State) (m : Master) (k : Fin 8), Live s ∧ Served s.chip m .coreCtrl k.1 0 true ∧
    s.chip.coreState k.1 ≠ 4 :=
  ⟨st (base.setFld F.coreStat_STATE 3 0 2), .own 9, 3, by decide⟩

set_option maxRecDepth 100000 in
theorem meets_CoreControl_9 : ∃ (s : State) (k : Fin 8), Live s ∧ s.chip.domOn (s.chip.physOf 0 k.1) = true ∧
    s.chip.coreState k.1 = 3 ∧ s.chip.reqLine k.1 = true :=
  ⟨st reqBase, 0, by decide⟩

set_option maxRecDepth 100000 in
theorem meets_CoreControl_10 : ∃ (s : State) (k : Fin 8), Live s ∧ s.chip.domOn (s.chip.physOf 0 k.1) = true ∧
    s.chip.coreState k.1 = 3 ∧ s.chip.reqLine k.1 = false :=
  ⟨st (base.setFld F.coreStat_STATE 3 0 3), 3, by decide⟩

set_option maxRecDepth 100000 in
theorem meets_CoreControl_11 : ∃ (s : State) (k : Fin 8) (t : Chip), Live s ∧ s.chip.domOn (s.chip.physOf 0 k.1) = true ∧
    s.chip.irqDue k.1 = true ∧ (s.chip.setPort k.1 0x183 (s.chip.fld F.coreStat_PC k.1)).setPort k.1 0x182 0 = t :=
  ⟨st irqBase, 0, (irqBase.setPort 0 0x183 (irqBase.fld F.coreStat_PC 0)).setPort 0 0x182 0, by decide, by decide, by decide, rfl⟩

theorem meets_CoreControl_12 : ∃ (s : State) (k : Fin 8), Live s ∧ s.chip.domOn (s.chip.physOf 0 k.1) = true ∧ s.chip.irqDue
    k.1 = false :=
  ⟨st base, 3, by decide⟩

theorem meets_CoreControl_13 : ∃ (s : State) (k : Fin 8), Live s ∧ s.chip.domOn (s.chip.physOf 0 k.1) = true ∧ (s.chip.core
    k.1).sync = true ∧ (∀ o ∈ (s.chip.core k.1).fab, o.write = false) :=
  ⟨st { base with cores := [(3, { sync := true })] }, 3, by decide⟩

theorem meets_CoreControl_14 : ∃ (s : State) (k : Fin 8), Live s ∧ s.chip.domOn (s.chip.physOf 0 k.1) = true ∧ ((s.chip.core
    k.1).fab.any fun o => o.write) = true :=
  ⟨st { base with cores := [(3, { sync := true, fab := [⟨0, true, false, 0, 0, 0⟩] })] }, 3, by decide⟩

set_option maxRecDepth 100000 in
theorem meets_CoreIssue_1 : ∃ (s : State) (k : Fin 8), Live s ∧ s.chip.domOn (s.chip.physOf 0 k.1) = true ∧ s.chip.mayIssue
    k.1 = true ∧ s.chip.irqDue k.1 = false ∧ s.chip.on F.coreBrk_EN k.1 = true ∧ s.chip.fld F.coreBrk_ADDR k.1 = s.chip.fld
    F.coreStat_PC k.1 ∧ (s.chip.core k.1).brkHeld = false ∧ (s.chip.core k.1).stepping = false ∧ (s.chip.core k.1).blocked =
    none :=
  ⟨st ((base.setFld F.coreStat_STATE 3 0 2).setFld F.coreBrk_EN 3 0 1), 3, by decide⟩

set_option maxRecDepth 100000 in
theorem meets_CoreIssue_2 : ∃ (s : State) (k : Fin 8) (w : Nat) (pc : Nat) (t : Chip), Live s ∧ s.chip.domOn (s.chip.physOf
    0 k.1) = true ∧ s.chip.mayIssue k.1 = true ∧ s.chip.irqDue k.1 = false ∧ s.chip.on F.coreBrk_EN k.1 = false ∧ s.chip.fld
    F.coreStat_PC k.1 = pc ∧ s.chip.checkUnit (imemAddr k.1 pc) = (false, t) ∧ s.chip.imemWord k.1 pc = w ∧ s.chip.unitWaits
    k.1 w = false ∧ s.chip.fifoWaits k.1 w = false :=
  ⟨st { base.setFld F.coreStat_STATE 3 0 2 with cores := [(3, { imem := [(0, 0x1B4800001)] })] }, 3, 0x1B4800001, 0, { base.setFld F.coreStat_STATE 3 0 2 with cores := [(3, { imem := [(0, 0x1B4800001)] })] }, by decide, by decide, by decide, by decide, by decide, by decide, rfl, by decide, by decide, by decide⟩

set_option maxRecDepth 100000 in
theorem meets_CoreIssue_3 : ∃ (s : State) (k : Fin 8) (pc : Nat), Live s ∧ s.chip.domOn (s.chip.physOf 0 k.1) = true ∧
    s.chip.mayIssue k.1 = true ∧ s.chip.irqDue k.1 = false ∧ s.chip.on F.coreBrk_EN k.1 = false ∧ s.chip.fld F.coreStat_PC
    k.1 = pc ∧ Store.get? (imemAddr k.1 pc) s.chip.marks = none ∧ s.chip.imemWord k.1 pc = 0 :=
  ⟨st (base.setFld F.coreStat_STATE 3 0 2), 3, 0, by decide⟩

set_option maxRecDepth 100000 in
theorem meets_CoreIssue_4 : ∃ (s : State) (k : Fin 8) (w : Nat) (pc : Nat) (t : Chip), Live s ∧ s.chip.domOn (s.chip.physOf
    0 k.1) = true ∧ s.chip.mayIssue k.1 = true ∧ s.chip.irqDue k.1 = false ∧ s.chip.on F.coreBrk_EN k.1 = false ∧ s.chip.fld
    F.coreStat_PC k.1 = pc ∧ s.chip.checkUnit (imemAddr k.1 pc) = (false, t) ∧ s.chip.imemWord k.1 pc = w ∧
    (s.chip.unitWaits k.1 w || s.chip.fifoWaits k.1 w) = true :=
  ⟨st popBase, 3, 0x1B43E0000, 0, popBase, by decide, by decide, by decide, by decide, by decide, by decide, rfl, by decide, by decide⟩

set_option maxRecDepth 100000 in
theorem meets_CoreIssue_5 : ∃ (s : State) (k : Fin 8) (pc : Nat) (t : Chip), Live s ∧ s.chip.domOn (s.chip.physOf 0 k.1) =
    true ∧ s.chip.mayIssue k.1 = true ∧ s.chip.irqDue k.1 = false ∧ s.chip.on F.coreBrk_EN k.1 = false ∧ s.chip.fld
    F.coreStat_PC k.1 = pc ∧ s.chip.checkUnit (imemAddr k.1 pc) = (true, t) :=
  ⟨st { base.setFld F.coreStat_STATE 3 0 2 with marks := [(0x18E00000, .poison)] }, 3, 0, { base.setFld F.coreStat_STATE 3 0 2 with marks := [(0x18E00000, .poison)] }, by decide, by decide, by decide, by decide, by decide, by decide, rfl⟩

set_option maxRecDepth 100000 in
theorem meets_CoreIssue_6 : ∃ (s : State) (k : Fin 8) (w : Nat) (pc : Nat) (t0 : Nat), Live s ∧ s.chip.domOn (s.chip.physOf
    0 k.1) = true ∧ s.chip.fld F.coreStat_PC k.1 = pc ∧ s.chip.imemWord k.1 pc = w ∧ (s.chip.core k.1).blocked = some t0 ∧
    s.chip.mayIssue k.1 = true ∧ s.chip.unitWaits k.1 w = false ∧ s.chip.fifoWaits k.1 w = true ∧ s.chip.fifoStuck w = true
    ∧ 4096 ≤ sub64 s.chip.now t0 :=
  ⟨st { popBase with cores := [(3, { imem := [(0, 0x1B43E0000)], blocked := some 0 })], tb := 0x1000000000 }, 3, 0x1B43E0000, 0, 0, by decide⟩

theorem meets_CoreIssue_7 : ∃ (s : State) (k : Fin 8) (r : Resp) (rest : List Resp) (k' : Nat) (n : Nat), Live s ∧
    s.chip.domOn (s.chip.physOf 0 k.1) = true ∧ takeResp (fun r => r.mst == .own k.1 && r.coreRead) s.chip.resps = some (r,
    rest) ∧ r.owner = .core k' n :=
  ⟨st { base with resps := [⟨.own 3, .core 3 0, .okay, false, 0, 4, 7⟩] }, 3, ⟨.own 3, .core 3 0, .okay, false, 0, 4, 7⟩, [], 3, 0, by decide⟩

set_option maxRecDepth 100000 in
theorem meets_DebugWindows_1 : ∃ (s : State) (m : Master) (k : Fin 8) (o : BitVec 22) (la : Nat) (d : Nat) (p : Bool) (t :
    Chip), Live s ∧ windowAddr k.1 o.toNat = la ∧ Free s.chip (given m false (s.chip.localAddr la) 4 0 false) ∧ s.chip.domOn
    41 = true ∧ s.chip.heldByRepair la 4 = false ∧ s.chip.winRefuses la 4 false = none ∧ s.chip.winRead la = (d, p, t) :=
  ⟨st { base with cores := [(3, { dmem := [(2, 0x123456789)] })] }, .own 9, 3, 16, 0x18C00010, 0x23456789, false, { base with cores := [(3, { dmem := [(2, 0x123456789)], latch := some (16, 0x123456789, false) })] }, by decide, by decide, by decide, by decide, by decide, by decide, rfl⟩

set_option maxRecDepth 100000 in
theorem meets_DebugWindows_2 : ∃ (s : State) (m : Master) (k : Fin 8) (o : BitVec 22) (v : BitVec 32) (la : Nat), Live s ∧
    windowAddr k.1 o.toNat = la ∧ Free s.chip (given m true (s.chip.localAddr la) 4 v.toNat false) ∧ s.chip.domOn 41 = true
    ∧ s.chip.heldByRepair la 4 = false ∧ s.chip.winRefuses la 4 true = none :=
  ⟨st base, .own 9, 3, 16, 1, 0x18C00010, by decide⟩

set_option maxRecDepth 100000 in
theorem meets_DebugWindows_3 : ∃ (s : State) (m : Master) (k : Fin 8) (o : BitVec 22) (v : BitVec 32) (la : Nat), Live s ∧
    windowAddr k.1 o.toNat = la ∧ Free s.chip (given m true (s.chip.localAddr la) 4 v.toNat false) ∧ s.chip.domOn 41 = true
    ∧ s.chip.domOn (s.chip.physOf 0 k.1) = true ∧ s.chip.heldByRepair la 4 = false ∧ o.toNat % 32 = 0 ∧ 0x200000 ≤ o.toNat ∧
    o.toNat < 0x280000 ∧ 2 ≤ s.chip.coreState k.1 :=
  ⟨st (base.setFld F.coreStat_STATE 3 0 2), .own 9, 3, 0x200000, 1, 0x18E00000, by decide⟩

set_option maxRecDepth 100000 in
theorem meets_LinkPackets_1 : ∃ (s : State) (l : Fin 4) (p : Packet) (good : Bool), Live s ∧ s.chip.domOn (60 + l.1) = true
    ∧ s.chip.fld F.lnklStat_STATE l.1 = 2 ∧ good = true ∧ p.crc = p.crcOf ∧ p.typ < 8 ∧ p.seq = (s.chip.link l.1).expect ∧
    p.seq < 4096 :=
  ⟨st (base.setFld F.lnklStat_STATE 1 0 2), 1, { (default : Packet) with typ := 3, crc := ({ (default : Packet) with typ := 3 } : Packet).crcOf }, true, by decide, by decide, by decide, rfl, by decide, by decide, by decide, by decide⟩

theorem meets_LinkPackets_2 : ∃ (s : State) (l : Fin 4) (p : Packet) (good : Bool), Live s ∧ s.chip.domOn (60 + l.1) = true
    ∧ s.chip.fld F.lnklStat_STATE l.1 = 2 ∧ good = false ∨ p.crc ≠ p.crcOf ∨ 8 ≤ p.typ :=
  ⟨st (base.setFld F.lnklStat_STATE 1 0 2), 1, default, false, by decide⟩

theorem meets_LinkPackets_3 : ∃ (x : Link), x.nakSent = false :=
  ⟨{}, by decide⟩

theorem meets_LinkPackets_4 : ∃ (x : Link), x.nakSent = true :=
  ⟨{ nakSent := true }, by decide⟩

theorem meets_LinkPackets_5 : ∃ (s : State) (l : Fin 4) (p : Packet) (good : Bool), Live s ∧ s.chip.domOn (60 + l.1) = true
    ∧ s.chip.fld F.lnklStat_STATE l.1 = 2 ∧ (s.chip.link l.1).expect < p.seq ∧ p.seq < (s.chip.link l.1).expect + 2048 ∧
    p.seq < 4096 :=
  ⟨st ((base.setFld F.lnklStat_STATE 0 0 2)), 0, { (default : Packet) with seq := 7 }, true, by decide⟩

set_option maxRecDepth 100000 in
theorem meets_LinkPackets_6 : ∃ (s : State) (l : Fin 4) (p : Packet) (good : Bool), Live s ∧ s.chip.domOn (60 + l.1) = true
    ∧ s.chip.fld F.lnklStat_STATE l.1 = 2 ∧ good = true ∧ p.crc = p.crcOf ∧ p.typ < 8 ∧ p.seq < (s.chip.link l.1).expect ∧
    (s.chip.link l.1).expect ≤ p.seq + 2048 ∧ p.seq < 4096 :=
  ⟨st { base.setFld F.lnklStat_STATE 1 0 2 with links := [(1, { expect := 5 })] }, 1, { (default : Packet) with typ := 3, crc := ({ (default : Packet) with typ := 3 } : Packet).crcOf }, true, by decide, by decide, by decide, rfl, by decide, by decide, by decide, by decide, by decide⟩

theorem meets_LinkPackets_7 : ∃ (s : State) (l : Fin 4) (n : BitVec 12), Live s ∧ s.chip.domOn (60 + l.1) = true ∧
    ((s.chip.link l.1).replay.any fun p => p.seq == n.toNat) = true :=
  ⟨st { base with links := [(1, { replay := [default] })] }, 1, 0, by decide⟩

theorem meets_LinkPackets_8 : ∃ (s : State) (l : Fin 4) (n : BitVec 12), Live s ∧ s.chip.domOn (60 + l.1) = true ∧
    ((s.chip.link l.1).replay.any fun p => p.seq == n.toNat) = false :=
  ⟨st base, 1, 0, by decide⟩

theorem meets_LinkPackets_9 : ∃ (s : State) (l : Fin 4), Live s ∧ s.chip.domOn (60 + l.1) = true ∧ (s.chip.link l.1).replay
    ≠ [] ∧ s.chip.fld F.lnklStat_STATE l.1 = 2 ∧ (s.chip.link l.1).resends < s.chip.fld F.lnklCtrl_RETRYMAX l.1 :=
  ⟨st { base.setFld F.lnklStat_STATE 1 0 2 with links := [(1, { replay := [default] })] }, 1, by decide⟩

theorem meets_LinkPackets_10 : ∃ (s : State) (l : Fin 4), Live s ∧ s.chip.domOn (60 + l.1) = true ∧ (s.chip.link l.1).replay
    ≠ [] ∧ s.chip.fld F.lnklStat_STATE l.1 = 2 ∧ s.chip.fld F.lnklCtrl_RETRYMAX l.1 ≤ (s.chip.link l.1).resends :=
  ⟨st { base.setFld F.lnklStat_STATE 1 0 2 with links := [(1, { replay := [default], resends := 200 })] }, 1, by decide⟩

theorem meets_LinkPackets_11 : ∃ (s : State) (l : Fin 4), Live s ∧ s.chip.domOn (60 + l.1) = true ∧ 10000 ≤ sub64 s.chip.now
    (s.chip.link l.1).since ∧ (s.chip.link l.1).replay ≠ [] ∧ s.chip.fld F.lnklStat_STATE l.1 = 2 ∧ (s.chip.link
    l.1).resends < s.chip.fld F.lnklCtrl_RETRYMAX l.1 :=
  ⟨st { base.setFld F.lnklStat_STATE 1 0 2 with links := [(1, { replay := [default] })], tb := 20000 }, 1, by decide⟩

theorem meets_LinkPackets_12 : ∃ (s : State) (l : Fin 4), Live s ∧ s.chip.domOn (60 + l.1) = true ∧ sub64 s.chip.now
    (s.chip.link l.1).since < 10000 :=
  ⟨st base, 1, by decide⟩

theorem meets_LinkPackets_13 : ∃ (s : State) (l : Fin 4), Live s ∧ s.chip.domOn (60 + l.1) = true :=
  ⟨st base, 1, by decide⟩

theorem meets_LinkUpkeep_1 : ∃ (s : State) (l : Fin 4) (good : Bool) (peer : BitVec 10), Live s ∧ s.chip.domOn (60 + l.1) =
    true ∧ s.chip.fld F.lnklStat_STATE l.1 = 1 ∨ s.chip.fld F.lnklStat_STATE l.1 = 3 ∧ good = false ∧ (s.chip.link
    l.1).fails + 1 < 3 :=
  ⟨st (base.setFld F.lnklStat_STATE 1 0 1), 1, false, 0, by decide⟩

theorem meets_LinkUpkeep_2 : ∃ (s : State) (l : Fin 4) (good : Bool) (peer : BitVec 10), Live s ∧ s.chip.domOn (60 + l.1) =
    true ∧ s.chip.fld F.lnklStat_STATE l.1 = 1 ∨ s.chip.fld F.lnklStat_STATE l.1 = 3 ∧ good = false ∧ 3 ≤ (s.chip.link
    l.1).fails + 1 :=
  ⟨st { base.setFld F.lnklStat_STATE 1 0 1 with links := [(1, { fails := 2 })] }, 1, false, 0, by decide⟩

theorem meets_LinkUpkeep_3 : ∃ (s : State) (l : Fin 4) (good : Bool) (peer : BitVec 10), Live s ∧ s.chip.domOn (60 + l.1) =
    true ∧ s.chip.fld F.lnklStat_STATE l.1 = 3 ∧ good = true :=
  ⟨st (base.setFld F.lnklStat_STATE 1 0 3), 1, true, 0, by decide⟩

theorem meets_LinkUpkeep_4 : ∃ (s : State) (l : Fin 4) (good : Bool) (peer : BitVec 10) (t : Chip), Live s ∧ s.chip.domOn
    (60 + l.1) = true ∧ s.chip.fld F.lnklStat_STATE l.1 = 1 ∧ good = true ∧ peer.toNat = s.chip.peerOf s.chip.chipNo l.1 ∧
    ((((s.chip.setFld F.lnklStat_WIDTH l.1 0 (s.chip.lanesUp l.1).length).setFld F.lnklStat_LANES l.1 0 ((s.chip.lanesUp
    l.1).foldl (fun m j => m + 2 ^ s.chip.laneOf l.1 j) 0)).updLink l.1 fun x =>
    { x with fails := 0, resends := 0, spent := [], since := s.chip.now }).setFld F.lnklPeer_VALID l.1 0 1).setFld
    F.lnklPeer_CHIP l.1 0 peer.toNat = t :=
  ⟨st (base.setFld F.lnklStat_STATE 1 0 1), 1, true, 0, (((((base.setFld F.lnklStat_STATE 1 0 1).setFld F.lnklStat_WIDTH 1 0 4).setFld F.lnklStat_LANES 1 0 15).updLink 1 fun x => { x with fails := 0, resends := 0, spent := [], since := 0 }).setFld F.lnklPeer_VALID 1 0 1).setFld F.lnklPeer_CHIP 1 0 0, by decide⟩

theorem meets_LinkUpkeep_5 : ∃ (s : State) (l : Fin 4) (p : Fin 5), Live s ∧ s.chip.domOn (60 + l.1) = true ∧ s.chip.fld
    F.lnklStat_STATE l.1 ≠ 2 ∨ bit (s.chip.fld F.lnklStat_LANES l.1) p.1 = false ∨ s.chip.on F.lnklCtrl_SPARE_EN l.1 = false
    :=
  ⟨st base, 1, 2, by decide⟩

theorem meets_LinkUpkeep_6 : ∃ (s : State) (l : Fin 4) (p : Fin 5) (j : Nat) (q : Nat) (js : List Nat) (qs : List Nat) (u :
    Chip) (t : Chip), Live s ∧ s.chip.domOn (60 + l.1) = true ∧ s.chip.fld F.lnklStat_STATE l.1 = 2 ∧ bit (s.chip.fld
    F.lnklStat_LANES l.1) p.1 = true ∧ s.chip.on F.lnklCtrl_SPARE_EN l.1 = true ∧ ((List.range 4).filter fun j =>
    s.chip.laneOf l.1 j == p.1) = j :: js ∧ ((List.range 5).filter fun q => !((s.chip.updLink l.1 fun x =>
    { x with bad := x.bad ++ [p.1] }).link l.1).bad.contains q && (List.range 4).all fun j => s.chip.laneOf l.1 j != q) = q
    :: qs ∧ s.chip.updLink l.1 (fun x => { x with bad := x.bad ++ [p.1] }) = u ∧
    { u with phys := NStore.set u.phys (6 * 4096 + 4 * l.1 + j) (5 * l.1 + q), unusable := u.unusable ++ [6 * 4096 + 5 * l.1 + p.1] }
    = t :=
  ⟨st laneBase, 0, 2, 2, 4, [], [], laneBase.updLink 0 (fun x => { x with bad := x.bad ++ [2] }), { laneBase.updLink 0 (fun x => { x with bad := x.bad ++ [2] }) with phys := NStore.set laneBase.phys (6 * 4096 + 2) 4, unusable := laneBase.unusable ++ [6 * 4096 + 2] }, by decide, by decide, by decide, by decide, by decide, by decide, by decide, rfl, rfl⟩

theorem meets_LinkUpkeep_7 : ∃ (s : State) (chip : BitVec 10) (l : Fin 4), Live s ∧ s.chip.inCanvas chip.toNat = false ∨
    s.chip.net.downs.contains (s.chip.edgeOf chip.toNat l.1) = true :=
  ⟨st base, 3, 1, by decide⟩

theorem meets_LinkUpkeep_8 : ∃ (s : State) (chip : BitVec 10) (l : Fin 4) (t : Chip), Live s ∧ s.chip.inCanvas chip.toNat =
    true ∧ s.chip.net.downs.contains (s.chip.edgeOf chip.toNat l.1) = false ∧ s.chip.updNet (fun n =>
    { n with downs := n.downs ++ [s.chip.edgeOf chip.toNat l.1] }) = t ∧ (List.range (s.chip.lnkW * s.chip.lnkH)).all (fun d
    => s.chip.pathOf d == t.pathOf d) = true :=
  ⟨st ringBase, 1, 2, ringBase.updNet (fun n => { n with downs := n.downs ++ [3] }), by decide, by decide, by decide, rfl, by decide⟩

theorem meets_LinkUpkeep_9 : ∃ (s : State) (chip : BitVec 10) (l : Fin 4) (t : Chip) (u : Chip) (d : Nat) (ds : List Nat),
    Live s ∧ s.chip.inCanvas chip.toNat = true ∧ s.chip.net.downs.contains (s.chip.edgeOf chip.toNat l.1) = false ∧
    s.chip.updNet (fun n => { n with downs := n.downs ++ [s.chip.edgeOf chip.toNat l.1] }) = t ∧ ((List.range (s.chip.lnkW *
    s.chip.lnkH)).filter fun d => s.chip.pathOf d != t.pathOf d) = d :: ds ∧ ((t.updNet fun n =>
    { n with moved := (n.moved ++ (d :: ds).filter fun d => n.reqs.any fun r => r.dst == d).eraseDups }).netStick
    F.lnkStat_REROUTE).setParent = u ∧ u.fld F.lnkParent_CHIP = s.chip.fld F.lnkParent_CHIP ∧ u.fld F.lnkParent_LINK =
    s.chip.fld F.lnkParent_LINK ∧ u.fld F.lnkParent_VALID = s.chip.fld F.lnkParent_VALID :=
  ⟨st ringBase, 1, 0, ringBase.updNet (fun n => { n with downs := n.downs ++ [2] }), (((ringBase.updNet (fun n => { n with downs := n.downs ++ [2] })).updNet fun n => { n with moved := [] }).netStick F.lnkStat_REROUTE).setParent, 2, [], by decide, by decide, by decide, rfl, by decide, rfl, by decide, by decide, by decide⟩

theorem meets_LinkUpkeep_10 : ∃ (s : State) (tag : BitVec 16) (r : Req), Live s ∧ (s.chip.net.reqs.find? fun r => r.tag ==
    tag.toNat) = some r ∧ 1000000 ≤ sub64 s.chip.now r.at_ :=
  ⟨st { base with net := { base.net with reqs := [default] }, tb := 2000000 }, 0, default, by decide⟩

theorem meets_LinkUpkeep_11 : ∃ (s : State) (tag : BitVec 16), Live s ∧ (s.chip.net.reqs.find? fun r => r.tag == tag.toNat)
    = none :=
  ⟨st base, 0, by decide⟩

theorem meets_LinkUpkeep_12 : ∃ (s : State) (m : Master) (a : BitVec 30) (n : Fin 5) (v : BitVec 128), Live s ∧ Free s.chip
    (given m true (s.chip.fld F.lnkBcast_BCCHIP * 2 ^ 30 + a.toNat) (2 ^ n.1) v.toNat false) ∧ s.chip.on F.lnkBcast_BCEN =
    true ∧ s.chip.fld F.lnkBcast_BCCHIP ≠ s.chip.chipNo ∧ (s.chip.inCanvas s.chip.chipNo && s.chip.net.filled) = false ∧
    s.chip.on F.lnkBcast_BCSELF = false :=
  ⟨st ((base.setFld F.lnkBcast_BCEN 0 0 1).setFld F.lnkBcast_BCCHIP 0 0 1023), .own 0, 16, 2, 5, by decide⟩

theorem meets_LinkUpkeep_13 : ∃ (s : State) (m : Master) (a : BitVec 30) (n : Fin 5) (v : BitVec 128) (x : Access), Live s ∧
    Free s.chip (given m true (s.chip.fld F.lnkBcast_BCCHIP * 2 ^ 30 + a.toNat) (2 ^ n.1) v.toNat false) ∧ s.chip.on
    F.lnkBcast_BCEN = true ∧ s.chip.fld F.lnkBcast_BCCHIP ≠ s.chip.chipNo ∧ (s.chip.inCanvas s.chip.chipNo &&
    s.chip.net.filled) = false ∧ s.chip.on F.lnkBcast_BCSELF = true ∧ given m true (s.chip.fld F.lnkBcast_BCCHIP * 2 ^ 30 +
    a.toNat) (2 ^ n.1) v.toNat false = x :=
  ⟨st (((base.setFld F.lnkBcast_BCEN 0 0 1).setFld F.lnkBcast_BCSELF 0 0 1).setFld F.lnkBcast_BCCHIP 0 0 1023), .own 0, 16, 2, 5, given (.own 0) true (1023 * 2 ^ 30 + 16) 4 5 false, by decide⟩

theorem meets_LinkUpkeep_14 : ∃ (s : State) (m : Master) (a : BitVec 30) (n : Fin 5) (v : BitVec 128) (x : Access), Live s ∧
    Free s.chip (given m true (s.chip.fld F.lnkBcast_BCCHIP * 2 ^ 30 + a.toNat) (2 ^ n.1) v.toNat false) ∧ s.chip.on
    F.lnkBcast_BCEN = true ∧ s.chip.fld F.lnkBcast_BCCHIP ≠ s.chip.chipNo ∧ s.chip.inCanvas s.chip.chipNo = true ∧
    s.chip.net.filled = true ∧ 1 < s.chip.lnkW * s.chip.lnkH ∧ s.chip.on F.lnkBcast_BCSELF = false ∧ given m true
    (s.chip.fld F.lnkBcast_BCCHIP * 2 ^ 30 + a.toNat) (2 ^ n.1) v.toNat false = x :=
  ⟨st { ((((base.setFld F.lnkBcast_BCEN 0 0 1).setFld F.lnkBcast_BCCHIP 0 0 1023).setFld F.lnkCfg_ROLE 0 0 2).setFld F.lnkCfg_WM1 0 0 3) with net := { base.net with filled := true } }, .own 0, 16, 2, 5, given (.own 0) true (1023 * 2 ^ 30 + 16) 4 5 false, by decide⟩

theorem meets_LinkUpkeep_15 : ∃ (s : State) (l : Fin 4) (t1 : BitVec 64) (t2 : BitVec 64) (t3 : BitVec 64) (t4 : BitVec 64)
    (adj : Bool) (up : Bool), Live s ∧ s.chip.domOn (60 + l.1) = true ∧ s.chip.fld F.lnkCfg_ROLE = 0 ∨ s.chip.fld
    F.lnklStat_STATE l.1 ≠ 2 :=
  ⟨st base, 1, 0, 0, 0, 0, true, false, by decide⟩

theorem meets_LinkUpkeep_16 : ∃ (s : State) (l : Fin 4) (t1 : BitVec 64) (t2 : BitVec 64) (t3 : BitVec 64) (t4 : BitVec 64)
    (adj : Bool) (up : Bool), Live s ∧ s.chip.domOn (60 + l.1) = true ∧ adj = true ∧ s.chip.fld F.lnkCfg_ROLE ≠ 0 ∧
    s.chip.fld F.lnklStat_STATE l.1 = 2 :=
  ⟨st ((base.setFld F.lnklStat_STATE 1 0 2).setFld F.lnkCfg_ROLE 0 0 2), 1, 0, 0, 0, 0, true, false, by decide⟩

theorem meets_LinkUpkeep_17 : ∃ (s : State) (l : Fin 4) (t1 : BitVec 64) (t2 : BitVec 64) (t3 : BitVec 64) (t4 : BitVec 64)
    (adj : Bool) (up : Bool) (t : Chip), Live s ∧ s.chip.domOn (60 + l.1) = true ∧ adj = false ∧ s.chip.fld F.lnkCfg_ROLE ≠
    0 ∧ s.chip.fld F.lnklStat_STATE l.1 = 2 ∧ s.chip.talignSend l.1 = t ∧ t.fld F.lnkCfg_ROLE = 2 :=
  ⟨st ((base.setFld F.lnklStat_STATE 1 0 2).setFld F.lnkCfg_ROLE 0 0 2), 1, 0, 0, 0, 0, false, false, ((base.setFld F.lnklStat_STATE 1 0 2).setFld F.lnkCfg_ROLE 0 0 2).talignSend 1, by decide, by decide, by decide, by decide, by decide, rfl, by unfold Chip.fld; rw [(Chip.talignSend_same _ _).1]; decide⟩

theorem meets_LinkUpkeep_18 : ∃ (s : State) (l : Fin 4) (t1 : BitVec 64) (t2 : BitVec 64) (t3 : BitVec 64) (t4 : BitVec 64)
    (adj : Bool) (up : Bool) (t : Chip), Live s ∧ s.chip.domOn (60 + l.1) = true ∧ adj = false ∧ s.chip.fld F.lnkCfg_ROLE ≠
    0 ∧ s.chip.fld F.lnklStat_STATE l.1 = 2 ∧ s.chip.talignSend l.1 = t ∧ t.fld F.lnkCfg_ROLE = 1 ∧ t.on F.lnkParent_VALID =
    true ∧ t.fld F.lnkParent_LINK = l.1 ∧ t.net.thetas.length < 7 :=
  ⟨st ((((base.setFld F.lnklStat_STATE 1 0 2).setFld F.lnkCfg_ROLE 0 0 1).setFld F.lnkParent_VALID 0 0 1).setFld F.lnkParent_LINK 0 0 1), 1, 0, 0, 0, 0, false, false, ((((base.setFld F.lnklStat_STATE 1 0 2).setFld F.lnkCfg_ROLE 0 0 1).setFld F.lnkParent_VALID 0 0 1).setFld F.lnkParent_LINK 0 0 1).talignSend 1, by decide, by decide, by decide, by decide, by decide, rfl, by unfold Chip.fld; rw [(Chip.talignSend_same _ _).1]; decide, by unfold Chip.on Chip.fld; rw [(Chip.talignSend_same _ _).1]; decide, by unfold Chip.fld; rw [(Chip.talignSend_same _ _).1]; decide, by rw [(Chip.talignSend_same _ _).2]; decide⟩

theorem meets_LinkUpkeep_19 : ∃ (s : State) (n : Int), Live s ∧ s.chip.fld F.lnkCfg_ROLE = 1 ∧ s.chip.on F.lnkStat_FORMED =
    true ∧ s.chip.net.adjAt = none ∧ s.chip.net.sum = some n ∧ 256 < n :=
  ⟨st { (base.setFld F.lnkCfg_ROLE 0 0 1).setFld F.lnkStat_FORMED 0 0 1 with net := { base.net with thetas := List.replicate 8 100 } }, 800, by decide⟩

theorem meets_LinkUpkeep_20 : ∃ (s : State) (n : Int), Live s ∧ s.chip.fld F.lnkCfg_ROLE = 1 ∧ s.chip.on F.lnkStat_FORMED =
    true ∧ s.chip.net.adjAt = none ∧ s.chip.net.sum = some n ∧ n < -256 :=
  ⟨st { (base.setFld F.lnkCfg_ROLE 0 0 1).setFld F.lnkStat_FORMED 0 0 1 with net := { base.net with thetas := List.replicate 8 (-100) } }, -800, by decide⟩

theorem meets_LinkUpkeep_21 : ∃ (s : State) (n : Int), Live s ∧ s.chip.fld F.lnkCfg_ROLE = 1 ∧ s.chip.on F.lnkStat_FORMED =
    true ∧ s.chip.net.adjAt = none ∧ s.chip.net.sum = some n ∧ -256 ≤ n ∧ n ≤ 256 ∧ s.chip.net.ahead = false :=
  ⟨st { (base.setFld F.lnkCfg_ROLE 0 0 1).setFld F.lnkStat_FORMED 0 0 1 with net := { base.net with thetas := List.replicate 8 4 } }, 32, by decide⟩

theorem meets_LinkUpkeep_22 : ∃ (s : State), Live s ∧ s.chip.fld F.lnkCfg_ROLE ≠ 1 ∨ s.chip.on F.lnkStat_FORMED = false :=
  ⟨st base, by decide⟩

theorem meets_LinkUpkeep_23 : ∃ (s : State) (n : BitVec 64), Live s ∧ s.chip.fld F.lnkCfg_ROLE = 1 ∧ s.chip.on
    F.lnkStat_FORMED = false ∧ reached n.toNat s.chip.now = true :=
  ⟨st (base.setFld F.lnkCfg_ROLE 0 0 1), 7, by decide⟩

theorem meets_LinkUpkeep_24 : ∃ (s : State) (n : BitVec 64), Live s ∧ s.chip.fld F.lnkCfg_ROLE = 1 ∧ s.chip.on
    F.lnkStat_FORMED = false ∧ reached n.toNat s.chip.now = false :=
  ⟨st { base.setFld F.lnkCfg_ROLE 0 0 1 with tb := 9 }, 7, by decide⟩

theorem meets_LinkUpkeep_25 : ∃ (s : State) (n : BitVec 64), Live s ∧ s.chip.fld F.lnkCfg_ROLE ≠ 1 ∨ s.chip.on
    F.lnkStat_FORMED = true :=
  ⟨st base, 7, by decide⟩

theorem meets_InterruptSources_1 : ∃ (s : State) (n : Fin 512), Live s ∧ s.chip.domOn 49 = true ∧ n.1 ≠ 0 ∧ s.chip.pending
    n.1 = false :=
  ⟨st base, 65, by decide⟩

theorem meets_InterruptSources_2 : ∃ (s : State) (n : Fin 512), Live s ∧ s.chip.domOn 49 = true ∧ n.1 = 0 ∨ s.chip.pending
    n.1 = true :=
  ⟨st base, 0, by decide⟩

theorem meets_InterruptSources_3 : ∃ (s : State) (m : Master) (n : BitVec 9), Live s ∧ Served s.chip m .intcSwset 0 0 true ∧
    n ≠ 0 ∧ s.chip.pending n.toNat = false :=
  ⟨st base, .own 9, 65, by decide⟩

theorem meets_InterruptSources_4 : ∃ (s : State) (m : Master) (n : BitVec 9), Live s ∧ Served s.chip m .intcSwset 0 0 true ∧
    n = 0 ∨ s.chip.pending n.toNat = true :=
  ⟨st base, .own 9, 0, by decide⟩

set_option maxRecDepth 100000 in
theorem meets_InterruptSources_5 : ∃ (s : State) (m : Master) (k : Fin 8) (n : Nat), Live s ∧ Served s.chip m .intcClaim k.1
    0 false ∧ s.chip.nextSource k.1 = n ∧ n ≠ 0 :=
  ⟨st reqBase, .own 9, 0, 65, by decide⟩

set_option maxRecDepth 100000 in
theorem meets_InterruptSources_6 : ∃ (s : State) (m : Master) (k : Fin 8), Live s ∧ Served s.chip m .intcClaim k.1 0 false ∧
    s.chip.nextSource k.1 = 0 :=
  ⟨st base, .own 9, 0, by decide⟩

set_option maxRecDepth 100000 in
theorem meets_InterruptSources_7 : ∃ (s : State) (k : Fin 8), Live s ∧ s.chip.coreState k.1 = 4 ∧ (s.chip.core k.1).waking =
    true ∧ s.chip.fld F.psmStat_STATE ≤ 1 :=
  ⟨st { base.setFld F.coreStat_STATE 3 0 4 with cores := [(3, { waking := true })] }, 3, by decide⟩

set_option maxRecDepth 100000 in
theorem meets_InterruptSources_8 : ∃ (s : State) (k : Fin 8), Live s ∧ s.chip.coreState k.1 ≠ 4 ∧ (s.chip.core k.1).waking =
    true ∧ s.chip.fld F.psmStat_STATE ≤ 1 :=
  ⟨st { base.setFld F.coreStat_STATE 3 0 1 with cores := [(3, { waking := true })] }, 3, by decide⟩

set_option maxRecDepth 100000 in
theorem meets_InterruptSources_9 : ∃ (s : State) (k : Fin 8), Live s ∧ (s.chip.core k.1).waking = false ∨ 1 < s.chip.fld
    F.psmStat_STATE :=
  ⟨st base, 3, by decide⟩

set_option maxRecDepth 100000 in
theorem meets_Mailboxes_1 : ∃ (s : State) (id : BitVec 7) (ch : BitVec 9) (t : Chip), Live s ∧ s.chip.domOn 50 = true ∧ (if
    id.toNat < 8 then (s.chip.core id.toNat).msgs.head? else none) = none ∧ s.chip.sendCode id.toNat ch.toNat = 0 ∧
    s.chip.tolChan ch.toNat = false ∧ (s.chip.setMsgs ch.toNat (s.chip.msgs ch.toNat ++
    [({ words := s.chip.txWords id.toNat, at_ := s.chip.now } : Msg)])).doorbell (s.chip.chRx ch.toNat) = t :=
  ⟨st mbxBase, 0x11, 3, (mbxBase.setMsgs 3 (mbxBase.msgs 3 ++ [({ words := mbxBase.txWords 0x11, at_ := mbxBase.now } : Msg)])).doorbell (mbxBase.chRx 3), by decide, by decide, by decide, by decide, by decide, rfl⟩

set_option maxRecDepth 100000 in
theorem meets_Mailboxes_2 : ∃ (s : State) (id : BitVec 7) (ch : BitVec 9), Live s ∧ s.chip.domOn 50 = true ∧ (if id.toNat <
    8 then (s.chip.core id.toNat).msgs.head? else none) = none ∧ s.chip.sendCode id.toNat ch.toNat = 1 :=
  ⟨st { mbxBase with mbx := [(3, List.replicate 4 default)] }, 0x11, 3, by decide⟩

set_option maxRecDepth 100000 in
theorem meets_Mailboxes_3 : ∃ (s : State) (id : BitVec 7) (ch : BitVec 9), Live s ∧ s.chip.domOn 50 = true ∧ (if id.toNat <
    8 then (s.chip.core id.toNat).msgs.head? else none) = none ∧ s.chip.sendCode id.toNat ch.toNat = 4 :=
  ⟨st mbxBase, 0x28, 3, by decide⟩

set_option maxRecDepth 100000 in
theorem meets_Mailboxes_4 : ∃ (s : State) (id : BitVec 7) (ch : BitVec 9) (q : Msg) (rest : List Msg) (t : Chip), Live s ∧
    s.chip.domOn 50 = true ∧ (if id.toNat < 8 then (s.chip.core id.toNat).msgs.head? else none) = none ∧ s.chip.recvCode
    id.toNat ch.toNat = 0 ∧ s.chip.msgs ch.toNat = q :: rest ∧ ((s.chip.setRx id.toNat q.words).setMsgs ch.toNat
    rest).setFld F.mbxChStat_TMO ch.toNat 0 0 = t :=
  ⟨st { (mbxBase.setFld F.mbxChCfg_RXID 3 0 0x11) with mbx := [(3, [default])] }, 0x11, 3, default, [], (({ (mbxBase.setFld F.mbxChCfg_RXID 3 0 0x11) with mbx := [(3, [default])] } : Chip).setRx 0x11 []).setMsgs 3 [] |>.setFld F.mbxChStat_TMO 3 0 0, by decide, by decide, by decide, by decide, by decide, rfl⟩

set_option maxRecDepth 100000 in
theorem meets_Mailboxes_5 : ∃ (s : State) (id : BitVec 7) (ch : BitVec 9), Live s ∧ s.chip.domOn 50 = true ∧ (if id.toNat <
    8 then (s.chip.core id.toNat).msgs.head? else none) = none ∧ s.chip.recvCode id.toNat ch.toNat = 2 :=
  ⟨st (mbxBase.setFld F.mbxChCfg_RXID 3 0 0x11), 0x11, 3, by decide⟩

set_option maxRecDepth 100000 in
theorem meets_Mailboxes_6 : ∃ (s : State) (id : BitVec 7) (ch : BitVec 9), Live s ∧ s.chip.domOn 50 = true ∧ (if id.toNat <
    8 then (s.chip.core id.toNat).msgs.head? else none) = none ∧ s.chip.recvCode id.toNat ch.toNat = 4 :=
  ⟨st mbxBase, 0x28, 3, by decide⟩

set_option maxRecDepth 100000 in
theorem meets_Mailboxes_7 : ∃ (s : State) (id : BitVec 7) (ch : BitVec 9) (o : MsgOp), Live s ∧ s.chip.domOn 50 = true ∧
    id.toNat < 8 ∧ (s.chip.core id.toNat).msgs.head? = some o ∧ o.recv = false :=
  ⟨st { mbxBase with cores := [(1, { msgs := [⟨false, 3, []⟩] })] }, 1, 3, ⟨false, 3, []⟩, by decide⟩

set_option maxRecDepth 100000 in
theorem meets_Mailboxes_8 : ∃ (s : State) (id : BitVec 7) (ch : BitVec 9) (o : MsgOp), Live s ∧ s.chip.domOn 50 = true ∧
    id.toNat < 8 ∧ (s.chip.core id.toNat).msgs.head? = some o ∧ o.recv = true :=
  ⟨st { mbxBase with cores := [(1, { msgs := [⟨true, 3, []⟩] })] }, 1, 3, ⟨true, 3, []⟩, by decide⟩

set_option maxRecDepth 100000 in
theorem meets_Mailboxes_9 : ∃ (s : State) (m : Master) (ch : Fin 256) (v : BitVec 32), Live s ∧ Served s.chip m .mbxChCfg
    ch.1 0 true ∧ s.chip.msgs ch.1 = [] ∧ rxidOk (bits v.toNat 23 16) = true ∧ 128 ≤ ch.1 :=
  ⟨st base, .own 0x11, 130, 0x80030000, by decide⟩

set_option maxRecDepth 100000 in
theorem meets_Mailboxes_10 : ∃ (s : State) (m : Master) (ch : Fin 256) (v : BitVec 32), Live s ∧ Served s.chip m .mbxChCfg
    ch.1 0 true ∧ s.chip.msgs ch.1 ≠ [] ∨ rxidOk (bits v.toNat 23 16) = false :=
  ⟨st base, .own 0x11, 130, 0x80FF0000, by decide⟩

set_option maxRecDepth 100000 in
theorem meets_Mailboxes_11 : ∃ (s : State) (ch : Fin 288) (q : Msg) (rest : List Msg), Live s ∧ s.chip.msgs ch.1 = q :: rest
    ∧ s.chip.chTimeout ch.1 ≠ 0 ∧ s.chip.chTimeout ch.1 * 1000 < sub64 s.chip.now q.at_ :=
  ⟨st { (mbxBase.setFld F.mbxChCfg_TIMEOUT 3 0 1) with mbx := [(3, [default])], tb := 5000 }, 3, default, [], by decide⟩

theorem meets_Mailboxes_12 : ∃ (s : State) (ch : Fin 288), Live s ∧ s.chip.chTimeout ch.1 = 0 ∨ s.chip.msgs ch.1 = [] :=
  ⟨st base, 3, by decide⟩

theorem meets_PinLatchesAndLocks_1 : ∃ (s : State) (m : Master) (p : Fin 1024) (v : BitVec 32), Live s ∧ Served s.chip m
    .pinCfg p.1 0 true ∧ s.chip.locked p.1 = true :=
  ⟨st (base.setFld F.pinLocked_LOCKED 3 0 2), .own 9, 97, 1, by decide⟩

theorem meets_PinLatchesAndLocks_2 : ∃ (s : State) (m : Master) (p : Fin 1024) (v : BitVec 32) (t : Chip) (u : Chip) (x :
    Chip), Live s ∧ Served s.chip m .pinCfg p.1 0 true ∧ s.chip.locked p.1 = false ∧ funcOffered p.1 (bits v.toNat 3 0) =
    true ∧ [F.pinCfg_PARK, F.pinCfg_DRIVE, F.pinCfg_SLOW, F.pinCfg_OD, F.pinCfg_PULL].foldl (fun t f => t.writeFld f p.1 0
    v.toNat) s.chip = t ∧ (if p.1 < 64 then (t.writeFld F.pinCfg_WAKE p.1 0 v.toNat).writeFld F.pinCfg_WAKEPOL p.1 0 v.toNat
    else t.writeFld F.pinCfg_WAKEPOL p.1 0 v.toNat) = u ∧ (if p.1 < 256 then u.writeFld F.pinCfg_TTL p.1 0 v.toNat else u) =
    x ∧ s.chip.fld F.pinCfg_FUNC p.1 ≠ bits v.toNat 3 0 :=
  ⟨st base, .own 9, 300, 1, [F.pinCfg_PARK, F.pinCfg_DRIVE, F.pinCfg_SLOW, F.pinCfg_OD, F.pinCfg_PULL].foldl (fun t f => t.writeFld f 300 0 1) base, ([F.pinCfg_PARK, F.pinCfg_DRIVE, F.pinCfg_SLOW, F.pinCfg_OD, F.pinCfg_PULL].foldl (fun t f => t.writeFld f 300 0 1) base).writeFld F.pinCfg_WAKEPOL 300 0 1, ([F.pinCfg_PARK, F.pinCfg_DRIVE, F.pinCfg_SLOW, F.pinCfg_OD, F.pinCfg_PULL].foldl (fun t f => t.writeFld f 300 0 1) base).writeFld F.pinCfg_WAKEPOL 300 0 1, by decide⟩

theorem meets_PinLatchesAndLocks_3 : ∃ (s : Chip) (p : Nat) (old : Nat), s.on F.adcStat_BUSY = false :=
  ⟨base, 3, 0, by decide⟩

theorem meets_PinLatchesAndLocks_4 : ∃ (s : State) (m : Master) (b : Fin 32), Live s ∧ Served s.chip m .pinSet b.1 0 true :=
  ⟨st base, .own 9, 3, by decide⟩

theorem meets_PinLatchesAndLocks_5 : ∃ (s : State) (m : Master) (b : Fin 32), Live s ∧ Served s.chip m .pinClr b.1 0 true :=
  ⟨st base, .own 9, 3, by decide⟩

theorem meets_PinLatchesAndLocks_6 : ∃ (s : State) (m : Master) (b : Fin 32), Live s ∧ Served s.chip m .pinTgl b.1 0 true :=
  ⟨st base, .own 9, 3, by decide⟩

theorem meets_PinLatchesAndLocks_7 : ∃ (s : State) (m : Master) (v : BitVec 32), Live s ∧ Served s.chip m .pinLockkey 0 0
    true ∧ s.chip.lockSeq = none ∧ bits v.toNat 31 16 = 0xB1C5 :=
  ⟨st base, .own 9, 0xB1C50003, by decide⟩

theorem meets_PinLatchesAndLocks_8 : ∃ (s : State) (m : Master) (v : BitVec 32) (q : LockSeq), Live s ∧ Served s.chip m
    .pinLockkey 0 0 true ∧ s.chip.lockSeq = some q ∧ q.step = 1 ∧ q.mst.same m = true ∧ q.port = bits v.toNat 9 0 ∧ bits
    v.toNat 31 16 = 0x4E3A :=
  ⟨st { base with lockSeq := some ⟨3, .own 9, 1⟩ }, .own 9, 0x4E3A0003, ⟨3, .own 9, 1⟩, by decide⟩

theorem meets_PinLatchesAndLocks_9 : ∃ (s : State) (m : Master) (v : BitVec 32) (q : LockSeq), Live s ∧ Served s.chip m
    .pinLockkey 0 0 true ∧ s.chip.lockSeq = some q ∧ q.step = 2 ∧ q.mst.same m = true ∧ q.port = bits v.toNat 9 0 ∧ bits
    v.toNat 31 16 = 0xB1C5 ∧ s.chip.locked (bits v.toNat 9 0) = false :=
  ⟨st { base with lockSeq := some ⟨3, .own 9, 2⟩ }, .own 9, 0xB1C50003, ⟨3, .own 9, 2⟩, by decide⟩

theorem meets_PinLatchesAndLocks_10 : ∃ (s : State) (m : Master) (v : BitVec 32) (q : LockSeq), Live s ∧ Served s.chip m
    .pinLockkey 0 0 true ∧ s.chip.lockSeq = some q ∧ q.step = 1 ∧ bits v.toNat 31 16 ≠ 0x4E3A ∧ bits v.toNat 31 16 ≠ 0xB1C5
    :=
  ⟨st { base with lockSeq := some ⟨3, .own 9, 1⟩ }, .own 9, 0x11110003, ⟨3, .own 9, 1⟩, by decide⟩

theorem meets_PinLatchesAndLocks_11 : ∃ (s : State) (m : Master), Live s ∧ Served s.chip m .sysPark 0 0 true :=
  ⟨st base, .own 9, by decide⟩

theorem meets_PinLatchesAndLocks_12 : ∃ (s : State) (m : Master), Live s ∧ Served s.chip m .pinUnpark 0 0 true :=
  ⟨st base, .own 9, by decide⟩

theorem meets_PinLatchesAndLocks_13 : ∃ (s : State) (p : Fin 1024), s.chip.on F.pinStat_PARKED = true :=
  ⟨st (base.setFld F.pinStat_PARKED 0 0 1), 3, by decide⟩

theorem meets_PinLatchesAndLocks_14 : ∃ (s : State) (b : Fin 32) (v : Fin 3), s.chip.domOn (51 + b.1 / 8) = true ∧
    s.chip.fld F.pinBank_VSEL b.1 + 1 = v.1 :=
  ⟨st base, 3, 2, by decide⟩

theorem meets_PinLatchesAndLocks_15 : ∃ (s : State) (b : Fin 32) (v : Fin 3), s.chip.domOn (51 + b.1 / 8) = true ∧
    s.chip.fld F.pinBank_VSEL b.1 + 1 ≠ v.1 :=
  ⟨st base, 3, 1, by decide⟩

set_option maxRecDepth 100000 in
theorem meets_PinLatchesAndLocks_16 : ∃ (s : State) (p : Fin 1024) (rising : Bool), Live s ∧ s.chip.on F.pinCfg_WAKE p.1 =
    true ∧ s.chip.on F.pinCfg_WAKEPOL p.1 = rising ∧ s.chip.heldEdge p.1 rising = true ∧ s.chip.fld F.psmStat_STATE = 2 :=
  ⟨st { ((base.setFld F.pinCfg_WAKE 3 0 1).setFld F.pinCfg_WAKEPOL 3 0 1).setFld F.psmStat_STATE 0 0 2 with samples := List.replicate 100 (0, [8]) ++ [(0, [0])] }, 3, true, by decide⟩

theorem meets_PinLatchesAndLocks_17 : ∃ (s : State) (p : Fin 1024) (rising : Bool), Live s ∧ s.chip.on F.pinCfg_WAKE p.1 =
    false :=
  ⟨st base, 3, true, by decide⟩

set_option maxRecDepth 100000 in
theorem meets_PinLatchesAndLocks_20 : ∃ (s : State) (k : Fin 16) (p : Fin 1024) (e : Nat × Bool), s.chip.fld F.pinEv_PORT
    k.1 = p.1 ∧ s.chip.on F.pinEv_EN k.1 = true ∧ s.chip.domOn (51 + p.1 / 32 / 8) = true ∧ Store.get? k.1 s.chip.evkAt ≠
    some s.chip.now ∧ s.chip.edgeAt p.1 (s.chip.fld F.pinEv_FILT k.1) = some e ∧ edgeIs (s.chip.fld F.pinEv_EDGE k.1) e.2 =
    true :=
  ⟨st { (((base.setFld F.pinEv_EN 2 0 1).setFld F.pinEv_PORT 2 0 3).setFld F.pinEv_EDGE 2 0 1) with samples := [(9, [8]), (8, [8]), (7, [0])], tb := 10 }, 2, 3, (8, true), by decide⟩

theorem meets_PinLatchesAndLocks_21 : ∃ (s : State) (p : Fin 1024) (v : Option Bool) (k : Fin 16), s.chip.on F.pinEv_EN k.1
    = false ∨ s.chip.fld F.pinEv_PORT k.1 ≠ p.1 ∨ s.chip.edgeAt p.1 (s.chip.fld F.pinEv_FILT k.1) = none :=
  ⟨st base, 7, some true, 2, by decide⟩

theorem meets_SerialPeripherals_1 : ∃ (s : State) (m : Master) (x : Fin 32) (v : BitVec 32), Live s ∧ Served s.chip m
    (serialDataReg x.1).1 (serialDataReg x.1).2 0 true ∧ (s.chip.serial x.1).tx.length < 8 :=
  ⟨st base, .own 0, 18, 5, by decide⟩

theorem meets_SerialPeripherals_2 : ∃ (s : State) (m : Master) (x : Fin 32) (v : BitVec 32), Live s ∧ Served s.chip m
    (serialDataReg x.1).1 (serialDataReg x.1).2 0 true ∧ 8 ≤ (s.chip.serial x.1).tx.length :=
  ⟨st { base with serials := [(18, { tx := List.replicate 8 0 })] }, .own 0, 18, 5, by decide⟩

theorem meets_SerialPeripherals_3 : ∃ (s : State) (m : Master) (x : Fin 32), Live s ∧ Served s.chip m (serialDataReg x.1).1
    (serialDataReg x.1).2 0 false :=
  ⟨st base, .own 0, 18, by decide⟩

theorem meets_SerialPeripherals_4 : ∃ (s : State) (u : Fin 16) (w : Nat) (rest : List Nat) (l : List WireSym), Live s ∧
    s.chip.domOn 59 = true ∧ s.chip.on F.uartCfg_EN u.1 = true ∧ (s.chip.serial u.1).tx = w :: rest ∧ s.chip.frameOn u.1 =
    false ∧ s.chip.on F.uartCfg_RTSCTS u.1 = false ∧ s.chip.uartBits u.1 w = l :=
  ⟨st { base.setFld F.uartCfg_EN 3 0 1 with serials := [(3, { tx := [65] })] }, 3, 65, [], (base.setFld F.uartCfg_EN 3 0 1).uartBits 3 65, by decide⟩

theorem meets_SerialPeripherals_5 : ∃ (s : Chip) (u : Nat) (c : Nat), s.on F.uartCfg_D7 u = false ∧ s.fld F.uartCfg_PARITY u
    = 0 ∧ s.on F.uartCfg_STOP2 u = false :=
  ⟨base, 3, 65, by decide⟩

theorem meets_SerialPeripherals_6 : ∃ (s : State) (u : Fin 16) (t : Chip), Live s ∧ s.chip.domOn 59 = true ∧ s.chip.on
    F.uartCfg_EN u.1 = true ∧ (s.chip.serial u.1).tx ≠ [] ∧ s.chip.frameOn u.1 = false ∧ s.chip.on F.uartCfg_RTSCTS u.1 =
    true ∧ s.chip.pinLevel (768 + 4 * u.1 + 3) = (true, t) :=
  ⟨st { (base.setFld F.uartCfg_EN 3 0 1).setFld F.uartCfg_RTSCTS 3 0 1 with serials := [(3, { tx := [65] })], pads := [(783, true)] }, 3, { (base.setFld F.uartCfg_EN 3 0 1).setFld F.uartCfg_RTSCTS 3 0 1 with serials := [(3, { tx := [65] })], pads := [(783, true)] }, by decide, by decide, by decide, by decide, by decide, by decide, rfl⟩

theorem meets_SerialPeripherals_7 : ∃ (s : State) (u : Fin 16) (b : BitVec 8), Live s ∧ s.chip.domOn 59 = true ∧ s.chip.on
    F.uartCfg_EN u.1 = true ∧ s.chip.on F.uartCfg_D7 u.1 = false ∧ (s.chip.serial u.1).rx.length < 8 :=
  ⟨st (base.setFld F.uartCfg_EN 3 0 1), 3, 65, by decide⟩

theorem meets_SerialPeripherals_8 : ∃ (s : State) (u : Fin 16) (b : BitVec 8), Live s ∧ s.chip.domOn 59 = true ∧ s.chip.on
    F.uartCfg_EN u.1 = false :=
  ⟨st base, 3, 65, by decide⟩

theorem meets_SerialPeripherals_9 : ∃ (s : State) (q : Fin 8) (w : BitVec 32) (o : Nat) (n : Nat) (rest : List Nat), Live s
    ∧ s.chip.domOn 59 = true ∧ s.chip.on F.spiCfg_EN q.1 = true ∧ s.chip.on F.spiCfg_TARGET q.1 = false ∧ s.chip.frameOn (16
    + q.1) = false ∧ 8 * 2 ^ s.chip.fld F.spiCfg_WIDTH q.1 = n ∧ (s.chip.serial (16 + q.1)).tx = o :: rest :=
  ⟨st { base.setFld F.spiCfg_EN 3 0 1 with serials := [(19, { tx := [65] })] }, 3, 7, 65, 8, [], by decide⟩

theorem meets_SerialPeripherals_10 : ∃ (s : State) (q : Fin 8) (w : BitVec 32) (o : Nat) (n : Nat) (rest : List Nat), Live s
    ∧ s.chip.domOn 59 = true ∧ s.chip.on F.spiCfg_EN q.1 = true ∧ s.chip.on F.spiCfg_TARGET q.1 = true ∧ 8 * 2 ^ s.chip.fld
    F.spiCfg_WIDTH q.1 = n ∧ (s.chip.serial (16 + q.1)).tx = o :: rest :=
  ⟨st { (base.setFld F.spiCfg_EN 3 0 1).setFld F.spiCfg_TARGET 3 0 1 with serials := [(19, { tx := [65] })] }, 3, 7, 65, 8, [], by decide⟩

theorem meets_SerialPeripherals_11 : ∃ (s : State) (q : Fin 8) (w : BitVec 32) (n : Nat), Live s ∧ s.chip.domOn 59 = true ∧
    s.chip.on F.spiCfg_EN q.1 = true ∧ 8 * 2 ^ s.chip.fld F.spiCfg_WIDTH q.1 = n ∧ (s.chip.serial (16 + q.1)).tx = [] ∧
    s.chip.on F.spiCfg_TARGET q.1 = true :=
  ⟨st ((base.setFld F.spiCfg_EN 3 0 1).setFld F.spiCfg_TARGET 3 0 1), 3, 7, 8, by decide⟩

theorem meets_SerialPeripherals_13 : ∃ (s : State) (i : Fin 8) (b : BitVec 8) (w : Nat) (rest : List Nat), Live s ∧
    s.chip.domOn 59 = true ∧ s.chip.on F.i2cCfg_EN i.1 = true ∧ s.chip.on F.i2cCfg_TARGET i.1 = false ∧ (s.chip.serial (24 +
    i.1)).tx = w :: rest ∧ bit w 10 = false :=
  ⟨st { base.setFld F.i2cCfg_EN 3 0 1 with serials := [(27, { tx := [65] })] }, 3, 7, 65, [], by decide⟩

theorem meets_SerialPeripherals_14 : ∃ (s : State) (i : Fin 8) (b : BitVec 8) (w : Nat) (rest : List Nat), Live s ∧
    s.chip.domOn 59 = true ∧ s.chip.on F.i2cCfg_EN i.1 = true ∧ s.chip.on F.i2cCfg_TARGET i.1 = false ∧ (s.chip.serial (24 +
    i.1)).tx = w :: rest ∧ bit w 10 = false :=
  ⟨st { base.setFld F.i2cCfg_EN 3 0 1 with serials := [(27, { tx := [65] })] }, 3, 7, 65, [], by decide⟩

theorem meets_SerialPeripherals_15 : ∃ (s : State) (i : Fin 8) (b : BitVec 8) (ack : Bool) (w : Nat) (rest : List Nat), Live
    s ∧ s.chip.domOn 59 = true ∧ s.chip.on F.i2cCfg_EN i.1 = true ∧ s.chip.on F.i2cCfg_TARGET i.1 = false ∧ (s.chip.serial
    (24 + i.1)).tx = w :: rest ∧ bit w 10 = true :=
  ⟨st { base.setFld F.i2cCfg_EN 3 0 1 with serials := [(27, { tx := [1024] })] }, 3, 7, true, 1024, [], by decide⟩

theorem meets_SerialPeripherals_16 : ∃ (s : State) (i : Fin 8) (b : BitVec 8) (ack : Bool) (w : Nat) (rest : List Nat), Live
    s ∧ s.chip.domOn 59 = true ∧ s.chip.on F.i2cCfg_EN i.1 = true ∧ s.chip.on F.i2cCfg_TARGET i.1 = false ∧ (s.chip.serial
    (24 + i.1)).tx = w :: rest :=
  ⟨st { base.setFld F.i2cCfg_EN 3 0 1 with serials := [(27, { tx := [65] })] }, 3, 7, true, 65, [], by decide⟩

theorem meets_SerialPeripherals_17 : ∃ (s : State) (i : Fin 8) (b : BitVec 8), Live s ∧ s.chip.domOn 59 = true ∧ s.chip.on
    F.i2cCfg_EN i.1 = true ∧ s.chip.on F.i2cCfg_TARGET i.1 = true ∧ b.toNat / 2 = s.chip.fld F.i2cCfg_ADDR i.1 :=
  ⟨st ((base.setFld F.i2cCfg_EN 3 0 1).setFld F.i2cCfg_TARGET 3 0 1), 3, 0, by decide⟩

theorem meets_SerialPeripherals_18 : ∃ (s : State) (i : Fin 8) (b : BitVec 8), Live s ∧ s.chip.domOn 59 = true ∧ s.chip.on
    F.i2cCfg_EN i.1 = true ∧ s.chip.on F.i2cCfg_TARGET i.1 = true ∧ b.toNat / 2 ≠ s.chip.fld F.i2cCfg_ADDR i.1 :=
  ⟨st ((base.setFld F.i2cCfg_EN 3 0 1).setFld F.i2cCfg_TARGET 3 0 1), 3, 7, by decide⟩

theorem meets_SerialPeripherals_19 : ∃ (s : State) (i : Fin 8) (b : BitVec 8), Live s ∧ s.chip.domOn 59 = true ∧ s.chip.on
    F.i2cCfg_EN i.1 = true ∧ s.chip.on F.i2cCfg_TARGET i.1 = true ∧ (s.chip.serial (24 + i.1)).sel = some false :=
  ⟨st { (base.setFld F.i2cCfg_EN 3 0 1).setFld F.i2cCfg_TARGET 3 0 1 with serials := [(27, { sel := some false })] }, 3, 7, by decide⟩

theorem meets_SerialPeripherals_20 : ∃ (s : State) (i : Fin 8), Live s ∧ s.chip.domOn 59 = true ∧ s.chip.on F.i2cCfg_EN i.1
    = true ∧ s.chip.on F.i2cCfg_TARGET i.1 = true ∧ (s.chip.serial (24 + i.1)).sel = some true ∧ (s.chip.serial (24 +
    i.1)).tx = [] :=
  ⟨st { (base.setFld F.i2cCfg_EN 3 0 1).setFld F.i2cCfg_TARGET 3 0 1 with serials := [(27, { sel := some true })] }, 3, by decide⟩

theorem meets_SerialPeripherals_21 : ∃ (s : State) (i : Fin 8) (w : Nat) (rest : List Nat), Live s ∧ s.chip.domOn 59 = true
    ∧ s.chip.on F.i2cCfg_EN i.1 = true ∧ s.chip.on F.i2cCfg_TARGET i.1 = true ∧ (s.chip.serial (24 + i.1)).sel = some true ∧
    (s.chip.serial (24 + i.1)).tx = w :: rest :=
  ⟨st { (base.setFld F.i2cCfg_EN 3 0 1).setFld F.i2cCfg_TARGET 3 0 1 with serials := [(27, { sel := some true, tx := [7] })] }, 3, 7, [], by decide⟩

theorem meets_SerialPeripherals_22 : ∃ (s : State) (i : Fin 8), Live s ∧ s.chip.domOn 59 = true ∧ s.chip.on F.i2cCfg_EN i.1
    = true ∧ s.chip.on F.i2cCfg_TARGET i.1 = true :=
  ⟨st ((base.setFld F.i2cCfg_EN 3 0 1).setFld F.i2cCfg_TARGET 3 0 1), 3, by decide⟩

theorem meets_SequencerControl_1 : ∃ (s : State) (q : Fin 64) (w : Nat), Live s ∧ SeqRuns s.chip q.1 0 w :=
  ⟨st (seqBase 2 0), 3, 0, by decide⟩

set_option maxRecDepth 100000 in
theorem meets_SequencerControl_2 : ∃ (s : State) (q : Fin 64), Live s ∧ s.chip.domOn (55 + s.chip.physOf 5 q.1 / 17) = true
    ∧ s.chip.psqState q.1 = 2 ∧ psqReserved (s.chip.psqInst q.1) = true :=
  ⟨st (seqBase 2 0xF0000000), 3, by decide⟩

set_option maxRecDepth 100000 in
theorem meets_SequencerControl_3 : ∃ (s : State) (q : Fin 64) (w : Nat), Live s ∧ SeqRuns s.chip q.1 1 w ∧ bits w 26 24 = 0
    :=
  ⟨st (seqBase 2 0x10000005), 3, 0x10000005, by decide⟩

set_option maxRecDepth 100000 in
theorem meets_SequencerControl_4 : ∃ (s : State) (q : Fin 64) (w : Nat) (lc : Nat), Live s ∧ SeqRuns s.chip q.1 1 w ∧ bits w
    26 24 = 1 ∧ s.chip.fld F.psqLc_LC q.1 = lc ∧ 1 < lc :=
  ⟨st ((seqBase 2 0x11000005).setFld F.psqLc_LC 3 0 4), 3, 0x11000005, 4, by decide⟩

set_option maxRecDepth 100000 in
theorem meets_SequencerControl_5 : ∃ (s : State) (q : Fin 64) (w : Nat), Live s ∧ SeqRuns s.chip q.1 1 w ∧ bits w 26 24 = 4
    ∧ (s.chip.psq q.1).tx = [] :=
  ⟨st (seqBase 2 0x14000005), 3, 0x14000005, by decide⟩

set_option maxRecDepth 100000 in
theorem meets_SequencerControl_6 : ∃ (s : State) (q : Fin 64) (w : Nat), Live s ∧ SeqRuns s.chip q.1 2 w ∧ bits w 26 24 = 0
    ∧ reached s.chip.now (s.chip.psq q.1).tr = true :=
  ⟨st (seqBase 2 0x20000000), 3, 0x20000000, by decide⟩

set_option maxRecDepth 100000 in
theorem meets_SequencerControl_7 : ∃ (s : State) (q : Fin 64) (w : Nat), Live s ∧ SeqRuns s.chip q.1 2 w ∧ bits w 26 24 = 0
    ∧ reached s.chip.now (s.chip.psq q.1).tr = false :=
  ⟨st { seqBase 2 0x20000000 with psqs := [(3, { tr := 5 })] }, 3, 0x20000000, by decide⟩

set_option maxRecDepth 100000 in
theorem meets_SequencerControl_8 : ∃ (s : State) (q : Fin 64) (w : Nat), Live s ∧ SeqRuns s.chip q.1 2 w ∧ bits w 26 24 = 6
    ∧ s.chip.on F.psqStat_TASKPEND q.1 = true :=
  ⟨st ((seqBase 2 0x26000000).setFld F.psqStat_TASKPEND 3 0 1), 3, 0x26000000, by decide⟩

set_option maxRecDepth 100000 in
theorem meets_SequencerControl_9 : ∃ (s : State) (q : Fin 64) (v : Bool) (off : Fin 3) (w : Nat) (b : Nat) (e : Nat), Live s
    ∧ SeqWaits s.chip q.1 w (.await b) ∧ bits w 26 24 = 5 ∧ bits w 20 16 ≤ s.chip.fld F.psqGroup_COUNTM1 q.1 ∧ s.chip.edgeAt
    (s.chip.fld F.psqGroup_BASE q.1 + bits w 20 16) 0 = some (e, v) ∧ reached e b = true :=
  ⟨st { seqBase 3 0x25000005 with psqs := [(3, { wait := some (.await 50) })], samples := [(99, [1]), (98, [1]), (97, [0])], tb := 100 }, 3, true, 1, 0x25000005, 50, 98, by decide⟩

set_option maxRecDepth 100000 in
theorem meets_SequencerControl_10 : ∃ (s : State) (q : Fin 64) (v : Bool) (off : Fin 3) (w : Nat) (b : Nat), Live s ∧
    SeqWaits s.chip q.1 w (.await b) ∧ bits w 26 24 = 5 ∧ s.chip.edgeAt (s.chip.fld F.psqGroup_BASE q.1 + bits w 20 16) 0 =
    none :=
  ⟨st { seqBase 3 0x25000005 with psqs := [(3, { wait := some (.await 50) })] }, 3, true, 1, 0x25000005, 50, by decide⟩

set_option maxRecDepth 100000 in
theorem meets_SequencerControl_11 : ∃ (s : State) (q : Fin 64) (v : Bool) (off : Fin 3) (w : Nat) (b : Nat), Live s ∧
    SeqWaits s.chip q.1 w (.await b) ∧ bits w 26 24 = 0 ∧ reached s.chip.now (s.chip.psq q.1).tr = true :=
  ⟨st { seqBase 3 0x20000000 with psqs := [(3, { wait := some (.await 50) })] }, 3, false, 1, 0x20000000, 50, by decide⟩

set_option maxRecDepth 100000 in
theorem meets_SequencerControl_12 : ∃ (s : State) (q : Fin 64) (v : Bool) (off : Fin 3), Live s ∧ s.chip.domOn (55 +
    s.chip.physOf 5 q.1 / 17) = true ∧ s.chip.psqState q.1 ≠ 3 :=
  ⟨st base, 3, true, 1, by decide⟩

set_option maxRecDepth 100000 in
theorem meets_SequencerControl_13 : ∃ (s : State) (q : Fin 64) (w : Nat), Live s ∧ SeqRuns s.chip q.1 3 w ∧ bits w 26 25 = 0
    :=
  ⟨st (seqBase 2 0x30000005), 3, 0x30000005, by decide⟩

set_option maxRecDepth 100000 in
theorem meets_SequencerControl_14 : ∃ (s : State) (q : Fin 64) (w : Nat), Live s ∧ SeqRuns s.chip q.1 3 w ∧ bits w 26 25 = 1
    :=
  ⟨st (seqBase 2 0x32000005), 3, 0x32000005, by decide⟩

set_option maxRecDepth 100000 in
theorem meets_SequencerControl_15 : ∃ (s : State) (m : Master) (q : Fin 64), Live s ∧ Served s.chip m .psqCmd q.1 0 true ∧ 2
    ≤ s.chip.psqState q.1 :=
  ⟨st (seqBase 3 0), .own 0, 3, by decide⟩

set_option maxRecDepth 100000 in
theorem meets_SequencerControl_16 : ∃ (s : State) (m : Master) (q : Fin 64), Live s ∧ Served s.chip m .psqCmd q.1 0 true ∧
    s.chip.psqState q.1 < 2 :=
  ⟨st base, .own 0, 3, by decide⟩

set_option maxRecDepth 100000 in
theorem meets_SequencerControl_17 : ∃ (s : State) (m : Master) (q : Fin 64), Live s ∧ Served s.chip m .psqCmd q.1 0 true ∧
    s.chip.psqState q.1 = 1 :=
  ⟨st (seqBase 1 0), .own 0, 3, by decide⟩

set_option maxRecDepth 100000 in
theorem meets_SequencerControl_18 : ∃ (s : State) (m : Master) (q : Fin 64), Live s ∧ Served s.chip m .psqCmd q.1 0 true ∧
    s.chip.on F.psqCtrl_EN q.1 = true ∧ s.chip.fld F.psqGroup_BASE q.1 + s.chip.fld F.psqGroup_COUNTM1 q.1 ≤ 1023 :=
  ⟨st ((seqBase 1 0).setFld F.psqCtrl_EN 3 0 1), .own 0, 3, by decide⟩

set_option maxRecDepth 100000 in
theorem meets_SequencerControl_19 : ∃ (s : State) (m : Master) (q : Fin 64), Live s ∧ Served s.chip m .psqCmd q.1 0 true ∧
    s.chip.on F.psqCtrl_EN q.1 = true ∧ 1023 < s.chip.fld F.psqGroup_BASE q.1 + s.chip.fld F.psqGroup_COUNTM1 q.1 :=
  ⟨st ((((seqBase 1 0).setFld F.psqCtrl_EN 3 0 1).setFld F.psqGroup_BASE 3 0 1020).setFld F.psqGroup_COUNTM1 3 0 31), .own 0, 3, by decide⟩

set_option maxRecDepth 100000 in
theorem meets_SequencerControl_20 : ∃ (s : State) (m : Master) (q : Fin 64), Live s ∧ Served s.chip m .psqCmd q.1 0 true ∧
    s.chip.psqState q.1 = 1 :=
  ⟨st (seqBase 1 0), .own 0, 3, by decide⟩

set_option maxRecDepth 100000 in
theorem meets_SequencerControl_21 : ∃ (s : State) (m : Master) (q : Fin 64), Live s ∧ Served s.chip m .psqCmd q.1 0 true ∧
    s.chip.psqState q.1 ≠ 1 :=
  ⟨st base, .own 0, 3, by decide⟩

set_option maxRecDepth 100000 in
theorem meets_SequencerData_1 : ∃ (s : State) (q : Fin 64) (w : Nat) (n : Nat) (sr : Nat), Live s ∧ SeqRuns s.chip q.1 4 w ∧
    bit w 27 = false ∧ bits w 26 24 = 2 ∧ s.chip.on F.psqCtrl_SHDIR q.1 = false ∧ bits w 4 0 + 1 = n ∧ s.chip.fld F.psqSr_SR
    q.1 = sr :=
  ⟨st ((seqBase 2 0x42000007).setFld F.psqSr_SR 3 0 0x1234), 3, 0x42000007, 8, 0x1234, by decide⟩

set_option maxRecDepth 100000 in
theorem meets_SequencerData_2 : ∃ (s : State) (q : Fin 64) (w : Nat), Live s ∧ SeqRuns s.chip q.1 4 w ∧ bit w 27 = true :=
  ⟨st (seqBase 2 0x4A000007), 3, 0x4A000007, by decide⟩

set_option maxRecDepth 100000 in
theorem meets_SequencerData_3 : ∃ (s : State) (q : Fin 64) (w : Nat) (n : Nat) (sr : Nat), Live s ∧ SeqRuns s.chip q.1 4 w ∧
    bit w 27 = false ∧ bits w 26 24 = 0 ∧ s.chip.on F.psqCtrl_SHDIR q.1 = false ∧ bits w 4 0 + 1 = n ∧ s.chip.fld F.psqSr_SR
    q.1 = sr :=
  ⟨st ((seqBase 2 0x40000007).setFld F.psqSr_SR 3 0 0x1234), 3, 0x40000007, 8, 0x1234, by decide⟩

set_option maxRecDepth 100000 in
theorem meets_SequencerData_4 : ∃ (s : State) (q : Fin 64) (w : Nat) (n : Nat) (sr : Nat), Live s ∧ SeqRuns s.chip q.1 5 w ∧
    bit w 27 = false ∧ bits w 26 24 = 1 ∧ s.chip.on F.psqCtrl_SHDIR q.1 = true ∧ bits w 4 0 + 1 = n ∧ s.chip.fld F.psqSr_SR
    q.1 = sr :=
  ⟨st (((seqBase 2 0x51000007).setFld F.psqSr_SR 3 0 0x1234).setFld F.psqCtrl_SHDIR 3 0 1), 3, 0x51000007, 8, 0x1234, by decide⟩

set_option maxRecDepth 100000 in
theorem meets_SequencerData_5 : ∃ (s : State) (q : Fin 64) (w : Nat), Live s ∧ SeqRuns s.chip q.1 6 w ∧ bit w 27 = false ∧
    bits w 26 24 = 2 :=
  ⟨st (seqBase 2 0x62000007), 3, 0x62000007, by decide⟩

set_option maxRecDepth 100000 in
theorem meets_SequencerData_6 : ∃ (s : State) (q : Fin 64) (w : Nat), Live s ∧ SeqRuns s.chip q.1 6 w ∧ bit w 27 = false ∧
    bits w 26 24 = 3 :=
  ⟨st (seqBase 2 0x63000007), 3, 0x63000007, by decide⟩

set_option maxRecDepth 100000 in
theorem meets_SequencerData_7 : ∃ (s : State) (q : Fin 64) (w : Nat), Live s ∧ SeqRuns s.chip q.1 6 w ∧ bit w 27 = false ∧
    bits w 26 24 = 0 :=
  ⟨st (seqBase 2 0x60000007), 3, 0x60000007, by decide⟩

set_option maxRecDepth 100000 in
theorem meets_SequencerData_8 : ∃ (s : State) (q : Fin 64) (w : Nat), Live s ∧ SeqRuns s.chip q.1 9 w ∧ bit w 27 = false ∧
    bits w 26 24 = 1 ∧ bits w 22 20 = 2 :=
  ⟨st (seqBase 2 0x91200000), 3, 0x91200000, by decide⟩

set_option maxRecDepth 100000 in
theorem meets_SequencerData_9 : ∃ (s : State) (q : Fin 64) (w : Nat), Live s ∧ SeqRuns s.chip q.1 9 w ∧ bit w 27 = false ∧
    bits w 26 24 = 2 ∧ bits w 22 20 = 0 :=
  ⟨st (seqBase 2 0x92000000), 3, 0x92000000, by decide⟩

set_option maxRecDepth 100000 in
theorem meets_SequencerData_10 : ∃ (s : State) (q : Fin 64) (w : Nat), Live s ∧ SeqRuns s.chip q.1 10 w ∧ bit w 27 = false
    :=
  ⟨st (seqBase 2 0xA0000003), 3, 0xA0000003, by decide⟩

set_option maxRecDepth 100000 in
theorem meets_SequencerData_11 : ∃ (s : State) (q : Fin 64) (w : Nat) (v : Nat) (rest : List Nat), Live s ∧ SeqRuns s.chip
    q.1 7 w ∧ (s.chip.psq q.1).tx = v :: rest :=
  ⟨st { seqBase 2 0x70000000 with psqs := [(3, { tx := [9] })] }, 3, 0x70000000, 9, [], by decide⟩

set_option maxRecDepth 100000 in
theorem meets_SequencerData_12 : ∃ (s : State) (q : Fin 64) (w : Nat), Live s ∧ SeqRuns s.chip q.1 7 w ∧ (s.chip.psq q.1).tx
    = [] ∧ bit w 26 = false :=
  ⟨st (seqBase 2 0x70000000), 3, 0x70000000, by decide⟩

set_option maxRecDepth 100000 in
theorem meets_SequencerData_13 : ∃ (s : State) (q : Fin 64) (w : Nat), Live s ∧ SeqRuns s.chip q.1 7 w ∧ (s.chip.psq q.1).tx
    = [] ∧ bit w 26 = true :=
  ⟨st (seqBase 2 0x74000000), 3, 0x74000000, by decide⟩

set_option maxRecDepth 100000 in
theorem meets_SequencerData_14 : ∃ (s : State) (q : Fin 64) (w : Nat), Live s ∧ SeqRuns s.chip q.1 8 w ∧ (s.chip.psq
    q.1).rx.length < 8 :=
  ⟨st (seqBase 2 0x80000000), 3, 0x80000000, by decide⟩

set_option maxRecDepth 100000 in
theorem meets_SequencerData_15 : ∃ (s : State) (q : Fin 64) (w : Nat), Live s ∧ SeqRuns s.chip q.1 8 w ∧ 8 ≤ (s.chip.psq
    q.1).rx.length ∧ bit w 26 = false :=
  ⟨st { seqBase 2 0x80000000 with psqs := [(3, { rx := List.replicate 8 9 })] }, 3, 0x80000000, by decide⟩

set_option maxRecDepth 100000 in
theorem meets_SequencerData_16 : ∃ (s : State) (q : Fin 64) (w : Nat) (b : Nat), Live s ∧ SeqWaits s.chip q.1 w (.timed b) ∧
    reached s.chip.now (s.chip.psq q.1).tr = true ∧ 10 ≤ sub64 s.chip.now b ∧ reached (b + 9) (s.chip.psq q.1).tr = false :=
  ⟨st { seqBase 3 0x62000007 with psqs := [(3, { wait := some (.timed 0), tr := 20 })], tb := 30 }, 3, 0x62000007, 0, by decide⟩

set_option maxRecDepth 100000 in
theorem meets_SequencerData_17 : ∃ (s : State) (q : Fin 64) (w : Nat) (b : Nat), Live s ∧ SeqWaits s.chip q.1 w (.timed b) ∧
    reached s.chip.now (s.chip.psq q.1).tr = true ∧ 10 ≤ sub64 s.chip.now b ∧ reached (b + 9) (s.chip.psq q.1).tr = true :=
  ⟨st { seqBase 3 0x62000007 with psqs := [(3, { wait := some (.timed 0), tr := 5 })], tb := 30 }, 3, 0x62000007, 0, by decide⟩

set_option maxRecDepth 100000 in
theorem meets_SequencerData_18 : ∃ (s : State) (q : Fin 64) (w : Nat) (b : Nat), Live s ∧ SeqWaits s.chip q.1 w (.timed b) ∧
    sub64 s.chip.now b < 10 ∨ reached s.chip.now (s.chip.psq q.1).tr = false :=
  ⟨st { seqBase 3 0x62000007 with psqs := [(3, { wait := some (.timed 0), tr := 5 })], tb := 3 }, 3, 0x62000007, 0, by decide⟩

set_option maxRecDepth 100000 in
theorem meets_SequencerData_19 : ∃ (s : State) (q : Fin 64) (w : Nat) (v : Nat) (rest : List Nat), Live s ∧ SeqWaits s.chip
    q.1 w .fifo ∧ bits w 31 28 = 7 ∧ (s.chip.psq q.1).tx = v :: rest :=
  ⟨st { seqBase 3 0x74000000 with psqs := [(3, { wait := some .fifo, tx := [9] })] }, 3, 0x74000000, 9, [], by decide⟩

set_option maxRecDepth 100000 in
theorem meets_SequencerData_20 : ∃ (s : State) (q : Fin 64) (w : Nat), Live s ∧ SeqWaits s.chip q.1 w .fifo ∧ bits w 31 28 =
    7 ∧ (s.chip.psq q.1).tx = [] :=
  ⟨st { seqBase 3 0x74000000 with psqs := [(3, { wait := some .fifo })] }, 3, 0x74000000, by decide⟩

theorem meets_StartUp_1 : ∃ (s : State) (e : StartEnv), Live s ∧ s.chip.boot.due = none :=
  ⟨st base, {}, by decide⟩

set_option maxRecDepth 100000 in
theorem meets_StartUp_2 : ∃ (s : State) (e : StartEnv) (due : Nat) (b : Chip) (t1 : Chip) (t2 : Chip) (t3 : Chip) (t4 :
    Chip), Live s ∧ s.chip.boot.due = some due ∧ s.chip.psm.tripped = false ∧ s.chip.startBegin due = b ∧ b.boot.reason 0 =
    none ∧ (b.takeHeader 0 due).startPower 0 e = t1 ∧ (t1.on F.sysSupply_VCORE_OK && t1.on F.sysSupply_VMEM_OK) = true ∧
    b.boot.zero = false ∧ (t1.startLedger.startPark 0).setFld F.sysBoot_COPY 0 0 0 = t2 ∧ (t2.setOn F.sysBoot_FALLBACK 0 0
    (!e.same)).loadSections 0 ((t2.setOn F.sysBoot_FALLBACK 0 0 (!e.same)).boot.sections 0) = (true, t3) ∧ t3.setFld
    F.mbxCptlock_LOCKED 0 0 1 = t4 ∧ bit t4.boot.flags 4 = false :=
  ⟨st bootBase, {}, 0, bootBase.startBegin 0, ((bootBase.startBegin 0).takeHeader 0 0).startPower 0 {}, ((((bootBase.startBegin 0).takeHeader 0 0).startPower 0 {}).startLedger.startPark 0).setFld F.sysBoot_COPY 0 0 0, bootLoaded.2, bootLoaded.2.setFld F.mbxCptlock_LOCKED 0 0 1, by decide, by decide, by decide, rfl, by decide, rfl, by decide, by decide, rfl, by decide, rfl, by decide⟩

set_option maxRecDepth 100000 in
theorem meets_StartUp_3 : ∃ (s : State) (e : StartEnv) (due : Nat) (t1 : Chip), Live s ∧ s.chip.boot.due = some due ∧
    s.chip.psm.tripped = false ∧ (s.chip.startBegin due).boot.reason 0 = none ∧ ((s.chip.startBegin due).takeHeader 0
    due).startPower 0 e = t1 ∧ (t1.on F.sysSupply_VCORE_OK && t1.on F.sysSupply_VMEM_OK) = false :=
  ⟨st (bootBase.setFld F.sysSupply_VMEM_OK 0 0 0), {}, 0, (((bootBase.setFld F.sysSupply_VMEM_OK 0 0 0).startBegin 0).takeHeader 0 0).startPower 0 {}, by decide, by decide, by decide, by decide, rfl, by decide⟩

set_option maxRecDepth 100000 in
theorem meets_StartUp_4 : ∃ (s : State) (e : StartEnv) (due : Nat) (r0 : Nat) (r1 : Nat) (b : Chip), Live s ∧
    s.chip.boot.due = some due ∧ s.chip.psm.tripped = false ∧ s.chip.startBegin due = b ∧ b.boot.reason 0 = some r0 ∧
    b.boot.reason 1 = some r1 :=
  ⟨st { base with boot := { due := some 0 } }, {}, 0, 1, 1, ({ base with boot := { due := some 0 } } : Chip).startBegin 0, by decide, by decide, by decide, rfl, by decide, by decide⟩

theorem meets_Resets_2 : ∃ (s : State) (k : BitVec 10), s.sup.por = true ∧ s.sup.testmode = false :=
  ⟨{ (st base) with sup := ⟨true, false⟩ }, 5, by decide⟩

theorem meets_Resets_3 : ∃ (s : State) (k : BitVec 10), s.sup.testmode = true :=
  ⟨{ (st base) with sup := ⟨true, true⟩ }, 5, by decide⟩

theorem meets_Resets_4 : ∃ (s : State) (k : BitVec 10), Live s ∧ s.chip.boot.due = none :=
  ⟨st base, 5, by decide⟩

set_option maxRecDepth 100000 in
theorem meets_Resets_5 : ∃ (s : State) (m : Master), Live s ∧ Served s.chip m .sysReset 0 0 true ∧ s.chip.boot.due = none :=
  ⟨st base, .own 9, by decide⟩

set_option maxRecDepth 100000 in
theorem meets_Resets_6 : ∃ (s : State) (m : Master) (d : Nat), Live s ∧ Served s.chip m .sysReset 0 0 true ∧ s.chip.boot.due
    = some d ∧ d ≠ 0 :=
  ⟨st { base with boot := { due := some 1 } }, .own 9, 1, by decide⟩

set_option maxRecDepth 100000 in
theorem meets_Resets_7 : ∃ (s : State) (m : Master), Live s ∧ Served s.chip m .sysReset 0 0 true ∧ s.chip.boot.due = some 0
    :=
  ⟨st { base with boot := { due := some 0 } }, .own 9, by decide⟩

set_option maxRecDepth 100000 in
theorem meets_Resets_8 : ∃ (s : State) (m : Master), Live s ∧ Served s.chip m .sysReset 0 0 true ∧ s.chip.boot.due = none :=
  ⟨st base, .own 9, by decide⟩

set_option maxRecDepth 100000 in
theorem meets_Resets_9 : ∃ (s : State) (m : Master) (d : Nat), Live s ∧ Served s.chip m .sysReset 0 0 true ∧ s.chip.boot.due
    = some d :=
  ⟨st { base with boot := { due := some 0 } }, .own 9, 0, by decide⟩

theorem meets_Resets_10 : ∃ (s : State), Live s ∧ bit s.chip.boot.flags 2 = true ∧ s.chip.boot.due = none :=
  ⟨st { base with boot := { flags := 4 } }, by decide⟩

theorem meets_Resets_11 : ∃ (s : State), Live s ∧ bit s.chip.boot.flags 2 = false :=
  ⟨st base, by decide⟩

theorem meets_Resets_12 : ∃ (s : State) (f : Fin 2), Live s ∧ f = 1 :=
  ⟨st base, 1, by decide⟩

theorem meets_Resets_13 : ∃ (s : State) (f : Fin 2), Live s ∧ f = 0 ∧ s.chip.pcie.outQ = [] ∧ s.chip.pcie.reads = [] :=
  ⟨st base, 0, by decide⟩

theorem meets_Resets_14 : ∃ (s : State), Live s ∧ s.chip.on F.sysWdogCtrl_EN = true ∧ s.chip.fld F.sysWdogCtrl_TIMEOUT *
    1000 ≤ sub64 s.chip.now s.chip.boot.kicked ∧ s.chip.boot.due = none :=
  ⟨st (base.setFld F.sysWdogCtrl_EN 0 0 1), by decide⟩

theorem meets_Resets_15 : ∃ (s : State), Live s ∧ s.chip.on F.sysWdogCtrl_EN = false :=
  ⟨st base, by decide⟩

theorem meets_Resets_16 : ∃ (s : State) (m : Master) (v : BitVec 32), Live s ∧ Served s.chip m .sysWdogKick 0 0 true ∧ bits
    v.toNat 15 0 = 0x5A17 :=
  ⟨st base, .own 9, 0x5A17, by decide⟩

theorem meets_Resets_17 : ∃ (s : State) (m : Master) (v : BitVec 32), Live s ∧ Served s.chip m .sysWdogKick 0 0 true ∧ bits
    v.toNat 15 0 ≠ 0x5A17 :=
  ⟨st base, .own 9, 0x5A18, by decide⟩

theorem meets_BootEngine_1 : ∃ (s : State) (m : Master), Live s ∧ Served s.chip m .hstBfCmd 0 0 true ∧ s.chip.on
    F.hstBfStat_BUSY = false ∧ 4 ≤ s.chip.fld F.sysBoot_STATE ∧ s.chip.bfAllowed m 1 = true :=
  ⟨st (base.setFld F.sysBoot_STATE 0 0 4), .own 0x11, by decide⟩

theorem meets_BootEngine_2 : ∃ (s : State) (m : Master), Live s ∧ Served s.chip m .hstBfCmd 0 0 true ∧ s.chip.on
    F.hstBfStat_BUSY = true ∨ s.chip.fld F.sysBoot_STATE < 4 :=
  ⟨st base, .own 0x11, by decide⟩

theorem meets_BootEngine_3 : ∃ (s : State) (m : Master), Live s ∧ Served s.chip m .hstBfCmd 0 0 true ∧ s.chip.on
    F.hstBfStat_BUSY = false ∧ 4 ≤ s.chip.fld F.sysBoot_STATE ∧ s.chip.bfAllowed m 2 = true :=
  ⟨st (base.setFld F.sysBoot_STATE 0 0 5), .own 0x11, by decide⟩

theorem meets_BootEngine_4 : ∃ (s : State) (m : Master), Live s ∧ Served s.chip m .hstBfCmd 0 0 true ∧ s.chip.on
    F.hstBfStat_BUSY = false ∧ 4 ≤ s.chip.fld F.sysBoot_STATE ∧ s.chip.bfAllowed m 2 = false :=
  ⟨st (base.setFld F.sysBoot_STATE 0 0 4), .own 0x11, by decide⟩

theorem meets_BootEngine_5 : ∃ (s : State) (m : Master), Live s ∧ Served s.chip m .hstBfCmd 0 0 true ∧ s.chip.on
    F.hstBfStat_BUSY = false ∧ 4 ≤ s.chip.fld F.sysBoot_STATE ∧ s.chip.bfAllowed m 3 = true :=
  ⟨st (base.setFld F.sysBoot_STATE 0 0 5), .own 0x11, by decide⟩

theorem meets_BootEngine_6 : ∃ (s : State) (m : Master), Live s ∧ Served s.chip m .hstBfCmd 0 0 true ∧ s.chip.on
    F.hstBfStat_BUSY = false ∧ 4 ≤ s.chip.fld F.sysBoot_STATE ∧ s.chip.bfAllowed m 4 = true :=
  ⟨st (base.setFld F.sysBoot_STATE 0 0 5), .own 0x11, by decide⟩

theorem meets_BootEngine_7 : ∃ (s : State) (ok : Bool) (t : Chip), Live s ∧ s.chip.boot.cmd = some 1 ∧ (s.chip.setFld
    F.hstBfStat_BUSY 0 0 0).updBoot (fun b => { b with cmd := none }) = t :=
  ⟨st { base with boot := { cmd := some 1 } }, true, (({ base with boot := { cmd := some 1 } } : Chip).setFld F.hstBfStat_BUSY 0 0 0).updBoot (fun b => { b with cmd := none }), by decide, by decide, rfl⟩

theorem meets_BootEngine_8 : ∃ (s : State) (ok : Bool) (t : Chip), Live s ∧ s.chip.boot.cmd = some 3 ∧ ok = true ∧
    (s.chip.setFld F.hstBfStat_BUSY 0 0 0).updBoot (fun b => { b with cmd := none }) = t :=
  ⟨st { base with boot := { cmd := some 3 } }, true, (({ base with boot := { cmd := some 3 } } : Chip).setFld F.hstBfStat_BUSY 0 0 0).updBoot (fun b => { b with cmd := none }), by decide, by decide, by decide, rfl⟩

theorem meets_BootEngine_9 : ∃ (s : State) (ok : Bool) (k : Nat), Live s ∧ s.chip.boot.cmd = some k ∧ k ≠ 1 ∧ ok = false :=
  ⟨st { base with boot := { cmd := some 3 } }, false, 3, by decide⟩

theorem meets_HostRequests_1 : ∃ (s : State) (f : Fin 2) (bar : Fin 3) (w : Bool) (o : BitVec 30) (n : Nat) (v : Nat), Live
    s ∧ s.chip.pcie.up = false :=
  ⟨st base, 0, 0, true, 0, 4, 0, by decide⟩

theorem meets_HostRequests_2 : ∃ (s : State) (f : Fin 2) (w : Bool) (o : BitVec 30) (n : Nat) (v : Nat), Live s ∧
    s.chip.pcie.up = true ∧ s.chip.fld F.psmStat_STATE < 3 ∧ s.chip.fld F.sysBoot_STATE = 4 :=
  ⟨st { base.setFld F.sysBoot_STATE 0 0 4 with pcie := { up := true } }, 0, true, 0, 4, 0, by decide⟩

theorem meets_HostRequests_3 : ∃ (s : State) (f : Fin 2) (w : Bool) (o : BitVec 30) (n : Nat) (v : Nat), Live s ∧
    s.chip.pcie.up = true ∧ f = 0 ∧ s.chip.fld F.psmStat_STATE < 3 ∧ s.chip.fld F.sysBoot_STATE = 4 :=
  ⟨st { base.setFld F.sysBoot_STATE 0 0 4 with pcie := { up := true } }, 0, true, 0, 4, 0, by decide⟩

theorem meets_HostRequests_4 : ∃ (s : State) (f : Fin 2) (w : Bool) (o : BitVec 30) (n : Nat) (v : Nat), Live s ∧
    s.chip.pcie.up = true ∧ 3 ≤ s.chip.fld F.psmStat_STATE ∧ n ≠ 4 ∧ w = true :=
  ⟨st { base.setFld F.psmStat_STATE 0 0 3 with pcie := { up := true } }, 0, true, 0, 8, 0, by decide⟩

theorem meets_HostRequests_5 : ∃ (s : State) (f : Fin 2) (o : BitVec 30) (n : Nat) (v : Nat) (k : Nat), Live s ∧
    s.chip.pcie.up = true ∧ o.toNat % 2 ^ 16 = 4 * k ∧ k < 256 :=
  ⟨st { base with pcie := { up := true } }, 0, 12, 4, 0, 3, by decide⟩

theorem meets_HostRequests_6 : ∃ (s : State) (f : Fin 2) (o : BitVec 30) (n : Nat) (v : Nat), Live s ∧ s.chip.pcie.up = true
    ∧ o.toNat % 4 = 0 ∧ o.toNat % 2 ^ 16 < 0x400 :=
  ⟨st { base with pcie := { up := true } }, 0, 12, 4, 0, by decide⟩

theorem meets_HostRequests_7 : ∃ (s : State) (f : Fin 2) (w : Bool) (o : BitVec 30) (n : Nat) (v : Nat), Live s ∧
    s.chip.pcie.up = true ∧ f = 1 :=
  ⟨st { base with pcie := { up := true } }, 1, true, 0, 4, 0, by decide⟩

theorem meets_HostRequests_8 : ∃ (s : State) (f : Fin 2) (r : CfgReg) (w : Bool) (v : BitVec 32), Live s ∧ s.chip.pcie.up =
    true ∧ s.chip.cfgRetry = true :=
  ⟨st { base with pcie := { up := true } }, 0, .id, false, 0, by decide⟩

theorem meets_HostRequests_9 : ∃ (s : State) (f : Fin 2) (r : CfgReg) (w : Bool) (v : BitVec 32), Live s ∧ s.chip.pcie.up =
    true ∧ s.chip.cfgRetry = false ∧ w = false ∧ r = .id :=
  ⟨st { base with pcie := { up := true }, boot := { checked := true } }, 0, .id, false, 0, by decide⟩

theorem meets_HostRequests_10 : ∃ (s : State) (f : Fin 2) (r : CfgReg) (w : Bool) (v : BitVec 32), Live s ∧ s.chip.pcie.up =
    true ∧ s.chip.cfgRetry = false ∧ w = true :=
  ⟨st { base with pcie := { up := true }, boot := { checked := true } }, 0, .id, true, 0, by decide⟩

theorem meets_HostRequests_11 : ∃ (s : State), Live s :=
  ⟨st base, by decide⟩

theorem meets_HostRequests_12 : ∃ (s : State) (f : Fin 2) (v : Fin 64) (w : Nat), Live s ∧ NStore.get 1 s.chip.pcie.table
    (f.1 * 256 + 4 * v.1 + 3) = w ∧ w < 2 ^ 32 :=
  ⟨st base, 0, 5, 1, by decide⟩

theorem meets_OutboundAccesses_1 : ∃ (s : State) (a : Access) (rest : List Access) (h : Nat), Live s ∧ s.chip.pcie.outQ = a
    :: rest ∧ s.chip.hostAddr a = some h ∧ a.write = true ∧ s.chip.pcie.up = true :=
  ⟨st outBase, outAcc, [], 0, by decide⟩

theorem meets_OutboundAccesses_2 : ∃ (s : State) (a : Access) (rest : List Access) (h : Nat), Live s ∧ s.chip.pcie.outQ = a
    :: rest ∧ s.chip.hostAddr a = some h ∧ a.write = false :=
  ⟨st { outBase with pcie := { outBase.pcie with outQ := [{ outAcc with write := false }] } }, { outAcc with write := false }, [], 0, by decide⟩

theorem meets_OutboundAccesses_3 : ∃ (s : State) (a : Access) (rest : List Access), Live s ∧ s.chip.pcie.outQ = a :: rest ∧
    s.chip.hostAddr a = none :=
  ⟨st { outBase with busMaster := [] }, outAcc, [], by decide⟩

theorem meets_OutboundAccesses_4 : ∃ (s : State) (n : Nat) (ok : Bool) (d : BitVec 128) (r : HostReq), Live s ∧
    s.chip.pcie.reads[n]? = some r ∧ ok = true :=
  ⟨st { base with pcie := { reads := [⟨outAcc, 0⟩] } }, 0, true, 5, ⟨outAcc, 0⟩, by decide⟩

theorem meets_OutboundAccesses_5 : ∃ (s : State) (n : Nat) (ok : Bool) (d : BitVec 128) (r : HostReq), Live s ∧
    s.chip.pcie.reads[n]? = some r ∧ ok = false :=
  ⟨st { base with pcie := { reads := [⟨outAcc, 0⟩] } }, 0, false, 5, ⟨outAcc, 0⟩, by decide⟩

theorem meets_OutboundAccesses_6 : ∃ (s : State) (n : Nat) (r : HostReq), Live s ∧ s.chip.pcie.reads[n]? = some r ∧ 50000000
    ≤ sub64 s.chip.now r.at_ :=
  ⟨st { base with pcie := { reads := [⟨outAcc, 0⟩] }, tb := 60000000 }, 0, ⟨outAcc, 0⟩, by decide⟩

theorem meets_OutboundAccesses_7 : ∃ (s : State) (n : Nat), Live s ∧ s.chip.pcie.reads[n]? = none :=
  ⟨st base, 0, by decide⟩

theorem meets_SmbusTarget_1 : ∃ (s : State), Live s :=
  ⟨st base, by decide⟩

theorem meets_SmbusTarget_2 : ∃ (s : State), Live s :=
  ⟨st base, by decide⟩

theorem meets_SmbusTarget_3 : ∃ (s : State), Live s :=
  ⟨st base, by decide⟩

theorem meets_SmbusTarget_4 : ∃ (s : State) (ok : Bool) (a : BitVec 32), Live s ∧ ok = false :=
  ⟨st base, false, 0, by decide⟩

theorem meets_SmbusTarget_5 : ∃ (s : State) (ok : Bool) (a : BitVec 32), Live s ∧ ok = true :=
  ⟨st base, true, 0, by decide⟩

theorem meets_SmbusTarget_6 : ∃ (s : State), Live s :=
  ⟨st base, by decide⟩

theorem meets_SmbusTarget_7 : ∃ (s : State) (ok : Bool) (v : BitVec 32), Live s ∧ ok = true :=
  ⟨st base, true, 0, by decide⟩

theorem meets_SmbusTarget_8 : ∃ (s : State) (ok : Bool) (v : BitVec 32), Live s ∧ ok = false :=
  ⟨st base, false, 0, by decide⟩

theorem meets_SmbusTarget_9 : ∃ (s : State), Live s :=
  ⟨st base, by decide⟩

theorem meets_SmbusTarget_10 : ∃ (s : State) (ok : Bool), Live s ∧ ok = true :=
  ⟨st base, true, by decide⟩

theorem meets_SmbusTarget_11 : ∃ (s : State) (ok : Bool), Live s ∧ ok = true ∧ s.chip.boot.due = none :=
  ⟨st base, true, by decide⟩

theorem meets_SmbusTarget_12 : ∃ (s : State) (ok : Bool), Live s ∧ ok = true ∧ s.chip.boot.due = none :=
  ⟨st base, true, by decide⟩

theorem meets_SmbusTarget_13 : ∃ (s : State) (ok : Bool), Live s ∧ ok = false :=
  ⟨st base, false, by decide⟩

theorem meets_PowerStates_1 : ∃ (s : State) (m : Master) (d : BitVec 7), Live s ∧ Served s.chip m .psmDomoff 0 0 true ∧
    d.toNat < 66 :=
  ⟨st base, .own 9, 3, by decide⟩

theorem meets_PowerStates_2 : ∃ (s : State) (m : Master) (d : BitVec 7), Live s ∧ Served s.chip m .psmDomoff 0 0 true ∧ 66 ≤
    d.toNat :=
  ⟨st base, .own 9, 70, by decide⟩

theorem meets_PowerStates_3 : ∃ (s : State) (k : Fin 8), Live s ∧ s.chip.coreState k.1 = 3 ∧ s.chip.fld F.psmCtrl_GATE_DLY ≠
    0 ∧ 2 ≤ s.chip.effTol ∧ s.chip.fld F.psmCtrl_GATE_DLY * 1000 ≤ sub64 s.chip.now (s.chip.core k.1).waitSince :=
  ⟨st { ((((base.setFld F.coreStat_STATE 3 0 3).setFld F.psmCtrl_GATE_DLY 0 0 1).setFld F.hstLtol_EN 0 0 1).setFld F.hstLtol_US 0 0 100) with tb := 5000 }, 3, by decide⟩

theorem meets_PowerStates_4 : ∃ (s : State) (k : Fin 8), Live s ∧ s.chip.coreState k.1 ≠ 3 :=
  ⟨st base, 3, by decide⟩

set_option maxRecDepth 100000 in
theorem meets_PowerStates_5 : ∃ (s : State), Live s ∧ s.chip.on F.psmCtrl_AUTO = true ∧ s.chip.deepest = 1 ∧ s.chip.fld
    F.psmStat_STATE = 0 ∧ s.chip.psm.leaving = false :=
  ⟨st sleepBase, by decide⟩

set_option maxRecDepth 100000 in
theorem meets_PowerStates_6 : ∃ (s : State) (n : Nat), Live s ∧ s.chip.on F.psmCtrl_AUTO = true ∧ s.chip.deepest = n ∧ 2 ≤ n
    ∧ s.chip.fld F.psmStat_STATE < n ∧ s.chip.psm.leaving = false ∧ s.chip.runningHeads ≠ [] :=
  ⟨st headSleep, 2, by decide⟩

set_option maxRecDepth 100000 in
theorem meets_PowerStates_7 : ∃ (s : State) (t : Chip), Live s ∧ s.chip.on F.psmCtrl_AUTO = true ∧ s.chip.deepest = 2 ∧
    s.chip.fld F.psmStat_STATE = 0 ∧ s.chip.psm.leaving = false ∧ s.chip.runningHeads = [] ∧ s.chip.updPsm (fun p =>
    { p with saved := s.chip.domsOn }) = t :=
  ⟨st (sleepBase.setFld F.psmCtrl_MAXSTATE 0 0 2), (sleepBase.setFld F.psmCtrl_MAXSTATE 0 0 2).updPsm (fun p => { p with saved := (sleepBase.setFld F.psmCtrl_MAXSTATE 0 0 2).domsOn }), by decide, by decide, by decide, by decide, by decide, by decide, rfl⟩

set_option maxRecDepth 100000 in
theorem meets_PowerStates_8 : ∃ (s : State), Live s ∧ s.chip.on F.psmCtrl_AUTO = false ∨ s.chip.deepest ≤ s.chip.fld
    F.psmStat_STATE ∨ s.chip.psm.leaving = true :=
  ⟨st base, by decide⟩

theorem meets_PowerStates_9 : ∃ (s : State), Live s ∧ s.chip.wakes = [] :=
  ⟨st base, by decide⟩

theorem meets_PowerStates_10 : ∃ (s : State) (k : Nat) (p : Nat) (a : Nat) (rest : List (Nat × Nat × Nat)), Live s ∧
    s.chip.wakes = (k, p, a) :: rest ∧ s.chip.psm.leaving = false ∧ s.chip.psm.tripped = false ∧ s.chip.fld F.psmStat_TARGET
    = 0 ∧ s.chip.fld F.psmStat_STATE ≠ 4 :=
  ⟨st { base.setFld F.psmStat_STATE 0 0 2 with wakes := [(4, 0, 9)] }, 4, 0, 9, [], by decide⟩

theorem meets_PowerStates_11 : ∃ (s : State) (k : Nat) (p : Nat) (a : Nat) (rest : List (Nat × Nat × Nat)), Live s ∧
    s.chip.wakes = (k, p, a) :: rest ∧ s.chip.psm.leaving = false ∧ s.chip.psm.tripped = false ∧ s.chip.fld F.psmStat_TARGET
    ≠ 0 :=
  ⟨st { base.setFld F.psmStat_TARGET 0 0 2 with wakes := [(4, 0, 9)] }, 4, 0, 9, [], by decide⟩

theorem meets_PowerStates_12 : ∃ (s : State) (t : Chip), Live s ∧ s.chip.psm.leaving = true ∧ s.chip.psm.quiet = false ∧
    s.chip.psm.cause ≠ 0 ∧ s.chip.boot.due = none ∧ s.chip.fld F.psmStat_STATE ≠ 4 ∧ (s.chip.unitsBack.setFld
    F.psmStat_STATE 0 0 0).updPsm (fun q => { q with leaving := false, quiet := false }) = t :=
  ⟨st { base.setFld F.psmStat_STATE 0 0 2 with psm := { base.psm with leaving := true, cause := 4 } }, ((({ base.setFld F.psmStat_STATE 0 0 2 with psm := { base.psm with leaving := true, cause := 4 } } : Chip)).unitsBack.setFld F.psmStat_STATE 0 0 0).updPsm (fun q => { q with leaving := false, quiet := false }), by decide, by decide, by decide, by decide, by decide, by decide, rfl⟩

theorem meets_PowerStates_13 : ∃ (s : State), Live s ∧ s.chip.psm.leaving = false :=
  ⟨st base, by decide⟩

theorem meets_PowerStates_14 : ∃ (s : State), Live s ∧ s.chip.on F.psmAlarmCtrl_EN = true ∧ reached s.chip.now (s.chip.fld64
    F.psmAlarmLo_T F.psmAlarmHi_T) = true :=
  ⟨st (base.setFld F.psmAlarmCtrl_EN 0 0 1), by decide⟩

theorem meets_PowerStates_15 : ∃ (s : State), Live s ∧ s.chip.on F.psmAlarmCtrl_EN = false ∨ reached s.chip.now
    (s.chip.fld64 F.psmAlarmLo_T F.psmAlarmHi_T) = false :=
  ⟨st base, by decide⟩

theorem meets_PowerStates_16 : ∃ (s : State) (m : Master), Live s ∧ Served s.chip m .psmWake 0 0 true ∧ s.chip.fld
    F.psmStat_STATE = 2 :=
  ⟨st (base.setFld F.psmStat_STATE 0 0 2), .own 9, by decide⟩

theorem meets_PowerStates_17 : ∃ (s : State) (m : Master) (v : BitVec 32) (t : Chip), Live s ∧ Served s.chip m .psmCtrl 0 0
    true ∧ [F.psmCtrl_AUTO, F.psmCtrl_MAXSTATE, F.psmCtrl_ENTRY_DLY, F.psmCtrl_GATE_DLY].foldl (fun t f => t.writeFld f 0 0
    (v.toNat % 2 ^ 30 + 2 ^ 30 + v.toNat / 2 ^ 31 * 2 ^ 31)) s.chip = t :=
  ⟨st base, .own 9, 0, [F.psmCtrl_AUTO, F.psmCtrl_MAXSTATE, F.psmCtrl_ENTRY_DLY, F.psmCtrl_GATE_DLY].foldl (fun t f => t.writeFld f 0 0 (2 ^ 30)) base, by decide⟩

theorem meets_PowerStates_18 : ∃ (s : State), Live s ∧ s.chip.exitLat (s.chip.fld F.psmStat_STATE) ≤ s.chip.effTol ∨
    s.chip.fld F.psmStat_STATE = 0 ∨ s.chip.psm.leaving = true ∨ s.chip.psm.tripped = true :=
  ⟨st base, by decide⟩

theorem meets_PowerStates_19 : ∃ (s : State), Live s ∧ s.chip.fld F.psmStat_STATE = 1 ∧ s.chip.effTol < 2 ∧
    s.chip.psm.leaving = false ∧ s.chip.psm.tripped = false :=
  ⟨st (base.setFld F.psmStat_STATE 0 0 1), by decide⟩

theorem meets_PowerStates_20 : ∃ (s : State), Live s ∧ s.chip.fld F.psmStat_STATE = 4 ∧ s.chip.effTol < s.chip.fld
    F.psmS4lat_US ∧ s.chip.psm.leaving = false ∧ s.chip.psm.tripped = false :=
  ⟨st ((base.setFld F.psmStat_STATE 0 0 4).setFld F.psmS4lat_US 0 0 5), by decide⟩

theorem meets_ThermalAndVcore_1 : ∃ (s : State) (tj : Int), Live s ∧ 440 ≤ tj :=
  ⟨st base, 450, by decide⟩

theorem meets_ThermalAndVcore_2 : ∃ (s : State) (tj : Int), Live s ∧ tj < 440 :=
  ⟨st base, 400, by decide⟩

theorem meets_ThermalAndVcore_3 : ∃ (s : State) (tj : Int) (t : Chip), Live s ∧ 480 ≤ tj ∧ ((((s.chip.takeTemp tj).psmStick
    F.psmStat_THERM_HI).psmStick F.psmStat_THERM_TRIP).setParked true).setDoms (List.range 66) false = t :=
  ⟨st base, 500, ((((base.takeTemp 500).psmStick F.psmStat_THERM_HI).psmStick F.psmStat_THERM_TRIP).setParked true).setDoms (List.range 66) false, by decide, by decide, rfl⟩

theorem meets_ThermalAndVcore_4 : ∃ (s : State) (tj : Int), Live s ∧ tj < 480 :=
  ⟨st base, 400, by decide⟩

theorem meets_ThermalAndVcore_5 : ∃ (s : State) (tj : Int), Live s ∧ tj ≤ 400 ∧ s.chip.psm.tripped = true ∧ s.chip.boot.due
    = none :=
  ⟨st { base with psm := { base.psm with tripped := true } }, 390, by decide⟩

theorem meets_ThermalAndVcore_6 : ∃ (s : State) (tj : Int), Live s ∧ 400 < tj ∨ s.chip.psm.tripped = false :=
  ⟨st base, 390, by decide⟩

theorem meets_ThermalAndVcore_7 : ∃ (s : State) (paces : List Nat) (ack : Bool), Live s ∧ s.chip.on F.psmAvs_AVS_EN = false
    :=
  ⟨st (base.setFld F.psmAvs_AVS_EN 0 0 0), [], true, by decide⟩

theorem meets_ThermalAndVcore_8 : ∃ (s : State) (paces : List Nat) (ack : Bool) (t : Chip) (k : Nat), Live s ∧ s.chip.on
    F.psmAvs_AVS_EN = true ∧ s.chip.psm.noAvs = false ∧ s.chip.fld F.psmStat_STATE < 3 ∧ paces ≠ [] ∧ (List.range 16).foldl
    (fun t m => t.setFld F.psmPace_PACE m 0 (paces.getD m 0)) s.chip = t ∧ (List.range 16).foldl (fun a k => min a (t.fld
    F.psmPace_PACE k)) 0xFFFF = k ∧ k * 400 < s.chip.fld F.psmPaceref_G * (400 + s.chip.fld F.psmAvs_MARGIN) ∧ s.chip.fld
    F.psmVcore_REQ + 10 < s.chip.fld F.psmVlim_VMAX ∧ s.chip.fld F.psmVlim_VMAX < 2 ^ 16 ∧ ack = true :=
  ⟨st (((base.setFld F.psmAvs_AVS_EN 0 0 1).setFld F.psmPaceref_G 0 0 100).setFld F.psmVcore_REQ 0 0 700), [5], true, (List.range 16).foldl (fun t m => t.setFld F.psmPace_PACE m 0 (([5] : List Nat).getD m 0)) (((base.setFld F.psmAvs_AVS_EN 0 0 1).setFld F.psmPaceref_G 0 0 100).setFld F.psmVcore_REQ 0 0 700), 0, by decide, by decide, by decide, by decide, by decide, rfl, by decide, by decide, by decide, by decide, by decide⟩

theorem meets_ThermalAndVcore_9 : ∃ (s : State), Live s :=
  ⟨st base, by decide⟩
end Sys2Proof.Tests
end

/-! The register space takes aligned 32-bit accesses only (spec/01_one_frame.md, R26). -/

namespace Sys2Proof.Machine

/-- With power-on reset released, an access given to the fabric is submitted on the chip. -/
theorem exec_fabricAccess_given {s : State} (h : Live s) (m : Master) (wr p : Bool) (a : BitVec 40) (n : Nat)
    (d : BitVec 128) :
    exec (.fabricAccess (.given m wr p a n d)) s = .next (s.withChip (s.chip.submit (given m wr a.toNat n d.toNat p))) :=
  calc exec (.fabricAccess (.given m wr p a n d)) s
    _ = s.act fun c => c.fabricOp (.given m wr p a n d) := rfl
    _ = _ := State.act_live h _

/-- A write of a register of this package is a write of four bytes submitted at its address. -/
theorem Chip.submit_given_write (s : Chip) (m : Master) (id : RegId) (i j v : Nat) :
    s.submit (given m true (s.localAddr (id.addr i j)) 4 v false) = s.regWrite m id i j v := rfl

/-- A read of a register of this package is a read of four bytes submitted at its address. -/
theorem Chip.submit_given_read (s : Chip) (m : Master) (id : RegId) (i j : Nat) :
    s.submit (given m false (s.localAddr (id.addr i j)) 4 0 false) = s.regRead m id i j := rfl

/-- The register space performs no access that is not an aligned one of four bytes: the chip stays as it was. -/
theorem Chip.perform_reg_misfit (s : Chip) {la n : Nat} (hr : 0x3C000000 ≤ la) (hn : n ≠ 4 ∨ la % 4 ≠ 0) (m : Master)
    (wr : Bool) (v : Nat) (p : Bool) : s.perform m la n wr v p = (.decode, 0, s) := by
  unfold Chip.perform
  rw [if_pos hr, if_pos hn]

/-- Such an access to this package, which nothing holds back, ends at once with DECODE. -/
theorem Chip.submit_reg_misfit {s : Chip} {a : Access} (hf : Free s a) (hc : a.addr / 2 ^ 30 = s.chipNo)
    (hr : 0x3C000000 ≤ a.addr % 2 ^ 30) (hn : a.size ≠ 4 ∨ a.addr % 4 ≠ 0) : s.submit a = s.respond a .decode 0 := by
  have hn' : a.size ≠ 4 ∨ a.addr % 2 ^ 30 % 4 ≠ 0 := by omega
  rw [Chip.submit_reg hf hc hr, s.perform_reg_misfit hr hn']
  rfl

/-- Settles O13: an access that does not fit is answered DECODE before any register is decoded; a served one is the
register's write or read. -/
theorem registerSpaceAccesses : Obligations.RegisterSpaceAccesses := by
  unfold Obligations.RegisterSpaceAccesses
  refine ⟨?misfit, ?write, ?read⟩
  case misfit =>
    intro s m wr p a n d hl hc hr hn hf
    rw [exec_fabricAccess_given hl, Chip.submit_reg_misfit hf hc hr hn]
  case write =>
    intro s m id i j a d hl hs ha
    rw [exec_fabricAccess_given hl, ha, Chip.submit_given_write, Chip.regWrite_served hs]
  case read =>
    intro s m id i j a hl hs ha
    have hz : (0 : BitVec 128).toNat = 0 := rfl
    rw [exec_fabricAccess_given hl, ha, hz, Chip.submit_given_read, Chip.regRead_served hs]

end Sys2Proof.Machine

/-! A write to CPS_FSIG signals a fence, whoever the master is (spec/04_chasing.md, R128). -/

namespace Sys2Proof.Machine

/-- With power-on reset released, the command is the master's write of CPS_FSIG. -/
theorem exec_fenceSignal {s : State} (h : Live s) (m : Master) (f : BitVec 8) :
    exec (.fenceSignal m f) s = .next (s.withChip (s.chip.regWrite m .cpsFsig 0 0 f.toNat)) :=
  calc exec (.fenceSignal m f) s
    _ = s.act fun c => c.regWrite m .cpsFsig 0 0 f.toNat := rfl
    _ = _ := State.act_live h _

/-- The effect of a write to CPS_FSIG: the fence that bits [7:0] name is signalled. -/
theorem Chip.writeReg_cpsFsig (s : Chip) (m : Master) (i j v : Nat) :
    s.writeReg m .cpsFsig i j v = s.fenceSignal (v % 256) := rfl

/-- CPS_FSIG is no register of the audio block, so a write to it finds the chip as it stands. -/
theorem Chip.taken_cpsFsig (s : Chip) : s.taken .cpsFsig = s := by
  unfold Chip.taken
  exact if_neg (by decide)

/-- A served write to CPS_FSIG signals the fence it names. -/
theorem Chip.regWrite_cpsFsig {s : Chip} {m : Master} (h : Served s m .cpsFsig 0 0 true) (f : BitVec 8) :
    s.regWrite m .cpsFsig 0 0 f.toNat = (s.fenceSignal f.toNat).afterWrite s m .cpsFsig 0 0 f.toNat := by
  have hf : f.toNat % 2 ^ 32 % 256 = f.toNat := by omega
  rw [Chip.regWrite_served h, Chip.taken_cpsFsig, Chip.writeReg_cpsFsig, hf]

/-- A fence not yet signalled takes SIG alone. -/
theorem Chip.fenceSignal_unsignalled {s : Chip} {f : Nat} (h : s.on F.cpsFence_SIG f = false) :
    s.fenceSignal f = s.setFld F.cpsFence_SIG f 0 1 := by
  unfold Chip.fenceSignal
  exact if_neg (by simp [h])

/-- A fence already signalled keeps SIG and takes OVR. -/
theorem Chip.fenceSignal_signalled {s : Chip} {f : Nat} (h : s.on F.cpsFence_SIG f = true) :
    s.fenceSignal f = s.setFld F.cpsFence_OVR f 0 1 := by
  unfold Chip.fenceSignal
  exact if_pos h

/-- Settles O28: the command is a served write to CPS_FSIG, and the two cases of R128 are those of the fence's SIG. -/
theorem fenceSignals : Obligations.FenceSignals := by
  unfold Obligations.FenceSignals
  refine ⟨?unsignalled, ?signalled⟩
  case unsignalled =>
    intro s m f hl hs hf
    rw [exec_fenceSignal hl, Chip.regWrite_cpsFsig hs, Chip.fenceSignal_unsignalled hf]
  case signalled =>
    intro s m f hl hs hf
    rw [exec_fenceSignal hl, Chip.regWrite_cpsFsig hs, Chip.fenceSignal_signalled hf]

end Sys2Proof.Machine

/-! A supervised region takes writes of master identity 0x11 alone, and reads of every master (spec/05_hallmarks.md,
R149). -/

namespace Sys2Proof.Machine

/-- With power-on reset released, the command at a register's address is the master's write of that register. -/
theorem exec_registerWrite_at {s : State} (h : Live s) (m : Master) {id : RegId} {i j : Nat} {a : BitVec 40}
    (ha : a.toNat = s.chip.localAddr (id.addr i j)) (v : BitVec 32) :
    exec (.registerWrite m a v) s = .next (s.withChip (s.chip.regWrite m id i j v.toNat)) :=
  calc exec (.registerWrite m a v) s
    _ = s.act fun c => c.direct m true a.toNat 4 v.toNat := rfl
    _ = .next (s.withChip (s.chip.direct m true a.toNat 4 v.toNat)) := State.act_live h _
    _ = _ := by rw [ha, Chip.regWrite]

/-- With power-on reset released, the command at a register's address is the master's read of that register. -/
theorem exec_rcRead_at {s : State} (h : Live s) (m : Master) {id : RegId} {i j : Nat} {a : BitVec 40}
    (ha : a.toNat = s.chip.localAddr (id.addr i j)) :
    exec (.rcRead m a) s = .next (s.withChip (s.chip.regRead m id i j)) :=
  calc exec (.rcRead m a) s
    _ = s.act fun c => c.direct m false a.toNat 4 0 := rfl
    _ = .next (s.withChip (s.chip.direct m false a.toNat 4 0)) := State.act_live h _
    _ = _ := by rw [ha, Chip.regRead]

/-- The registers of a region lie in the hallmarks' own block: neither the audio engine nor the mailboxes hold one. -/
theorem RegionReg.block {id : RegId} (h : RegionReg id) : id.block = .hmk := by
  revert id
  decide

/-- A write to a register of a region finds the chip as it stands. -/
theorem Chip.taken_region (s : Chip) {id : RegId} (h : RegionReg id) : s.taken id = s := by
  unfold Chip.taken
  exact if_neg (by simp [h.block])

/-- Every register of a region is written through the one rule for regions, the read-only ones too. -/
theorem Chip.writeReg_region (s : Chip) (m : Master) {id : RegId} (h : RegionReg id) (n r v : Nat) :
    s.writeReg m id n r v = s.writeRegion m id n r v := by
  simp only [RegionReg, List.mem_cons, List.not_mem_nil, or_false] at h
  rcases h with rfl | rfl | rfl | rfl | rfl | rfl | rfl | rfl | rfl | rfl | rfl | rfl | rfl | rfl <;> rfl

/-- Outside the mailboxes, whether a unit refuses an access does not depend on the master. -/
theorem Chip.regRefuses_master (s : Chip) (m m' : Master) {id : RegId} (h : id.block ≠ .mbx) (i : Nat) (w : Bool) :
    s.regRefuses m id i w = s.regRefuses m' id i w := by
  simp only [Chip.regRefuses, if_neg h]

/-- Outside the mailboxes, a register that answers one master answers another whom no earlier write of its own holds
back. -/
theorem Served.of_master {c : Chip} {m m' : Master} {id : RegId} {i j : Nat} {w : Bool} (h : Served c m id i j w)
    (hb : id.block ≠ .mbx) (hf : Free c (given m' w (c.localAddr (id.addr i j)) 4 0 false)) : Served c m' id i j w := by
  obtain ⟨hdec, halign, hlo, hhi, hfab, hunit, -⟩ := h
  exact ⟨hdec, halign, hlo, hhi, hfab, (c.regRefuses_master m' m hb i w).trans hunit, hf⟩

/-- A write is turned away where either copy of SUPV is 1 and the master is not 0x11. -/
theorem Chip.supvBars_iff (s : Chip) (m : Master) (n r : Nat) :
    s.supvBars m n r = true ↔ (s.on F.hmkCfg_SUPV n r = true ∨ (s.region n r).act.supv = true) ∧ m ≠ .own 0x11 := by
  simp [Chip.supvBars]

/-- A write that is turned away sets WR_REJ, whose change raises the head's hallmark event, and does nothing else. -/
theorem Chip.writeRegion_barred {s : Chip} {m : Master} {n r : Nat} (h : s.supvBars m n r = true) (id : RegId) (v : Nat) :
    s.writeRegion m id n r v =
      if s.on F.hmkStat_WR_REJ n r then s else (s.setFld F.hmkStat_WR_REJ n r 1).raise (13 * n + 12) :=
  calc s.writeRegion m id n r v
    _ = s.hmkStat F.hmkStat_WR_REJ n r := if_pos h
    _ = _ := rfl

/-- Settles O14: every register of the region is written through the rule that SUPV bars first; a read is refused or
not without a look at the master. -/
theorem supervisedRegions : Obligations.SupervisedRegions := by
  unfold Obligations.SupervisedRegions
  refine ⟨?write, ?read⟩
  case write =>
    intro s m id h r a v hl hs hid ha hsupv hm
    have hbar : s.chip.supvBars m h r = true :=
      (s.chip.supvBars_iff m h r).mpr ⟨hsupv.imp_left fun hp => by simp [Chip.on, hp], hm⟩
    rw [exec_registerWrite_at hl m ha, Chip.regWrite_served hs, Chip.taken_region _ hid, Chip.writeReg_region _ m hid,
      Chip.writeRegion_barred hbar]
  case read =>
    intro s m id h r a hl hs hf hid ha
    have hsm : Served s.chip m id h r false := hs.of_master (by simp [hid.block]) (ha ▸ hf)
    rw [exec_rcRead_at hl m ha, Chip.regRead_served hsm]

end Sys2Proof.Machine

/-! The step, the commands' outcomes, and what power-on reset holds off (spec/17_balls_supplies.md, R523, R526). -/

namespace Sys2Proof.Machine

/-- Settles O1: the two branches of a step, on a queue with a front and on an empty one. -/
theorem stepRunsFront : Obligations.StepRunsFront := by
  unfold Obligations.StepRunsFront
  refine ⟨?front, ?empty⟩
  case front =>
    intro s i rest h
    simp only [step, h]
  case empty =>
    intro s h
    simp only [step, h]

/-- An effect on the chip, held off by power-on reset or not, leaves the queue. -/
theorem State.act_pending (s : State) (f : Chip → Chip) : ∃ t, s.act f = .next t ∧ t.pending = s.pending :=
  ⟨_, rfl, by split <;> rfl⟩

theorem State.always_pending (s : State) (f : Chip → Chip) : ∃ t, s.always f = .next t ∧ t.pending = s.pending :=
  ⟨_, rfl, rfl⟩

/-- So do the three commands over what stands around the chip. -/
theorem exec_outside_pending (i : Instr) (s : State) (h : outside i = true) :
    ∃ t, exec i s = .next t ∧ t.pending = s.pending := by
  cases i
  case powerOnReset lost => exact ⟨_, rfl, rfl⟩
  case powerOnResetRelease straps => exact ⟨_, rfl, by split <;> rfl⟩
  case testmode high => exact ⟨_, rfl, by split <;> rfl⟩
  all_goals contradiction

/-- Settles O2: a command acts on the chip alone, or is one of the three that move the supply. -/
theorem commandsNeverStop : Obligations.CommandsNeverStop := by
  unfold Obligations.CommandsNeverStop
  intro i s
  cases hi : outside i
  case false =>
    rcases exec_chip i s hi with ⟨f, hf⟩ | ⟨f, hf⟩
    · exact hf ▸ s.act_pending f
    · exact hf ▸ s.always_pending f
  case true => exact exec_outside_pending i s hi

/-- A command that acts on the chip alone leaves the supply. -/
theorem exec_chip_sup {i : Instr} {s t : State} (h : outside i = false) (ht : exec i s = .next t) : t.sup = s.sup := by
  rcases exec_chip i s h with ⟨f, hf⟩ | ⟨f, hf⟩
  · exact State.act_sup (hf.symm.trans ht)
  · exact State.always_sup (hf.symm.trans ht)

/-- Power-on reset's release is held off by TESTMODE, and what begins the reset leaves it held. -/
theorem exec_outside_testmode {i : Instr} {s t : State} (h : outside i = true) (hs : TestmodeInv s)
    (ht : exec i s = .next t) : TestmodeInv t := by
  cases i
  case powerOnReset lost =>
    cases ht
    exact fun _ => rfl
  case powerOnResetRelease straps =>
    cases ht
    split
    · next hr =>
      have hlow : s.sup.testmode = false := by simpa using hr.2
      simp [TestmodeInv, hlow]
    · exact hs
  case testmode high =>
    cases ht
    cases high
    · exact fun hm => nomatch hm
    · exact fun _ => rfl
  all_goals contradiction

/-- Settles O3: only the three commands over the supply could break the invariant, and they keep it. -/
theorem testmodeKept : Obligations.TestmodeKept := by
  unfold Obligations.TestmodeKept
  intro s t hs ht
  cases hq : s.pending with
  | nil =>
    rw [stepRunsFront.2 s hq] at ht
    cases ht
    exact hs
  | cons i rest =>
    rw [stepRunsFront.1 s i rest hq] at ht
    have hrest : TestmodeInv { s with pending := rest } := hs
    cases hi : outside i
    case false =>
      have hsup : t.sup = s.sup := exec_chip_sup (s := { s with pending := rest }) hi ht
      simpa only [TestmodeInv, hsup] using hs
    case true => exact exec_outside_testmode hi hrest ht

/-- Settles O4: the fields' reset values, and the invariants of a state with nothing listed. -/
theorem resetState : Obligations.ResetState := by
  unfold Obligations.ResetState
  refine ⟨?registers, ?invariants⟩
  case registers => decide
  case invariants => exact ⟨fun _ => by contradiction, Memory.wf_nil, rfl, rfl, rfl, rfl⟩

/-- Settles O5: every such command is an effect that power-on reset holds off. -/
theorem powerOnResetHolds : Obligations.PowerOnResetHolds := by
  unfold Obligations.PowerOnResetHolds
  intro s i hpor hi
  obtain ⟨f, hf⟩ := exec_act i s hi
  rw [hf]
  simp [State.act, hpor]

end Sys2Proof.Machine

/-! What an effect leaves of the stores: one law per operation that writes none (spec/11_fabric_stores.md). They stand in the
order in which the model builds the operations, so that each follows from those of the operations it is made of. -/

namespace Sys2Proof.Machine

variable (s : Chip)

/-- The stores of t are listed as those of s are. Chains of steps are compared by it: as a structure of its own, it lets
two forms of one step be compared without a look at what the step does. -/
structure Chip.MemSame (t s : Chip) : Prop where
  mem : t.mem = s.mem

@[simp] theorem Chip.memSame_iff (t s : Chip) : Chip.MemSame t s ↔ t.mem = s.mem := ⟨fun h => h.mem, fun h => ⟨h⟩⟩

/-- A choice between two chips reads its stores from the one chosen. -/
@[simp] theorem Chip.mem_ite {c : Prop} [Decidable c] (a b : Chip) : (if c then a else b).mem = if c then a.mem else b.mem :=
  apply_ite _ _ _ _

/-- A chain of steps that each leave the stores leaves them. -/
@[simp] theorem Chip.mem_foldl {α : Type} {f : Chip → α → Chip} (h : ∀ t a, Chip.MemSame (f t a) t) (l : List α)
    (s : Chip) : (l.foldl f s).mem = s.mem := by
  induction l generalizing s with
  | nil => rfl
  | cons a l ih => exact (ih _).trans (h s a).mem

/-- The same of a chain that gathers something beside the chip. -/
@[simp] theorem Chip.mem_foldl_snd {α β : Type} {f : β × Chip → α → β × Chip} (h : ∀ q a, Chip.MemSame (f q a).2 q.2)
    (l : List α) (q : β × Chip) : (l.foldl f q).2.mem = q.2.mem := by
  induction l generalizing q with
  | nil => rfl
  | cons a l ih => exact (ih _).trans (h q a).mem

/-- An answer leaves the stores as what it answers left them. -/
@[simp] theorem Chip.answer_mem (a : Access) (r : RespKind × Nat × Chip) : (Chip.answer a r).mem = r.2.2.mem := rfl
@[simp] theorem Chip.deny_mem (c : Nat) : (s.deny c).mem = s.mem := by simp [Chip.deny]
@[simp] theorem Chip.setOn_mem (f : Fd) (i j : Nat) (b : Bool) : (s.setOn f i j b).mem = s.mem := rfl
@[simp] theorem Chip.setDmaState_mem (c v : Nat) : (s.setDmaState c v).mem = s.mem := rfl
@[simp] theorem Chip.dmaRequest_mem (c : Nat) : (s.dmaRequest c).mem = s.mem := by simp [Chip.dmaRequest]
@[simp] theorem Chip.dmaLevels_mem : (s.dmaLevels).mem = s.mem := by simp [Chip.dmaLevels]
@[simp] theorem Chip.takePad_mem : (s.takePad).mem = s.mem := rfl
@[simp] theorem Chip.setParked_mem (b : Bool) : (s.setParked b).mem = s.mem := rfl
@[simp] theorem Chip.setDom_mem (d : Nat) (on : Bool) : (s.setDom d on).mem = s.mem := rfl
@[simp] theorem Chip.resetTo_mem (cold : Bool) (due : Nat) : (s.resetTo cold due).mem = s.mem := by simp [Chip.resetTo]
@[simp] theorem Chip.beginReset_mem (kind : Nat) : (s.beginReset kind).mem = s.mem := by simp [Chip.beginReset]
@[simp] theorem Chip.doReset_mem (kind : Nat) (cause : Fd) : (s.doReset kind cause).mem = s.mem := by
  unfold Chip.doReset
  split <;> simp
@[simp] theorem Chip.writeSysReset_mem (v : Nat) : (s.writeSysReset v).mem = s.mem := by simp [Chip.writeSysReset]
@[simp] theorem Chip.wdogKick_mem (v : Nat) : (s.wdogKick v).mem = s.mem := by simp [Chip.wdogKick]
@[simp] theorem Chip.leaveIdle_mem : (s.leaveIdle).mem = s.mem := by simp [Chip.leaveIdle]
@[simp] theorem Chip.wakeSource_mem (cause port : Nat) : (s.wakeSource cause port).mem = s.mem := by simp [Chip.wakeSource]
@[simp] theorem Chip.wakeCore_mem (c k : Nat) : (s.wakeCore c k).mem = s.mem := by simp [Chip.wakeCore]
@[simp] theorem Chip.settle_mem : (s.settle).mem = s.mem := by simp [Chip.settle]
@[simp] theorem Chip.setCoreState_mem (k st : Nat) : (s.setCoreState k st).mem = s.mem := by simp [Chip.setCoreState]
@[simp] theorem Chip.coreReset_mem (k : Nat) : (s.coreReset k).mem = s.mem := by simp [Chip.coreReset]
@[simp] theorem Chip.coreHalt_mem (k : Nat) : (s.coreHalt k).mem = s.mem := by
  unfold Chip.coreHalt
  split <;> simp
@[simp] theorem Chip.coreRun_mem (k : Nat) : (s.coreRun k).mem = s.mem := by simp [Chip.coreRun]
@[simp] theorem Chip.coreStep_mem (k : Nat) : (s.coreStep k).mem = s.mem := by simp [Chip.coreStep]
@[simp] theorem Chip.writeCoreCtrl_mem (k v : Nat) : (s.writeCoreCtrl k v).mem = s.mem := by simp [Chip.writeCoreCtrl]
@[simp] theorem Chip.writeFld_mem (f : Fd) (i j v : Nat) : (s.writeFld f i j v).mem = s.mem := by simp [Chip.writeFld]
@[simp] theorem Chip.writePsmCtrl_mem (v : Nat) : (s.writePsmCtrl v).mem = s.mem := by simp [Chip.writePsmCtrl]
@[simp] theorem Chip.writePsmWake_mem (v : Nat) : (s.writePsmWake v).mem = s.mem := by simp [Chip.writePsmWake]
@[simp] theorem Chip.writeVlim_mem (v : Nat) : (s.writeVlim v).mem = s.mem := by simp [Chip.writeVlim]
@[simp] theorem Chip.dropIngot_mem (h : Nat) : (s.dropIngot h).mem = s.mem := rfl
@[simp] theorem Chip.bump_mem (cnt sat : Fd) (i j n : Nat) : (s.bump cnt sat i j n).mem = s.mem := by simp [Chip.bump]
@[simp] theorem Chip.raiseHop_mem (p hop : Nat) : (s.raiseHop p hop).mem = s.mem := by simp [Chip.raiseHop]
@[simp] theorem Chip.raise_mem (p : Nat) : (s.raise p).mem = s.mem := rfl
@[simp] theorem Chip.stick_mem (f : Fd) (i p j : Nat) : (s.stick f i p j).mem = s.mem := by simp [Chip.stick]
@[simp] theorem Chip.asyStick_mem (f : Fd) : (s.asyStick f).mem = s.mem := by simp [Chip.asyStick]
@[simp] theorem Chip.enterResult_mem (code cls index phys detail : Nat) : (s.enterResult code cls index phys detail).mem = s.mem := by simp [Chip.enterResult]
@[simp] theorem Chip.asyPower_mem (cls p : Nat) (on : Bool) : (s.asyPower cls p on).mem = s.mem := by
  unfold Chip.asyPower
  dsimp only
  split <;> simp
@[simp] theorem Chip.asyAbort_mem : (s.asyAbort).mem = s.mem := by simp [Chip.asyAbort]
@[simp] theorem Chip.writeAsyReq_mem (v : Nat) : (s.writeAsyReq v).mem = s.mem := by simp [Chip.writeAsyReq]
@[simp] theorem Chip.writeResPop_mem (v : Nat) : (s.writeResPop v).mem = s.mem := by simp [Chip.writeResPop]
@[simp] theorem Chip.writeLgrPop_mem (v : Nat) : (s.writeLgrPop v).mem = s.mem := by simp [Chip.writeLgrPop]
@[simp] theorem Chip.setHold_mem (b : Bool) : (s.setHold b).mem = s.mem := by simp [Chip.setHold]
@[simp] theorem Chip.audStick_mem (f : Fd) : (s.audStick f).mem = s.mem := by simp [Chip.audStick]
@[simp] theorem Chip.writeAudCtrl_mem (v : Nat) : (s.writeAudCtrl v).mem = s.mem := by simp [Chip.writeAudCtrl]
@[simp] theorem Chip.dmaSettle_mem (c : Nat) : (s.dmaSettle c).mem = s.mem := by simp [Chip.dmaSettle]
@[simp] theorem Chip.dmaHalting_mem (c : Nat) : (s.dmaHalting c).mem = s.mem := by simp [Chip.dmaHalting]
@[simp] theorem Chip.dmaHalt_mem (c : Nat) : (s.dmaHalt c).mem = s.mem := by simp [Chip.dmaHalt]
@[simp] theorem Chip.setPsqState_mem (q v : Nat) : (s.setPsqState q v).mem = s.mem := rfl
@[simp] theorem Chip.psqStopHere_mem (q : Nat) : (s.psqStopHere q).mem = s.mem := rfl
@[simp] theorem Chip.psqHalt_mem (q : Nat) : (s.psqHalt q).mem = s.mem := by simp [Chip.psqHalt]
@[simp] theorem Chip.writeMaint_mem (m : Master) (v : Nat) : (s.writeMaint m v).mem = s.mem := by simp [Chip.writeMaint]
@[simp] theorem Chip.w1c_mem (f : Fd) (i j v : Nat) : (s.w1c f i j v).mem = s.mem := rfl
@[simp] theorem Chip.writeFabStat_mem (v : Nat) : (s.writeFabStat v).mem = s.mem := by simp [Chip.writeFabStat]
@[simp] theorem Chip.writeElogPop_mem (v : Nat) : (s.writeElogPop v).mem = s.mem := by simp [Chip.writeElogPop]
@[simp] theorem Chip.spareFail_mem (reason : Nat) : (s.spareFail reason).mem = s.mem := by simp [Chip.spareFail]
@[simp] theorem Chip.spareBegin_mem (r : Repair) : (s.spareBegin r).mem = s.mem := rfl
@[simp] theorem Chip.writeSpareCmd_mem (v : Nat) : (s.writeSpareCmd v).mem = s.mem := by
  simp [Chip.writeSpareCmd]
  split <;> simp
@[simp] theorem Chip.writeSrc_mem (i v : Nat) : (s.writeSrc i v).mem = s.mem := by simp [Chip.writeSrc]
@[simp] theorem Chip.clearSource_mem (n : Nat) : (s.clearSource n).mem = s.mem := by simp [Chip.clearSource]
@[simp] theorem Chip.writePend_mem (w v : Nat) : (s.writePend w v).mem = s.mem := by simp [Chip.writePend]
@[simp] theorem Chip.raiseSource_mem (n : Nat) : (s.raiseSource n).mem = s.mem := by simp [Chip.raiseSource]
@[simp] theorem Chip.setPri_mem (k v : Nat) : (s.setPri k v).mem = s.mem := by simp [Chip.setPri]
@[simp] theorem Chip.setTx_mem (id i v : Nat) : (s.setTx id i v).mem = s.mem := by simp [Chip.setTx]
@[simp] theorem Chip.msgTrigger_mem (k : Nat) (recv : Bool) (c : Nat) : (s.msgTrigger k recv c).mem = s.mem := rfl
@[simp] theorem Chip.setMsgs_mem (c : Nat) (l : List Msg) : (s.setMsgs c l).mem = s.mem := rfl
@[simp] theorem Chip.setRx_mem (id : Nat) (words : List Nat) : (s.setRx id words).mem = s.mem := by simp [Chip.setRx]
@[simp] theorem Chip.setMstat_mem (id : Nat) (recv : Bool) (c level code : Nat) : (s.setMstat id recv c level code).mem = s.mem := by simp [Chip.setMstat]
@[simp] theorem Chip.recvStep_mem (id c : Nat) : (s.recvStep id c).mem = s.mem := by
  unfold Chip.recvStep
  dsimp only
  split <;> simp
@[simp] theorem Chip.tolMessage_mem (w0 : Nat) : (s.tolMessage w0).mem = s.mem := by simp [Chip.tolMessage]
@[simp] theorem Chip.doorbell_mem (rx : Nat) : (s.doorbell rx).mem = s.mem := by simp [Chip.doorbell]
@[simp] theorem Chip.sendStep_mem (id c : Nat) (tx : List Nat) : (s.sendStep id c tx).mem = s.mem := by
  unfold Chip.sendStep
  dsimp only
  split <;> simp
@[simp] theorem Chip.msgPerform_mem (k : Nat) (o : MsgOp) : (s.msgPerform k o).mem = s.mem := by simp [Chip.msgPerform]
@[simp] theorem Chip.mailboxRecv_mem (id c : Nat) : (s.mailboxRecv id c).mem = s.mem := by
  unfold Chip.mailboxRecv
  split <;> simp
@[simp] theorem Chip.mailboxSend_mem (id c : Nat) : (s.mailboxSend id c).mem = s.mem := by
  unfold Chip.mailboxSend
  split <;> simp
@[simp] theorem Chip.writeMbxOp_mem (m : Master) (recv : Bool) (c : Nat) : (s.writeMbxOp m recv c).mem = s.mem := by simp [Chip.writeMbxOp]
@[simp] theorem Chip.setWord_mem (id : RegId) (i j w : Nat) : (s.setWord id i j w).mem = s.mem := by
  unfold Chip.setWord
  exact Chip.mem_foldl (fun _ _ => ⟨by rfl⟩) _ _
@[simp] theorem Chip.writeChCfg_mem (c v : Nat) : (s.writeChCfg c v).mem = s.mem := by simp [Chip.writeChCfg]
@[simp] theorem Chip.writeCpt_mem (id : RegId) (j v : Nat) : (s.writeCpt id j v).mem = s.mem := by simp [Chip.writeCpt]
@[simp] theorem Chip.disarm_mem (c : Nat) : (s.disarm c).mem = s.mem := rfl
@[simp] theorem Chip.writeCmpCtrl_mem (c v : Nat) : (s.writeCmpCtrl c v).mem = s.mem := by simp [Chip.writeCmpCtrl]
@[simp] theorem Chip.cmpAct_mem (c : Nat) : (s.cmpAct c).mem = s.mem := by simp [Chip.cmpAct]
@[simp] theorem Chip.setFld64_mem (lo hi : Fd) (i j v : Nat) : (s.setFld64 lo hi i j v).mem = s.mem := rfl
@[simp] theorem Chip.cmpFire_mem (c : Nat) (late : Bool) : (s.cmpFire c late).mem = s.mem := by simp [Chip.cmpFire]
@[simp] theorem Chip.cmpFireDue_mem (c : Nat) : (s.cmpFireDue c).mem = s.mem := by
  unfold Chip.cmpFireDue
  split <;> simp
@[simp] theorem Chip.compareFire_mem (c : Nat) : (s.compareFire c).mem = s.mem := by simp [Chip.compareFire]
@[simp] theorem Chip.compareArm_mem (c v : Nat) : (s.compareArm c v).mem = s.mem := by simp [Chip.compareArm]
@[simp] theorem Chip.clearFired_mem (w v : Nat) : (s.clearFired w v).mem = s.mem := by simp [Chip.clearFired]
@[simp] theorem Chip.writeIntCtrl_mem (i v : Nat) : (s.writeIntCtrl i v).mem = s.mem := by simp [Chip.writeIntCtrl]
@[simp] theorem Chip.intStop_mem (i : Nat) : (s.intStop i).mem = s.mem := rfl
@[simp] theorem Chip.intLoad_mem (i : Nat) : (s.intLoad i).mem = s.mem := by simp [Chip.intLoad]
@[simp] theorem Chip.intStart_mem (i : Nat) : (s.intStart i).mem = s.mem := by simp [Chip.intStart]
@[simp] theorem Chip.intCont_mem (i : Nat) : (s.intCont i).mem = s.mem := by simp [Chip.intCont]
@[simp] theorem Chip.intCommand_mem (i v : Nat) : (s.intCommand i v).mem = s.mem := by simp [Chip.intCommand]
@[simp] theorem Chip.writeAdcCtrl_mem (v : Nat) : (s.writeAdcCtrl v).mem = s.mem := by simp [Chip.writeAdcCtrl]
@[simp] theorem Chip.adcStart_mem (hop : Option Nat) : (s.adcStart hop).mem = s.mem := by simp [Chip.adcStart]
@[simp] theorem Chip.adcStop_mem : (s.adcStop).mem = s.mem := rfl
@[simp] theorem Chip.writeSwtrig_mem (v : Nat) : (s.writeSwtrig v).mem = s.mem := rfl
@[simp] theorem Chip.writeSwprod_mem : (s.writeSwprod).mem = s.mem := rfl
@[simp] theorem Chip.stickBit_mem (f : Fd) (i b p : Nat) : (s.stickBit f i b p).mem = s.mem := by simp [Chip.stickBit]
@[simp] theorem Chip.adcNoteFunc_mem (p old : Nat) : (s.adcNoteFunc p old).mem = s.mem := by simp [Chip.adcNoteFunc]
@[simp] theorem Chip.writePinCfg_mem (p v : Nat) : (s.writePinCfg p v).mem = s.mem := by simp [Chip.writePinCfg]
@[simp] theorem Chip.pinSet_mem (b v : Nat) : (s.pinSet b v).mem = s.mem := rfl
@[simp] theorem Chip.pinClr_mem (b v : Nat) : (s.pinClr b v).mem = s.mem := rfl
@[simp] theorem Chip.pinTgl_mem (b v : Nat) : (s.pinTgl b v).mem = s.mem := rfl
@[simp] theorem Chip.vioCheck_mem (b : Nat) : (s.vioCheck b).mem = s.mem := by simp [Chip.vioCheck]
@[simp] theorem Chip.writePinBank_mem (b v : Nat) : (s.writePinBank b v).mem = s.mem := by simp [Chip.writePinBank]
@[simp] theorem Chip.lockKey_mem (m : Master) (v : Nat) : (s.lockKey m v).mem = s.mem := by
  unfold Chip.lockKey
  split <;> simp
@[simp] theorem Chip.writeSerialCfg_mem (x i v : Nat) (flds : List Fd) (clears : Bool) : (s.writeSerialCfg x i v flds clears).mem = s.mem := by simp [Chip.writeSerialCfg]
@[simp] theorem Chip.serialSet_mem (x : Nat) (u sp i : Fd) : (s.serialSet x u sp i).mem = s.mem := rfl
@[simp] theorem Chip.serialPush_mem (x v : Nat) : (s.serialPush x v).mem = s.mem := by simp [Chip.serialPush]
@[simp] theorem Chip.writePsqCtrl_mem (q v : Nat) : (s.writePsqCtrl q v).mem = s.mem := by simp [Chip.writePsqCtrl]
@[simp] theorem Chip.psqStick_mem (q : Nat) (f : Fd) : (s.psqStick q f).mem = s.mem := by simp [Chip.psqStick]
@[simp] theorem Chip.psqFlush_mem (q : Nat) : (s.psqFlush q).mem = s.mem := by simp [Chip.psqFlush]
@[simp] theorem Chip.psqLoad_mem (q v : Nat) : (s.psqLoad q v).mem = s.mem := rfl
@[simp] theorem Chip.psqRestart_mem (q : Nat) : (s.psqRestart q).mem = s.mem := by simp [Chip.psqRestart]
@[simp] theorem Chip.psqResume_mem (q : Nat) : (s.psqResume q).mem = s.mem := by simp [Chip.psqResume]
@[simp] theorem Chip.writePsqCmd_mem (q v : Nat) : (s.writePsqCmd q v).mem = s.mem := by simp [Chip.writePsqCmd]
@[simp] theorem Chip.writePsqData_mem (f : Fd) (q i v : Nat) : (s.writePsqData f q i v).mem = s.mem := by simp [Chip.writePsqData]
@[simp] theorem Chip.psqPush_mem (q v : Nat) : (s.psqPush q v).mem = s.mem := by simp [Chip.psqPush]
@[simp] theorem Chip.dmaErrBit_mem (f : Fd) (c : Nat) : (s.dmaErrBit f c).mem = s.mem := by simp [Chip.dmaErrBit]
@[simp] theorem Chip.dmaFetch_mem (c : Nat) : (s.dmaFetch c).mem = s.mem := rfl
@[simp] theorem Chip.dmaStart_mem (c : Nat) : (s.dmaStart c).mem = s.mem := by simp [Chip.dmaStart]
@[simp] theorem Chip.writeDmaBell_mem (v : Nat) : (s.writeDmaBell v).mem = s.mem := by simp [Chip.writeDmaBell]
@[simp] theorem Chip.writeDmaCfg_mem (fs : List Fd) (c v : Nat) : (s.writeDmaCfg fs c v).mem = s.mem := by simp [Chip.writeDmaCfg]
@[simp] theorem Chip.dmaIdle_mem (c : Nat) : (s.dmaIdle c).mem = s.mem := rfl
@[simp] theorem Chip.dmaAbort_mem (c : Nat) : (s.dmaAbort c).mem = s.mem := by simp [Chip.dmaAbort]
@[simp] theorem Chip.dmaResume_mem (c : Nat) : (s.dmaResume c).mem = s.mem := by simp [Chip.dmaResume]
@[simp] theorem Chip.writeDmaCmd_mem (c v : Nat) : (s.writeDmaCmd c v).mem = s.mem := by simp [Chip.writeDmaCmd]
@[simp] theorem Chip.bltDrop_mem : (s.bltDrop).mem = s.mem := rfl
@[simp] theorem Chip.bltWmark_mem : (s.bltWmark).mem = s.mem := by
  unfold Chip.bltWmark
  split <;> simp
@[simp] theorem Chip.bltAbort_mem : (s.bltAbort).mem = s.mem := by
  unfold Chip.bltAbort
  split <;> simp
@[simp] theorem Chip.bltGo_mem : (s.bltGo).mem = s.mem := by simp [Chip.bltGo]
@[simp] theorem Chip.writeBltGo_mem (v : Nat) : (s.writeBltGo v).mem = s.mem := by simp [Chip.writeBltGo]
@[simp] theorem Chip.cpsStat_mem (f : Fd) (h : Nat) : (s.cpsStat f h).mem = s.mem := by simp [Chip.cpsStat]
@[simp] theorem Chip.laneClash_mem (h : Nat) : (s.laneClash h).mem = s.mem := by simp [Chip.laneClash]
@[simp] theorem Chip.takeLane_mem (j : Nat) : (s.takeLane j).mem = s.mem := by simp [Chip.takeLane]
@[simp] theorem Chip.laneNow_mem (j : Nat) : (s.laneNow j).mem = s.mem := by simp [Chip.laneNow]
@[simp] theorem Chip.writeFlds_mem (id : RegId) (i j v : Nat) : (s.writeFlds id i j v).mem = s.mem :=
  Chip.mem_foldl (fun t f => ⟨by split <;> simp⟩) _ _
@[simp] theorem Chip.fenceSignal_mem (f : Nat) : (s.fenceSignal f).mem = s.mem := by simp [Chip.fenceSignal]
@[simp] theorem Chip.writeFlip_mem (k v : Nat) : (s.writeFlip k v).mem = s.mem := rfl
@[simp] theorem Chip.takeCpsReg_mem (id : RegId) (h : Nat) : (s.takeCpsReg id h).mem = s.mem := by simp [Chip.takeCpsReg]
@[simp] theorem Chip.writeCps_mem (id : RegId) (h v : Nat) : (s.writeCps id h v).mem = s.mem := by simp [Chip.writeCps]
@[simp] theorem Chip.hmkStat_mem (f : Fd) (n r : Nat) : (s.hmkStat f n r).mem = s.mem := by simp [Chip.hmkStat]
@[simp] theorem Chip.writeHstat_mem (m : Master) (n v : Nat) : (s.writeHstat m n v).mem = s.mem := by simp [Chip.writeHstat]
@[simp] theorem Chip.useRegion_mem (n r : Nat) (g : RCfg) (f fc : Nat) : (s.useRegion n r g f fc).mem = s.mem := by simp [Chip.useRegion]
@[simp] theorem Chip.writeRegionCfg_mem (id : RegId) (n r : Nat) (flds : List Fd) (v : Nat) : (s.writeRegionCfg id n r flds v).mem = s.mem := by simp [Chip.writeRegionCfg]
@[simp] theorem Chip.armSlot_mem (n r slot v : Nat) : (s.armSlot n r slot v).mem = s.mem := by simp [Chip.armSlot]
@[simp] theorem Chip.writeRegionStat_mem (n r v : Nat) : (s.writeRegionStat n r v).mem = s.mem := by simp [Chip.writeRegionStat]
@[simp] theorem Chip.writeRegion_mem (m : Master) (k : RegId) (n r v : Nat) : (s.writeRegion m k n r v).mem = s.mem := by
  simp [Chip.writeRegion]
  split <;> simp
@[simp] theorem Chip.writeLpeBase_mem (n v : Nat) : (s.writeLpeBase n v).mem = s.mem := by simp [Chip.writeLpeBase]
@[simp] theorem Chip.headStat_mem (f : Fd) (h : Nat) : (s.headStat f h).mem = s.mem := by simp [Chip.headStat]
@[simp] theorem Chip.writePllEn_mem (h : Nat) (en : Bool) : (s.writePllEn h en).mem = s.mem := by simp [Chip.writePllEn]
@[simp] theorem Chip.armStart_mem (h : Nat) (resume : Bool) : (s.armStart h resume).mem = s.mem := by simp [Chip.armStart]
@[simp] theorem Chip.writeShCtrl_mem (h v : Nat) : (s.writeShCtrl h v).mem = s.mem := by simp [Chip.writeShCtrl]
@[simp] theorem Chip.genlockAbsent_mem : (s.genlockAbsent).mem = s.mem := rfl
@[simp] theorem Chip.writeGlCtrl_mem (v : Nat) : (s.writeGlCtrl v).mem = s.mem := by simp [Chip.writeGlCtrl]
@[simp] theorem Chip.writeShFaddr_mem (h v : Nat) : (s.writeShFaddr h v).mem = s.mem := by simp [Chip.writeShFaddr]
@[simp] theorem Chip.psrEnter_mem (h : Nat) : (s.psrEnter h).mem = s.mem := by simp [Chip.psrEnter]
@[simp] theorem Chip.psrExit_mem (h : Nat) : (s.psrExit h).mem = s.mem := by simp [Chip.psrExit]
@[simp] theorem Chip.writeDpcmd_mem (h v : Nat) : (s.writeDpcmd h v).mem = s.mem := by simp [Chip.writeDpcmd]
@[simp] theorem Chip.writeAuxctrl_mem (h v : Nat) : (s.writeAuxctrl h v).mem = s.mem := by simp [Chip.writeAuxctrl]
@[simp] theorem Chip.writeAudClk_mem (v : Nat) : (s.writeAudClk v).mem = s.mem := by simp [Chip.writeAudClk]
@[simp] theorem Chip.slotWritten_mem (pend : Fd) (i j k : Nat) : (s.slotWritten pend i j k).mem = s.mem := by simp [Chip.slotWritten]
@[simp] theorem Chip.writeSlot_mem (src gain pend : Fd) (i j k v : Nat) (ok : Bool) : (s.writeSlot src gain pend i j k v ok).mem = s.mem := by simp [Chip.writeSlot]
@[simp] theorem Chip.writeLim_mem (m v : Nat) : (s.writeLim m v).mem = s.mem := by simp [Chip.writeLim]
@[simp] theorem Chip.writeEffP_mem (e j v : Nat) : (s.writeEffP e j v).mem = s.mem := rfl
@[simp] theorem Chip.cqMarks_mem (t : Chip) (q was : Nat) : (t.cqMarks q was).mem = t.mem := by simp [Chip.cqMarks]
@[simp] theorem Chip.setCqRptr_mem (q v : Nat) : (s.setCqRptr q v).mem = s.mem := by simp [Chip.setCqRptr]
@[simp] theorem Chip.unitStick_mem (f : Fd) (i : Nat) (summary : Fd) : (s.unitStick f i summary).mem = s.mem := by simp [Chip.unitStick]
@[simp] theorem Chip.portStick_mem (x : Nat) (o sp dp i : Fd) : (s.portStick x o sp dp i).mem = s.mem := by simp [Chip.portStick]
@[simp] theorem Chip.writePortCfg_mem (x v : Nat) : (s.writePortCfg x v).mem = s.mem := by simp [Chip.writePortCfg]
@[simp] theorem Chip.writeSpdCs_mem (p v : Nat) : (s.writeSpdCs p v).mem = s.mem := by simp [Chip.writeSpdCs]
@[simp] theorem Chip.writeOutSlot_mem (src ramp pend : Fd) (i j k v : Nat) : (s.writeOutSlot src ramp pend i j k v).mem = s.mem := by simp [Chip.writeOutSlot]
@[simp] theorem Chip.writeVoiceCmd_mem (v w : Nat) : (s.writeVoiceCmd v w).mem = s.mem := rfl
@[simp] theorem Chip.writeLinkCtrl_mem (l v : Nat) : (s.writeLinkCtrl l v).mem = s.mem := by simp [Chip.writeLinkCtrl]
@[simp] theorem Chip.writeBf_mem (f : Fd) (i v : Nat) : (s.writeBf f i v).mem = s.mem := by simp [Chip.writeBf]
@[simp] theorem Chip.writeBfCmd_mem (m : Master) (v : Nat) : (s.writeBfCmd m v).mem = s.mem := by simp [Chip.writeBfCmd]
@[simp] theorem Chip.dropIngotsOf_mem (k : Nat) : (s.dropIngotsOf k).mem = s.mem := by simp [Chip.dropIngotsOf]
@[simp] theorem Chip.takeAssign_mem (k : Nat) : (s.takeAssign k).mem = s.mem := by simp [Chip.takeAssign]
@[simp] theorem Chip.assignNow_mem (k : Nat) : (s.assignNow k).mem = s.mem := by simp [Chip.assignNow]
@[simp] theorem Chip.takeSource_mem (id : RegId) (k : Nat) : (s.takeSource id k).mem = s.mem := by
  unfold Chip.takeSource
  split <;> simp
@[simp] theorem Chip.writeLayer_mem (id : RegId) (k v : Nat) : (s.writeLayer id k v).mem = s.mem := by simp [Chip.writeLayer]
@[simp] theorem Chip.audTake_mem : (s.audTake).mem = s.mem := by
  unfold Chip.audTake
  split <;> simp
@[simp] theorem Chip.free_mem (w : Nat) : (s.free w).2.mem = s.mem := rfl
@[simp] theorem Chip.spareStatWord_mem : (s.spareStatWord).2.mem = s.mem := by
  unfold Chip.spareStatWord
  split <;> simp
@[simp] theorem Chip.claim_mem (k : Nat) : (s.claim k).mem = s.mem := by simp [Chip.claim]
@[simp] theorem Chip.readTbLo_mem (m : Master) : (s.readTbLo m).2.mem = s.mem := rfl
@[simp] theorem Chip.captureCommit_mem (c : Nat) : (s.captureCommit c).mem = s.mem := by
  unfold Chip.captureCommit
  split <;> simp
@[simp] theorem Chip.captureRead_mem (c : Nat) : (s.captureRead c).2.mem = s.mem := by simp [Chip.captureRead]
@[simp] theorem Chip.adcPop_mem : (s.adcPop).2.mem = s.mem := by
  unfold Chip.adcPop
  split <;> simp
@[simp] theorem Chip.readSstamp_mem : (s.readSstamp).2.mem = s.mem := rfl
@[simp] theorem Chip.syncWord_mem (p n : Nat) : (s.syncWord p n).2.mem = s.mem := by
  unfold Chip.syncWord
  split <;> simp
@[simp] theorem Chip.serialPop_mem (x : Nat) : (s.serialPop x).mem = s.mem := rfl
@[simp] theorem Chip.psqReadTr_mem (q : Nat) : (s.psqReadTr q).2.mem = s.mem := rfl
@[simp] theorem Chip.psqReadCap_mem (q : Nat) : (s.psqReadCap q).2.mem = s.mem := rfl
@[simp] theorem Chip.psqPop_mem (q : Nat) : (s.psqPop q).mem = s.mem := rfl
@[simp] theorem Chip.dmaStatWord_mem : (s.dmaStatWord).2.mem = s.mem := by
  unfold Chip.dmaStatWord
  split <;> simp
@[simp] theorem Chip.readSig_mem (n r : Nat) (scan : Bool) : (s.readSig n r scan).2.mem = s.mem := by
  unfold Chip.readSig
  split <;> simp
@[simp] theorem Chip.readFstamp_mem (h : Nat) : (s.readFstamp h).2.mem = s.mem := rfl
@[simp] theorem Chip.readGlFper_mem : (s.readGlFper).2.mem = s.mem := rfl
@[simp] theorem Chip.readGlFstamp_mem : (s.readGlFstamp).2.mem = s.mem := rfl
@[simp] theorem Chip.readWord_mem (m : Master) (id : RegId) (i j : Nat) : (s.readWord m id i j).2.mem = s.mem := by
  unfold Chip.readWord
  (repeat' split) <;> simp
@[simp] theorem Chip.readReg_mem (m : Master) (id : RegId) (i j : Nat) : (s.readReg m id i j).2.mem = s.mem := by simp [Chip.readReg]
@[simp] theorem Chip.anvilMark_mem (ea size : Nat) : (s.anvilMark ea size).mem = s.mem := by simp [Chip.anvilMark]
@[simp] theorem Chip.putImem_mem (k e v : Nat) : (s.putImem k e v).mem = s.mem := by simp [Chip.putImem]
@[simp] theorem Chip.putDmem_mem (k e v : Nat) : (s.putDmem k e v).mem = s.mem := by simp [Chip.putDmem]
@[simp] theorem Chip.accelWrite_mem (p v : Nat) : (s.accelWrite p v).mem = s.mem := by simp [Chip.accelWrite]
@[simp] theorem Chip.setPort_mem (k p v : Nat) : (s.setPort k p v).mem = s.mem := rfl
@[simp] theorem Chip.portSet_mem (k p v : Nat) : (s.portSet k p v).mem = s.mem := by simp [Chip.portSet]
@[simp] theorem Chip.winWrite_mem (la v : Nat) : (s.winWrite la v).mem = s.mem := by
  unfold Chip.winWrite
  split <;> simp
@[simp] theorem Chip.countCe_mem (st : Nat) : (s.countCe st).mem = s.mem := by simp [Chip.countCe]
@[simp] theorem Chip.countUe_mem (st : Nat) : (s.countUe st).mem = s.mem := by simp [Chip.countUe]
@[simp] theorem Chip.checkUnit_mem (u : Nat) : (s.checkUnit u).2.mem = s.mem := by
  unfold Chip.checkUnit
  split <;> simp
@[simp] theorem Chip.portVal_mem (k p : Nat) : (s.portVal k p).2.mem = s.mem := by
  unfold Chip.portVal
  (repeat' split) <;> simp
@[simp] theorem Chip.winLive_mem (k kind e : Nat) : (s.winLive k kind e).2.2.mem = s.mem := by
  unfold Chip.winLive
  (repeat' split) <;> simp
@[simp] theorem Chip.winRead_mem (la : Nat) : (s.winRead la).2.2.mem = s.mem := by
  have hl := s.winLive_mem (winCore la)
  unfold Chip.winRead
  split
  · rfl
  · dsimp only
    split
    · simp
    · split
      · split <;> simp
      · simp
@[simp] theorem Chip.accessWin_mem (la n : Nat) (write : Bool) (v : Nat) : (s.accessWin la n write v).2.2.mem = s.mem := by
  unfold Chip.accessWin
  (repeat' split) <;> simp
@[simp] theorem Chip.logErr_mem (kind : Nat) (m : Master) (store addr : Nat) : (s.logErr kind m store addr).mem = s.mem := by simp [Chip.logErr]
@[simp] theorem Chip.markUnit_mem (m : Master) (a n : Nat) (poison : Bool) (u : Nat) : (s.markUnit m a n poison u).mem = s.mem := by simp [Chip.markUnit]
@[simp] theorem Chip.disarmInj_mem (a n : Nat) : (s.disarmInj a n).mem = s.mem := by simp [Chip.disarmInj]
@[simp] theorem Chip.checkUnits_mem (a : List Nat) : (s.checkUnits a).2.mem = s.mem := by
  fun_induction (s.checkUnits a) <;> simp [*]
@[simp] theorem Chip.memRead_mem (a n : Nat) : (s.memRead a n).2.2.mem = s.mem := by simp [Chip.memRead]
@[simp] theorem Chip.newReq_mem (a : Access) (dst need : Nat) : (s.newReq a dst need).mem = s.mem := rfl
@[simp] theorem Chip.bufFree_mem (p : Packet) : (s.bufFree p).mem = s.mem := by simp [Chip.bufFree]
@[simp] theorem Chip.linkPump_mem (l : Nat) : (s.linkPump l).mem = s.mem := by simp [Chip.linkPump]
@[simp] theorem Chip.linkPush_mem (l : Nat) (p : Packet) : (s.linkPush l p).mem = s.mem := by simp [Chip.linkPush]
@[simp] theorem Chip.bcastSend_mem (a : Access) : (s.bcastSend a).mem = s.mem := by simp [Chip.bcastSend]
@[simp] theorem Chip.remoteSend_mem (a : Access) : (s.remoteSend a).mem = s.mem := by
  simp [Chip.remoteSend]
  split <;> simp
@[simp] theorem Chip.logResp_mem (r : Resp) : (s.logResp r).mem = s.mem := by simp [Chip.logResp]
@[simp] theorem Chip.dmaFail_mem (c o code : Nat) : (s.dmaFail c o code).mem = s.mem := by simp [Chip.dmaFail]
@[simp] theorem Chip.dmaReadPtrs_mem (c : Nat) : (s.dmaReadPtrs c).mem = s.mem := by simp [Chip.dmaReadPtrs]
@[simp] theorem Chip.dmaRetire_mem (c : Nat) : (s.dmaRetire c).mem = s.mem := by
  unfold Chip.dmaRetire
  split <;> simp
@[simp] theorem Chip.dmaRetireAll_mem (c : Nat) : (s.dmaRetireAll c).mem = s.mem := by simp [Chip.dmaRetireAll]
@[simp] theorem Chip.dmaIssueWrites_mem (c : Nat) (b : DmaBurst) : (s.dmaIssueWrites c b).mem = s.mem := by
  unfold Chip.dmaIssueWrites
  split <;> simp
@[simp] theorem Chip.dmaReadResp_mem (c sq : Nat) (kind : RespKind) (data : Nat) :
    (s.dmaReadResp c sq kind data).mem = s.mem := by
  unfold Chip.dmaReadResp
  dsimp only
  split
  · split
    · rfl
    · simp
  · rfl
@[simp] theorem Chip.dmaWriteResp_mem (c sq : Nat) (kind : RespKind) : (s.dmaWriteResp c sq kind).mem = s.mem := by
  unfold Chip.dmaWriteResp
  dsimp only
  split
  · split
    · rfl
    · simp
  · rfl
@[simp] theorem Chip.anvilExc_mem (k e pc slot port : Nat) : (s.anvilExc k e pc slot port).mem = s.mem := by simp [Chip.anvilExc]
@[simp] theorem Chip.fabDone_mem (k n : Nat) (r : Resp) : (s.fabDone k n r).mem = s.mem := by
  unfold Chip.fabDone
  split
  · rfl
  · have hports : ∀ (t : Chip) (v : Nat), ((List.range 4).foldl (fun t i => t.setPort k (0x127 + i)
        (v / 2 ^ (32 * i) % 2 ^ 32)) t).mem = t.mem := fun t v => Chip.mem_foldl (fun _ _ => ⟨by rfl⟩) _ _
    simp only [Chip.mem_ite, Chip.updCore_mem, Chip.setPort_mem, Chip.anvilExc_mem, Chip.logErr_mem, hports, ite_self]
@[simp] theorem Chip.bltRespond_mem (row : Nat) (write err : Bool) : (s.bltRespond row write err).mem = s.mem := by
  unfold Chip.bltRespond
  split <;> simp
@[simp] theorem Chip.teeResp_mem (h f : Nat) (r : Resp) : (s.teeResp h f r).mem = s.mem := by simp [Chip.teeResp]
@[simp] theorem Chip.sendTo_mem (p : Packet) : (s.sendTo p).mem = s.mem := by
  unfold Chip.sendTo
  split <;> simp
@[simp] theorem Chip.jobAnswer_mem (j : LinkJob) : (s.jobAnswer j).mem = s.mem := by simp [Chip.jobAnswer]
@[simp] theorem Chip.jobResp_mem (job : Nat) (k : RespKind) (addr data : Nat) : (s.jobResp job k addr data).mem = s.mem := by
  unfold Chip.jobResp
  split <;> simp
@[simp] theorem Chip.netRelease_mem : (s.netRelease).mem = s.mem := by simp [Chip.netRelease]
@[simp] theorem Chip.reqResp_mem (tag : Nat) (k : RespKind) (data : Nat) : (s.reqResp tag k data).mem = s.mem := by
  unfold Chip.reqResp
  split <;> simp
@[simp] theorem Chip.hostResp_mem (f : Nat) (r : Resp) : (s.hostResp f r).mem = s.mem := by simp [Chip.hostResp]
@[simp] theorem Chip.smbResp_mem (r : Resp) : (s.smbResp r).mem = s.mem := by simp [Chip.smbResp]
@[simp] theorem Chip.accessResponse_mem (m : Master) : (s.accessResponse m).mem = s.mem := by
  unfold Chip.accessResponse
  (repeat' split) <;> simp
@[simp] theorem Chip.whenOn_mem {f : Chip → Chip} (h : ∀ c, Chip.MemSame (f c) c) (d : Nat) : (s.whenOn d f).mem = s.mem := by
  simp [Chip.whenOn, (h _).mem]
@[simp] theorem Chip.lpeRest_mem (n : Nat) : (s.lpeRest n).mem = s.mem := rfl
@[simp] theorem Chip.dropFrms_mem (h : Nat) : (s.dropFrms h).mem = s.mem := rfl
@[simp] theorem Chip.stopComp_mem (h : Nat) : (s.stopComp h).mem = s.mem := by
  simp [Chip.stopComp]
@[simp] theorem Chip.takeSources_mem (k : Nat) : (s.takeSources k).mem = s.mem := by simp [Chip.takeSources]
@[simp] theorem Chip.takeFlip_mem (k : Nat) : (s.takeFlip k).mem = s.mem := by simp [Chip.takeFlip]
@[simp] theorem Chip.layStat_mem (f : Fd) (k h : Nat) : (s.layStat f k h).mem = s.mem := by simp [Chip.layStat]
@[simp] theorem Chip.evalFence_mem (h : Nat) (bound armed : List Nat) (f : Nat) : (s.evalFence h bound armed f).mem = s.mem := by simp [Chip.evalFence]
@[simp] theorem Chip.latchFlips_mem (h : Nat) : (s.latchFlips h).mem = s.mem := by simp [Chip.latchFlips]
@[simp] theorem Chip.latchAdjust_mem (h t16 : Nat) : (s.latchAdjust h t16).2.mem = s.mem := by
  simp [Chip.latchAdjust, apply_ite Prod.snd]
@[simp] theorem Chip.latchStamp_mem (h t16 : Nat) (adj : Int) : (s.latchStamp h t16 adj).mem = s.mem := rfl
@[simp] theorem Chip.takeCps_mem (h : Nat) : (s.takeCps h).mem = s.mem := by simp [Chip.takeCps]
@[simp] theorem Chip.skipAll_mem (n f : Nat) : (s.skipAll n f).mem = s.mem := by simp [Chip.skipAll]
@[simp] theorem Chip.underrun_mem (h : Nat) : (s.underrun h).mem = s.mem := by simp [Chip.underrun]
@[simp] theorem Chip.pageAbandonFrm_mem (h f : Nat) : (s.pageAbandonFrm h f).mem = s.mem := by simp [Chip.pageAbandonFrm]
@[simp] theorem Chip.dropPages_mem (h : Nat) : (s.dropPages h).mem = s.mem := by simp [Chip.dropPages]
@[simp] theorem Chip.pageAbandon_mem (h : Nat) : (s.pageAbandon h).mem = s.mem := by simp [Chip.pageAbandon]
@[simp] theorem Chip.latchFaddr_mem (h : Nat) : (s.latchFaddr h).mem = s.mem := by simp [Chip.latchFaddr]
@[simp] theorem Chip.latchAssign_mem (h k : Nat) : (s.latchAssign h k).mem = s.mem := by simp [Chip.latchAssign]
@[simp] theorem Chip.latchLane_mem (h j : Nat) : (s.latchLane h j).mem = s.mem := by simp [Chip.latchLane]
@[simp] theorem Chip.latchClashes_mem (h : Nat) : (s.latchClashes h).mem = s.mem := by simp [Chip.latchClashes]
@[simp] theorem Chip.regionWrap_mem (n r : Nat) : (s.regionWrap n r).mem = s.mem := rfl
@[simp] theorem Chip.regionReach_mem (n r f : Nat) : (s.regionReach n r f).mem = s.mem := rfl
@[simp] theorem Chip.takeRegion_mem (n r f fc : Nat) : (s.takeRegion n r f fc).mem = s.mem := by simp [Chip.takeRegion]
@[simp] theorem Chip.latchRegions_mem (n f : Nat) : (s.latchRegions n f).mem = s.mem := by simp [Chip.latchRegions]
@[simp] theorem Chip.lpeStart_mem (n f : Nat) : (s.lpeStart n f).mem = s.mem := by simp [Chip.lpeStart]
@[simp] theorem Chip.latchComp_mem (h : Nat) : (s.latchComp h).mem = s.mem := by simp [Chip.latchComp]
@[simp] theorem Chip.latchTake_mem (h t16 : Nat) : (s.latchTake h t16).mem = s.mem := by
  simp -implicitDefEqProofs [Chip.latchTake]
@[simp] theorem Chip.setFrame_mem (h f : Nat) : (s.setFrame h f).mem = s.mem := by simp [Chip.setFrame]
@[simp] theorem Chip.latch_mem (h frac : Nat) : (s.latch h frac).mem = s.mem := by simp [Chip.latch]
@[simp] theorem Chip.logOff_mem (m : Master) (a : Nat) : (s.logOff m a).mem = s.mem := by simp [Chip.logOff]
@[simp] theorem Chip.readBeats_mem (h o n i : Nat) : (s.readBeats h o n i).2.2.mem = s.mem := by
  induction n generalizing s i with
  | zero => rfl
  | succ n ih => simp [Chip.readBeats, ih, apply_ite Prod.snd]
@[simp] theorem Chip.scanRow_mem (n y : Nat) (row : List Nat) (r : Nat) : (s.scanRow n y row r).mem = s.mem := by simp [Chip.scanRow]
@[simp] theorem Chip.lineRead_mem (h y given : Nat) : (s.lineRead h y given).mem = s.mem := by simp [Chip.lineRead]
@[simp] theorem Chip.beamEvent_mem (h k : Nat) : (s.beamEvent h k).mem = s.mem := by simp [Chip.beamEvent]
@[simp] theorem Chip.vblank_mem (h : Nat) : (s.vblank h).mem = s.mem := by simp [Chip.vblank]
@[simp] theorem Chip.frameDone_mem (h : Nat) : (s.frameDone h).mem = s.mem := by simp [Chip.frameDone]
@[simp] theorem Chip.lmatch_mem (h k : Nat) : (s.lmatch h k).mem = s.mem := by simp [Chip.lmatch]
@[simp] theorem Chip.resetCopies_mem (l : LaySrc) : (s.resetCopies l).mem = s.mem := by simp [Chip.resetCopies]
@[simp] theorem Chip.lpeFrame_mem (n f : Nat) : (s.lpeFrame n f).mem = s.mem := by simp [Chip.lpeFrame]
@[simp] theorem Chip.beginFrame_mem (h : Nat) : (s.beginFrame h).mem = s.mem := by simp [Chip.beginFrame]
@[simp] theorem Chip.lpeStat_mem (f : Fd) (n : Nat) : (s.lpeStat f n).mem = s.mem := by simp [Chip.lpeStat]
@[simp] theorem Chip.refreshCopies_mem (k : Nat) : (s.refreshCopies k).mem = s.mem := rfl
@[simp] theorem Chip.lpeBegin_mem (n f : Nat) : (s.lpeBegin n f).mem = s.mem := by simp [Chip.lpeBegin]
@[simp] theorem Chip.giveUp_mem (h f : Nat) : (s.giveUp h f).mem = s.mem := by simp [Chip.giveUp]
@[simp] theorem Chip.finishFrame_mem (h f : Nat) : (s.finishFrame h f).mem = s.mem := rfl
@[simp] theorem Chip.courseDone_mem (h f cn : Nat) : (s.courseDone h f cn).mem = s.mem := by simp [Chip.courseDone]
@[simp] theorem Chip.mismatch_mem (n r : Nat) (g : RCfg) (scan : Bool) (f : Nat) : (s.mismatch n r g scan f).mem = s.mem := by simp [Chip.mismatch]
@[simp] theorem Chip.compareSig_mem (n r : Nat) (g : RCfg) (scan : Bool) (f sig expected : Nat) : (s.compareSig n r g scan f sig expected).mem = s.mem := by simp [Chip.compareSig]
@[simp] theorem Chip.tapComplete_mem (n r : Nat) (g : RCfg) (scan : Bool) (f sig : Nat) : (s.tapComplete n r g scan f sig).mem = s.mem := by
  simp [Chip.tapComplete]
  split <;> simp
@[simp] theorem Chip.composeTap_mem (n y0 : Nat) (rows : List (List Nat)) (count : Nat) (sealed : Bool) (f r : Nat) (g : RCfg) : (s.composeTap n y0 rows count sealed f r g).mem = s.mem := by simp [Chip.composeTap]
@[simp] theorem Chip.composeTaps_mem (n y0 : Nat) (rows : List (List Nat)) (count : Nat) (sealed : Bool) (f : Nat) : (s.composeTaps n y0 rows count sealed f).mem = s.mem := by simp [Chip.composeTaps]
@[simp] theorem Chip.passCourse_mem (h f cn y0 count : Nat) : (s.passCourse h f cn y0 count).mem = s.mem := by simp [Chip.passCourse]
@[simp] theorem Chip.abandonCourse_mem (h f cn y0 count : Nat) : (s.abandonCourse h f cn y0 count).mem = s.mem := by simp [Chip.abandonCourse]
@[simp] theorem Chip.nextCourse_mem (h : Nat) : (s.nextCourse h).mem = s.mem := rfl
@[simp] theorem Chip.courseIngot_mem (h : Nat) (first : Bool) : (s.courseIngot h first).mem = s.mem := by simp [Chip.courseIngot]
@[simp] theorem Chip.applyNote_mem (h : Nat) (a : Note) : (s.applyNote h a).mem = s.mem := by
  unfold Chip.applyNote
  split <;> simp
@[simp] theorem Chip.applyNotes_mem (h : Nat) (ns : List Note) : (s.applyNotes h ns).mem = s.mem := by
  unfold Chip.applyNotes
  exact Chip.mem_foldl (fun t x => ⟨by split <;> simp⟩) _ _
@[simp] theorem Chip.courseReads_mem (h : Nat) : (s.courseReads h).mem = s.mem := by
  unfold Chip.courseReads
  dsimp only
  rw [Chip.mem_foldl, Chip.updComp_mem]
  intro t l
  exact ⟨Chip.mem_foldl (fun t n => ⟨by split <;> simp⟩) _ _⟩
@[simp] theorem Chip.loseLanes_mem (h : Nat) : (s.loseLanes h).mem = s.mem := by simp [Chip.loseLanes]
@[simp] theorem Chip.settleRest_mem (h n : Nat) : (s.settleRest h n).mem = s.mem := by
  induction n generalizing s with
  | zero => rfl
  | succ n ih =>
    unfold Chip.settleRest
    split
    · rfl
    · dsimp only
      split <;> simp [ih]
@[simp] theorem Chip.settleBufs_mem (h : Nat) : (s.settleBufs h).mem = s.mem := by simp [Chip.settleBufs]
@[simp] theorem Chip.teeCourse_mem (h : Nat) (b : CourseBuf) : (s.teeCourse h b).mem = s.mem := by simp [Chip.teeCourse]
@[simp] theorem Chip.pageCommit_mem (h base : Nat) : (s.pageCommit h base).mem = s.mem := by simp [Chip.pageCommit]
@[simp] theorem Chip.scanTap_mem (n r : Nat) : (s.scanTap n r).mem = s.mem := by simp [Chip.scanTap]
@[simp] theorem Chip.orWait_mem {f : Chip → Chip} (h : ∀ c, Chip.MemSame (f c) c) : (s.orWait f).mem = s.mem := by
  simp [Chip.orWait, (h _).mem]
@[simp] theorem Chip.lpeFetch_mem (a : Nat) : (s.lpeFetch a).2.mem = s.mem := by
  unfold Chip.lpeFetch
  simp only [apply_ite Prod.snd, Chip.mem_ite, Chip.memRead_mem, ite_self]
@[simp] theorem Chip.lpeSpend_mem (n k : Nat) : (s.lpeSpend n k).mem = s.mem := rfl
@[simp] theorem Chip.lpeEnd_mem (n : Nat) : (s.lpeEnd n).mem = s.mem := by
  unfold Chip.lpeEnd
  split <;> simp
@[simp] theorem Chip.lpeStop_mem (n : Nat) (f : Fd) : (s.lpeStop n f).mem = s.mem := by simp [Chip.lpeStop]
@[simp] theorem Chip.lpeFetchFault_mem (n : Nat) (a : Fetched) : (s.lpeFetchFault n a).mem = s.mem := by
  unfold Chip.lpeFetchFault
  split <;> simp
@[simp] theorem Chip.lpeOn_mem {k : Nat → Chip → Chip} (h : ∀ w c, Chip.MemSame (k w c) c) (n : Nat) (ops : List Nat) :
    (s.lpeOn n ops k).mem = s.mem := by
  have hf := s.lpeFetch_mem (s.lpe n).pc
  unfold Chip.lpeOn
  split
  · split
    · next hw => split <;> simp_all
    · next hw => simp_all
  · rfl
@[simp] theorem Chip.lpeRow_mem {k : Nat → Chip → Chip} (h : ∀ w c, Chip.MemSame (k w c) c) (n : Nat) (ops : List Nat) :
    (s.lpeRow n ops k).mem = s.mem := by
  unfold Chip.lpeRow
  exact s.whenOn_mem (fun c => ⟨c.orWait_mem fun c => ⟨c.lpeOn_mem h n ops⟩⟩) _
@[simp] theorem Chip.lpeRelease_mem (n y : Nat) : (s.lpeRelease n y).mem = s.mem := by simp [Chip.lpeRelease]
@[simp] theorem Chip.lpeWait_mem (n y : Nat) : (s.lpeWait n y).mem = s.mem := by simp [Chip.lpeWait]
@[simp] theorem Chip.lpeValues_mem {put : Nat → Nat → Chip → Chip} (h : ∀ i v c, Chip.MemSame (put i v c) c) (n : Nat)
    (table : Bool) (i m : Nat) : (s.lpeValues n table put i m).mem = s.mem := by
  induction m generalizing s i with
  | zero => rfl
  | succ m ih =>
    have hf := s.lpeFetch_mem (if table then (s.lpe n).tp else (s.lpe n).pc)
    unfold Chip.lpeValues
    split
    · rfl
    · split <;> simp_all
@[simp] theorem Chip.lpeCounted_mem {k : Chip → Chip} (h : ∀ c, Chip.MemSame (k c) c) (n : Nat) :
    (s.lpeCounted n k).mem = s.mem := by
  simp [Chip.lpeCounted, (h _).mem]
@[simp] theorem Chip.lpeWrite_mem (n : Nat) (w : LWrite) : (s.lpeWrite n w).mem = s.mem := by
  unfold Chip.lpeWrite
  exact s.lpeCounted_mem (fun _ => ⟨by rfl⟩) n
@[simp] theorem Chip.lpeLayWrite_mem (n k o v : Nat) (add : Bool) : (s.lpeLayWrite n k o v add).mem = s.mem := by simp [Chip.lpeLayWrite]
@[simp] theorem Chip.lpeWr_mem (n : Nat) (table : Bool) (w : Nat) : (s.lpeWr n table w).mem = s.mem := by simp [Chip.lpeWr]
@[simp] theorem Chip.lpeAdd_mem (n w : Nat) : (s.lpeAdd n w).mem = s.mem := by simp [Chip.lpeAdd]
@[simp] theorem Chip.lpeWrp_mem (n w : Nat) : (s.lpeWrp n w).mem = s.mem := by simp [Chip.lpeWrp]
@[simp] theorem Chip.lpeWrm_mem (n w : Nat) : (s.lpeWrm n w).mem = s.mem := by simp [Chip.lpeWrm]
@[simp] theorem Chip.lpeSetc_mem (n w : Nat) : (s.lpeSetc n w).mem = s.mem := rfl
@[simp] theorem Chip.lpeAddrWord_mem {k : Nat → Chip → Chip} (h : ∀ w c, Chip.MemSame (k w c) c) (n : Nat) :
    (s.lpeAddrWord n k).mem = s.mem := by
  have hf := s.lpeFetch_mem (s.lpe n).pc
  unfold Chip.lpeAddrWord
  split
  · rfl
  · split
    · split <;> simp_all
    · simp_all
@[simp] theorem Chip.lpeBranch_mem (n target : Nat) : (s.lpeBranch n target).mem = s.mem := rfl
@[simp] theorem Chip.lpeDjnz_mem (n w : Nat) : (s.lpeDjnz n w).mem = s.mem := by simp [Chip.lpeDjnz]
@[simp] theorem Chip.lpeJump_mem (n : Nat) : (s.lpeJump n).mem = s.mem := by
  unfold Chip.lpeJump
  exact s.lpeAddrWord_mem (fun _ _ => ⟨by rfl⟩) n
@[simp] theorem Chip.lpeCall_mem (n : Nat) : (s.lpeCall n).mem = s.mem := by simp [Chip.lpeCall]
@[simp] theorem Chip.lpeRet_mem (n : Nat) : (s.lpeRet n).mem = s.mem := by
  unfold Chip.lpeRet
  split <;> simp
@[simp] theorem Chip.lpeSetp_mem (n : Nat) : (s.lpeSetp n).mem = s.mem := by
  unfold Chip.lpeSetp
  exact s.lpeAddrWord_mem (fun _ _ => ⟨by rfl⟩) n
@[simp] theorem Chip.lineRelease_mem (n : Nat) : (s.lineRelease n).mem = s.mem := by
  simp [Chip.lineRelease]
  split <;> simp
@[simp] theorem Chip.lpeRunaway_mem (n : Nat) : (s.lpeRunaway n).mem = s.mem := by simp [Chip.lpeRunaway]
@[simp] theorem Chip.headStart_mem (h frac : Nat) : (s.headStart h frac).mem = s.mem := by
  unfold Chip.headStart
  dsimp only
  split <;> simp
@[simp] theorem Chip.pllLocked_mem (h : Nat) : (s.pllLocked h).mem = s.mem := by simp [Chip.pllLocked]
@[simp] theorem Chip.pllLost_mem (h : Nat) : (s.pllLost h).mem = s.mem := by simp [Chip.pllLost]
@[simp] theorem Chip.genlockRef_mem (f64 lines : Nat) : (s.genlockRef f64 lines).mem = s.mem := by
  simp -implicitDefEqProofs [Chip.genlockRef]
@[simp] theorem Chip.lockLost_mem (h : Nat) : (s.lockLost h).mem = s.mem := by simp [Chip.lockLost]
@[simp] theorem Chip.train_mem (h good : Nat) : (s.train h good).mem = s.mem := by
  unfold Chip.train
  dsimp only
  split <;> simp
@[simp] theorem Chip.setSink_mem (h rate lanes : Nat) (psr : Bool) : (s.setSink h rate lanes psr).mem = s.mem := rfl
@[simp] theorem Chip.trainNow_mem (h rate lanes : Nat) (psr : Bool) (good : Nat) : (s.trainNow h rate lanes psr good).mem = s.mem := by simp [Chip.trainNow]
@[simp] theorem Chip.hpdPlug_mem (h rate lanes good : Nat) (psr : Bool) : (s.hpdPlug h rate lanes good psr).mem = s.mem := by simp [Chip.hpdPlug]
@[simp] theorem Chip.hpdUnplug_mem (h : Nat) : (s.hpdUnplug h).mem = s.mem := by simp [Chip.hpdUnplug]
@[simp] theorem Chip.hpdIrq_mem (h : Nat) (failed : Bool) (good : Nat) : (s.hpdIrq h failed good).mem = s.mem := by simp [Chip.hpdIrq]
@[simp] theorem Chip.putAux_mem (h k : Nat) (a : List Byte) : (s.putAux h k a).mem = s.mem := by
  fun_induction (s.putAux h k a) <;> simp [*]
@[simp] theorem Chip.auxReply_mem (h : Nat) (r : AuxReply) : (s.auxReply h r).mem = s.mem := by
  simp [Chip.auxReply]
  split <;> simp
@[simp] theorem Chip.auxTimeout_mem (h : Nat) : (s.auxTimeout h).mem = s.mem := by simp [Chip.auxTimeout]
@[simp] theorem Chip.voiceIdle_mem (w : Chip) (v : Nat) : (s.voiceIdle w v).mem = s.mem := by simp [Chip.voiceIdle]
@[simp] theorem Chip.audStop_mem : (s.audStop).mem = s.mem := by simp [Chip.audStop]
@[simp] theorem Chip.audStart_mem : (s.audStart).mem = s.mem := by
  unfold Chip.audStart
  split <;> simp
@[simp] theorem Chip.setGain_mem (k : Nat) (r : Ramp) : (s.setGain k r).mem = s.mem := rfl
@[simp] theorem Chip.effBegin_mem (w : Chip) (e : Nat) : (s.effBegin w e).mem = s.mem := by simp [Chip.effBegin]
@[simp] theorem Chip.setSlot_mem (k : Nat) (x : Slot) : (s.setSlot k x).mem = s.mem := rfl
@[simp] theorem Chip.takeSlot_mem (w : Chip) (k : Nat) : (s.takeSlot w k).mem = s.mem := by simp [Chip.takeSlot]
@[simp] theorem Chip.takeGain_mem (k g ramp : Nat) : (s.takeGain k g ramp).mem = s.mem := by simp [Chip.takeGain]
@[simp] theorem Chip.takeTargets_mem (w : Chip) : (s.takeTargets w).mem = s.mem := by simp [Chip.takeTargets]
@[simp] theorem Chip.keyOn_mem (w : Chip) (v : Nat) : (s.keyOn w v).mem = s.mem := by simp [Chip.keyOn]
@[simp] theorem Chip.keyOff_mem (v : Nat) : (s.keyOff v).mem = s.mem := by simp [Chip.keyOff]
@[simp] theorem Chip.voiceStop_mem (w : Chip) (v : Nat) : (s.voiceStop w v).mem = s.mem := by simp [Chip.voiceStop]
@[simp] theorem Chip.takeCmd_mem (w : Chip) (v n : Nat) (first : Bool) : (s.takeCmd w v n first).mem = s.mem := by
  unfold Chip.takeCmd
  (repeat' split) <;> simp
@[simp] theorem Chip.inputs_mem (w : Chip) : (s.inputs w).2.mem = s.mem := by
  unfold Chip.inputs
  refine Chip.mem_foldl_snd (fun q i => ⟨?_⟩) _ _
  split
  · exact Chip.mem_foldl_snd (fun q j => ⟨by rfl⟩) _ _
  · rfl
@[simp] theorem Chip.voiceOutsStep_mem (v : Nat) : (s.voiceOutsStep v).mem = s.mem := by simp [Chip.voiceOutsStep]
@[simp] theorem Chip.envInstant_mem (w : Chip) (v : Nat) : (s.envInstant w v).mem = s.mem := by simp [Chip.envInstant]
@[simp] theorem Chip.vFm_mem (w : Chip) (v : Nat) (x : Voice) : (s.vFm w v x).2.2.mem = s.mem := rfl
@[simp] theorem Chip.vStepNow_mem (w : Chip) (v : Nat) (x : Voice) : (s.vStepNow w v x).2.mem = s.mem := by
  unfold Chip.vStepNow
  dsimp only
  split <;> simp
@[simp] theorem Chip.envStep_mem (w : Chip) (v : Nat) : (s.envStep w v).mem = s.mem := by
  unfold Chip.envStep
  split <;> simp
@[simp] theorem Chip.touch_mem (a n : Nat) : (s.touch a n).mem = s.mem := by simp [Chip.touch]
@[simp] theorem Chip.vReport_mem (v : Nat) (xs : List VX) : (s.vReport v xs).mem = s.mem := by
  unfold Chip.vReport
  split <;> simp
@[simp] theorem Chip.vAdvance_mem (w : Chip) (v : Nat) : (s.vAdvance w v).mem = s.mem := by simp [Chip.vAdvance]
@[simp] theorem Chip.voiceSample_mem (w : Chip) (v : Nat) : (s.voiceSample w v).2.mem = s.mem := by
  simp [Chip.voiceSample, apply_ite Prod.snd]
@[simp] theorem Chip.voiceRun_mem (w : Chip) (v : Nat) : (s.voiceRun w v).2.mem = s.mem := by
  simp [Chip.voiceRun, apply_ite Prod.snd]
@[simp] theorem Chip.gainStep_mem (k : Nat) : (s.gainStep k).mem = s.mem := by simp [Chip.gainStep]
@[simp] theorem Chip.freeWet_mem : (s.freeWet).2.mem = s.mem := rfl
@[simp] theorem Chip.effWet_mem (w : Chip) (e : Nat) (d0 d1 : Int) : (s.effWet w e d0 d1).2.2.mem = s.mem := by
  simp [Chip.effWet, apply_ite Prod.snd]
@[simp] theorem Chip.slotsStep_mem (k n : Nat) : (s.slotsStep k n).mem = s.mem := by simp [Chip.slotsStep]
@[simp] theorem Chip.effRun_mem (w : Chip) (a : AEnv) (e i : Nat) : (s.effRun w a e i).2.mem = s.mem := by simp [Chip.effRun]
@[simp] theorem Chip.mixRun_mem (a : AEnv) (m : Nat) : (s.mixRun a m).2.mem = s.mem := by simp [Chip.mixRun]
@[simp] theorem Chip.limRun_mem (w : Chip) (m : Nat) (x : Int) : (s.limRun w m x).2.mem = s.mem := rfl
@[simp] theorem Chip.audTally_mem : (s.audTally).mem = s.mem := by simp [Chip.audTally]
@[simp] theorem Chip.portSlip_mem (x n : Nat) : (s.portSlip x n).mem = s.mem := by simp [Chip.portSlip]
@[simp] theorem Chip.blockLate_mem (k : Nat) : (s.blockLate k).mem = s.mem := by simp [Chip.blockLate]
@[simp] theorem Chip.blockSend_mem : (s.blockSend).mem = s.mem := by
  simp [Chip.blockSend]
  split <;> simp
@[simp] theorem Chip.heldWriteTaken_mem (k : Nat) : (s.heldWriteTaken k).mem = s.mem := by simp [Chip.heldWriteTaken]
@[simp] theorem Chip.clkLoss_mem (x : Nat) : (s.clkLoss x).mem = s.mem := by simp [Chip.clkLoss]
@[simp] theorem Chip.rateSlip_mem (x : Nat) : (s.rateSlip x).mem = s.mem := by simp [Chip.rateSlip]
@[simp] theorem Chip.moveUnit_mem (cls i p : Nat) : (s.moveUnit cls i p).mem = s.mem := rfl
@[simp] theorem Chip.voiceRotate_mem (v p : Nat) : (s.voiceRotate v p).mem = s.mem := by simp [Chip.voiceRotate]
@[simp] theorem Chip.bltBegin_mem : (s.bltBegin).mem = s.mem := by
  unfold Chip.bltBegin
  (repeat' split) <;> simp
@[simp] theorem Chip.bltReadFails_mem (r : BltRun) (q : Nat × Nat) : (s.bltReadFails r q).1.mem = s.mem := rfl
@[simp] theorem Chip.bltReadOne_mem (q : Nat × Nat) (src : Bool) : (s.bltReadOne q src).2.mem = s.mem := by
  unfold Chip.bltReadOne
  dsimp only
  split <;> simp
@[simp] theorem Chip.bltReads_mem (src : Bool) (l : List (Nat × Nat)) : (s.bltReads src l).2.mem = s.mem := by
  induction l generalizing s with
  | nil => rfl
  | cons q l ih => simp [Chip.bltReads, ih]
@[simp] theorem Chip.bltRead_mem (a n : Nat) (src : Bool) : (s.bltRead a n src).2.2.mem = s.mem := by
  simp [Chip.bltRead]
@[simp] theorem Chip.bltPixels_mem (c : BltCmd) (x k y : Nat) : (s.bltPixels c x k y).2.mem = s.mem := by
  simp [Chip.bltPixels]
@[simp] theorem Chip.bltConvert_mem (c : BltCmd) (p : Nat × Bool) : (s.bltConvert c p).2.mem = s.mem := by
  simp [Chip.bltConvert, apply_ite Prod.snd]
@[simp] theorem Chip.bltConvertAll_mem (c : BltCmd) (l : List (Nat × Bool)) : (s.bltConvertAll c l).2.mem = s.mem := by
  induction l generalizing s with
  | nil => rfl
  | cons p l ih => simp [Chip.bltConvertAll, ih]
@[simp] theorem Chip.bltSource_mem (c : BltCmd) (x k y : Nat) : (s.bltSource c x k y).2.mem = s.mem := by
  simp [Chip.bltSource, apply_ite Prod.snd]
@[simp] theorem Chip.bltStage_mem (r : BltRun) : (s.bltStage r).2.mem = s.mem := by
  simp [Chip.bltStage]
@[simp] theorem Chip.fenceWrite_mem (m : Master) (f : Nat) : (s.fenceWrite m f).mem = s.mem := by simp [Chip.fenceWrite]
@[simp] theorem Chip.bltDone_mem : (s.bltDone).mem = s.mem := by
  unfold Chip.bltDone
  split <;> simp
@[simp] theorem Chip.bltError_mem : (s.bltError).mem = s.mem := by
  unfold Chip.bltError
  split <;> simp
@[simp] theorem Chip.dmaBadRead_mem (f : Fd) (c : Nat) : (s.dmaBadRead f c).mem = s.mem := by simp [Chip.dmaBadRead]
@[simp] theorem Chip.dmaHalf_mem (a : Nat) : (s.dmaHalf a).2.2.mem = s.mem := by simp [Chip.dmaHalf]
@[simp] theorem Chip.dmaDescReturn_mem (c : Nat) : (s.dmaDescReturn c).mem = s.mem := by simp [Chip.dmaDescReturn]
@[simp] theorem Chip.dmaBurst_mem : (s.dmaBurst).mem = s.mem := by
  unfold Chip.dmaBurst
  (repeat' split) <;> simp
@[simp] theorem Chip.dmaAdvance_mem (req n : Nat) : (s.dmaAdvance req n).mem = s.mem := by simp [Chip.dmaAdvance]
@[simp] theorem Chip.dmaPointer_mem (c : Nat) : (s.dmaPointer c).mem = s.mem := by
  unfold Chip.dmaPointer
  split <;> simp
@[simp] theorem Chip.dmaDoneBit_mem (c : Nat) : (s.dmaDoneBit c).mem = s.mem := by simp [Chip.dmaDoneBit]
@[simp] theorem Chip.enterWaiting_mem (k : Nat) : (s.enterWaiting k).mem = s.mem := by simp [Chip.enterWaiting]
@[simp] theorem Chip.issued_mem (k next : Nat) (wfi : Bool) : (s.issued k next wfi).mem = s.mem := by simp [Chip.issued]
@[simp] theorem Chip.issuePoisoned_mem (k pc : Nat) : (s.issuePoisoned k pc).mem = s.mem := by simp [Chip.issuePoisoned]
@[simp] theorem Chip.portRead_mem (k p : Nat) : (s.portRead k p).2.mem = s.mem := by
  unfold Chip.portRead
  (repeat' split) <;> simp
@[simp] theorem Chip.readSources_mem (s0 : Chip) (k : Nat) (ps : List Nat) (t : Chip) :
    (s0.readSources k ps t).2.mem = t.mem := by
  induction ps generalizing t with
  | nil => rfl
  | cons p ps ih => simp [Chip.readSources, ih, apply_ite Prod.snd]
@[simp] theorem Chip.passOne_mem (k w pc : Nat) (vals : List (Nat × Nat)) (timed : Bool) (m : Move) : (s.passOne k w pc vals timed m).mem = s.mem := by
  unfold Chip.passOne
  split <;> simp
@[simp] theorem Chip.fireLsu_mem (s0 : Chip) (k pc : Nat) (m : Move) (b : Nat) : (s.fireLsu s0 k pc m b).mem = s.mem := by simp [Chip.fireLsu]
@[simp] theorem Chip.fireBr_mem (k pc : Nat) (m : Move) (b : Nat) : (s.fireBr k pc m b).1.mem = s.mem := by
  unfold Chip.fireBr
  (repeat' split) <;> simp
@[simp] theorem Chip.fireFab_mem (k pc : Nat) (m : Move) (b : Nat) : (s.fireFab k pc m b).mem = s.mem := by
  simp -implicitDefEqProofs [Chip.fireFab]
@[simp] theorem Firing.fire_mem (f : Firing) (s0 : Chip) (k w pc : Nat) (vals : List (Nat × Nat)) (m : Move) :
    (f.fire s0 k w pc vals m).s.mem = f.s.mem := by
  unfold Firing.fire
  split
  · rfl
  · split
    · rfl
    · split
      · simp
      · dsimp only
        split <;> simp
/-- The triggers of one instruction, one after another, leave the stores. -/
theorem Firing.foldl_fire_mem (s0 : Chip) (k w pc : Nat) (vals : List (Nat × Nat)) (ms : List Move) (f : Firing) :
    (ms.foldl (fun f m => f.fire s0 k w pc vals m) f).s.mem = f.s.mem := by
  induction ms generalizing f with
  | nil => rfl
  | cons m ms ih => exact (ih _).trans (f.fire_mem s0 k w pc vals m)
@[simp] theorem Chip.issueNow_mem (k pc w : Nat) (timed : Bool) : (s.issueNow k pc w timed).mem = s.mem := by
  simp [Chip.issueNow, Firing.foldl_fire_mem]
@[simp] theorem Chip.issue_mem (k : Nat) : (s.issue k).mem = s.mem := by simp [Chip.issue]
@[simp] theorem Chip.syncComplete_mem (k : Nat) : (s.syncComplete k).mem = s.mem := by simp [Chip.syncComplete]
@[simp] theorem Chip.fabResult_mem (k : Nat) : (s.fabResult k).mem = s.mem := by
  unfold Chip.fabResult
  (repeat' split) <;> simp
@[simp] theorem Chip.irqEntry_mem (k : Nat) : (s.irqEntry k).mem = s.mem := by simp [Chip.irqEntry]
@[simp] theorem Chip.wfiEnd_mem (k : Nat) : (s.wfiEnd k).mem = s.mem := by simp [Chip.wfiEnd]
@[simp] theorem Chip.accTimeout_mem (k : Nat) : (s.accTimeout k).mem = s.mem := by
  unfold Chip.accTimeout
  split <;> simp
@[simp] theorem Chip.coreRotate_mem (k p : Nat) : (s.coreRotate k p).mem = s.mem := by simp [Chip.coreRotate]
@[simp] theorem Chip.coreWakeDone_mem (k : Nat) : (s.coreWakeDone k).mem = s.mem := by simp [Chip.coreWakeDone]
@[simp] theorem Chip.mbxTimeout_mem (c : Nat) : (s.mbxTimeout c).mem = s.mem := by
  unfold Chip.mbxTimeout
  split <;> simp
@[simp] theorem Chip.scrub_mem (a : Nat) : (s.scrub a).mem = s.mem := by simp [Chip.scrub]
@[simp] theorem Chip.ceHourEnd_mem (st : Nat) : (s.ceHourEnd st).mem = s.mem := by
  unfold Chip.ceHourEnd
  split <;> simp
@[simp] theorem Chip.copyDone_mem : (s.copyDone).mem = s.mem := by
  unfold Chip.copyDone
  split <;> simp
@[simp] theorem Chip.spareEnd_mem : (s.spareEnd).mem = s.mem := by simp [Chip.spareEnd]
@[simp] theorem Chip.drainDone_mem : (s.drainDone).mem = s.mem := by
  unfold Chip.drainDone
  split <;> simp
@[simp] theorem Chip.rowSwitch_mem : (s.rowSwitch).mem = s.mem := by
  unfold Chip.rowSwitch
  split <;> simp
@[simp] theorem Chip.laneRotate_mem (j p : Nat) : (s.laneRotate j p).mem = s.mem := by simp [Chip.laneRotate]
@[simp] theorem Chip.noteCalm_mem : (s.noteCalm).mem = s.mem := rfl
@[simp] theorem Chip.advance_mem (n : Nat) : (s.advance n).mem = s.mem := by simp [Chip.advance]
@[simp] theorem Chip.pinsWord_mem (p n : Nat) : (s.pinsWord p n).2.mem = s.mem := by
  unfold Chip.pinsWord
  dsimp only
  split <;> simp
@[simp] theorem Chip.samplePads_mem : (s.samplePads).mem = s.mem := by simp [Chip.samplePads]
@[simp] theorem Chip.refLost_mem : (s.refLost).mem = s.mem := by simp [Chip.refLost]
@[simp] theorem Chip.tbPllLock_mem : (s.tbPllLock).mem = s.mem := rfl
@[simp] theorem Chip.refReturn_mem : (s.refReturn).mem = s.mem := rfl
@[simp] theorem Chip.intZeroLoad_mem (i : Nat) : (s.intZeroLoad i).mem = s.mem := rfl
@[simp] theorem Chip.prescaledTick_mem (i : Nat) : (s.prescaledTick i).mem = s.mem := by simp [Chip.prescaledTick]
@[simp] theorem Chip.captureAccept_mem (c : Nat) (rising : Bool) (off : Nat) : (s.captureAccept c rising off).mem = s.mem := by
  simp [Chip.captureAccept]
  split <;> simp
@[simp] theorem Chip.adcReady_mem : (s.adcReady).mem = s.mem := by simp [Chip.adcReady]
@[simp] theorem Chip.adcRaise_mem (p : Nat) : (s.adcRaise p).mem = s.mem := by simp [Chip.adcRaise]
@[simp] theorem Chip.adcPush_mem (chan code : Nat) : (s.adcPush chan code).mem = s.mem := by simp [Chip.adcPush]
@[simp] theorem Chip.adcResult_mem (uv : Int) : (s.adcResult uv).mem = s.mem := by simp [Chip.adcResult]
@[simp] theorem Chip.dmaTaskIn_mem (t hop : Nat) : (s.dmaTaskIn t hop).mem = s.mem := by simp [Chip.dmaTaskIn]
@[simp] theorem Chip.intTask_mem (i : Nat) : (s.intTask i).mem = s.mem := by simp [Chip.intTask]
@[simp] theorem Chip.captureTask_mem (c hop : Nat) : (s.captureTask c hop).mem = s.mem := by simp [Chip.captureTask]
@[simp] theorem Chip.psqNext_mem (q : Nat) : (s.psqNext q).mem = s.mem := rfl
@[simp] theorem Chip.psqDone_mem (q : Nat) : (s.psqDone q).mem = s.mem := rfl
@[simp] theorem Chip.psqTask_mem (q hop : Nat) : (s.psqTask q hop).mem = s.mem := by simp [Chip.psqTask]
@[simp] theorem Chip.taskRun_mem (t hop : Nat) (stopped : Bool) : (s.taskRun t hop stopped).mem = s.mem := by simp [Chip.taskRun]
@[simp] theorem Chip.taskInstant_mem (t : Nat) (hops : List Nat) (stopped : Bool) : (s.taskInstant t hops stopped).mem = s.mem := by simp [Chip.taskInstant]
@[simp] theorem Chip.sendVector_mem (f v : Nat) : (s.sendVector f v).mem = s.mem := by simp [Chip.sendVector]
@[simp] theorem Chip.hostEvent_mem (p : Nat) : (s.hostEvent p).mem = s.mem := by simp [Chip.hostEvent]
@[simp] theorem Chip.deliver_mem : s.deliver.mem = s.mem := by
  simp -implicitDefEqProofs [Chip.deliver]
@[simp] theorem Chip.vioChange_mem (b v : Nat) : (s.vioChange b v).mem = s.mem := by simp [Chip.vioChange]
@[simp] theorem Chip.wakeEdge_mem (p : Nat) (rising : Bool) : (s.wakeEdge p rising).mem = s.mem := by simp [Chip.wakeEdge]
@[simp] theorem Chip.drivePad_mem (p : Nat) (level : Option Bool) : (s.drivePad p level).mem = s.mem := rfl
@[simp] theorem Chip.detect_mem (k p : Nat) (level : Option Bool) : (s.detect k p level).mem = s.mem := by
  simp [Chip.detect]
  split <;> simp
@[simp] theorem Chip.pinEdge_mem (p : Nat) (level : Option Bool) (k : Option (Fin 16)) : (s.pinEdge p level k).mem = s.mem := by
  unfold Chip.pinEdge
  split <;> simp
@[simp] theorem Chip.pinLevel_mem (p : Nat) : (s.pinLevel p).2.mem = s.mem := by simp [Chip.pinLevel]
@[simp] theorem Chip.uartSend_mem (u : Nat) : (s.uartSend u).mem = s.mem := by
  unfold Chip.uartSend
  split <;> simp
@[simp] theorem Chip.serialRecv_mem (x v : Nat) : (s.serialRecv x v).mem = s.mem := by simp [Chip.serialRecv]
@[simp] theorem Chip.uartRecv_mem (u c : Nat) (ok : Bool) : (s.uartRecv u c ok).mem = s.mem := by simp [Chip.uartRecv]
@[simp] theorem Chip.uartFrame_mem (u : Nat) (rx : Option (BitVec 8 × Bool)) : (s.uartFrame u rx).mem = s.mem := by
  unfold Chip.uartFrame
  split <;> simp
@[simp] theorem Chip.spiFrame_mem (q w : Nat) : (s.spiFrame q w).mem = s.mem := by
  simp [Chip.spiFrame]
  split <;> simp
@[simp] theorem Chip.i2cStep_mem (i : Nat) (ack arb : Bool) (byte : Nat) : (s.i2cStep i ack arb byte).mem = s.mem := by
  unfold Chip.i2cStep
  dsimp only
  split <;> simp
@[simp] theorem Chip.i2cByte_mem (i : Nat) (e : I2cEvent) : (s.i2cByte i e).mem = s.mem := by
  unfold Chip.i2cByte
  dsimp only
  cases e with
  | readOut => simp; split <;> simp
  | _ => simp
@[simp] theorem Chip.whenSeq_mem {f : Chip → Chip} (h : ∀ c, Chip.MemSame (f c) c) (q : Nat) :
    (s.whenSeq q f).mem = s.mem := by
  unfold Chip.whenSeq
  exact s.whenOn_mem h _
@[simp] theorem Chip.psqOn_mem {k : Nat → Chip → Chip} (h : ∀ w c, Chip.MemSame (k w c) c) (q op : Nat) :
    (s.psqOn q op k).mem = s.mem := by
  simp [Chip.psqOn, (h _ _).mem]
@[simp] theorem Chip.psqRow_mem {k : Nat → Chip → Chip} (h : ∀ w c, Chip.MemSame (k w c) c) (q op : Nat) :
    (s.psqRow q op k).mem = s.mem := by
  unfold Chip.psqRow
  exact s.whenSeq_mem (fun c => ⟨c.psqOn_mem h q op⟩) q
@[simp] theorem Chip.psqPin_mem (q i : Nat) : (s.psqPin q i).2.mem = s.mem := by
  unfold Chip.psqPin
  split <;> simp
@[simp] theorem Chip.psqBranch_mem (q w : Nat) : (s.psqBranch q w).mem = s.mem := by
  have hr : ∀ r : Bool × Chip, r.2.mem = s.mem →
      (if r.1 then r.2.setFld F.psqStat_PC q 0 (bits w 6 0) else r.2.psqNext q).mem = s.mem := by
    intro r hr
    simp [hr]
  refine hr _ ?_
  split <;> simp [apply_ite Prod.snd]
@[simp] theorem Chip.psqHold_mem (q : Nat) (w : PsqWait) : (s.psqHold q w).mem = s.mem := rfl
@[simp] theorem Chip.psqMet_mem (q w : Nat) : (s.psqMet q w).2.mem = s.mem := by
  unfold Chip.psqMet
  split <;> simp
@[simp] theorem Chip.psqAwait_mem (q w : Nat) : (s.psqAwait q w).mem = s.mem := by simp [Chip.psqAwait]
@[simp] theorem Chip.psqAwaitEnd_mem (q : Nat) (rising : Bool) (off : Nat) : (s.psqAwaitEnd q rising off).mem = s.mem := by
  unfold Chip.psqAwaitEnd
  (repeat' split) <;> simp
@[simp] theorem Chip.psqStamp_mem (q w : Nat) : (s.psqStamp q w).mem = s.mem := rfl
@[simp] theorem Chip.psqShifted_mem (q n : Nat) : (s.psqShifted q n).mem = s.mem := rfl
@[simp] theorem Chip.psqDrivePins_mem (q : Nat) (f : Fd) (v : Nat) : (s.psqDrivePins q f v).mem = s.mem := rfl
@[simp] theorem Chip.psqDrive_mem (q w : Nat) : (s.psqDrive q w).mem = s.mem := by
  unfold Chip.psqDrive
  split <;> simp
@[simp] theorem Chip.psqPins_mem (q : Nat) (timed : Bool) : (s.psqPins q timed).2.mem = s.mem := by
  unfold Chip.psqPins
  split <;> simp
@[simp] theorem Chip.psqSampled_mem (q w : Nat) : (s.psqSampled q w).2.mem = s.mem := by
  unfold Chip.psqSampled
  split <;> simp
@[simp] theorem Chip.psqSample_mem (q w : Nat) : (s.psqSample q w).mem = s.mem := by simp [Chip.psqSample]
@[simp] theorem Chip.psqPut_mem (q w : Nat) : (s.psqPut q w).mem = s.mem := by
  unfold Chip.psqPut
  split <;> simp
@[simp] theorem Chip.psqCopySrc_mem (q c : Nat) (timed : Bool) : (s.psqCopySrc q c timed).2.mem = s.mem := by
  unfold Chip.psqCopySrc
  split <;> simp
@[simp] theorem Chip.psqCopy_mem (q w : Nat) : (s.psqCopy q w).mem = s.mem := by
  unfold Chip.psqCopy
  split <;> simp
@[simp] theorem Chip.psqSignal_mem (q w : Nat) : (s.psqSignal q w).mem = s.mem := by simp [Chip.psqSignal]
@[simp] theorem Chip.psqAct_mem (q w : Nat) : (s.psqAct q w).mem = s.mem := by
  unfold Chip.psqAct
  split <;> simp
@[simp] theorem Chip.psqAt_mem (q w : Nat) : (s.psqAt q w).mem = s.mem := by simp [Chip.psqAt]
@[simp] theorem Chip.psqFetch_mem (q w : Nat) : (s.psqFetch q w).mem = s.mem := by
  unfold Chip.psqFetch
  split <;> simp
@[simp] theorem Chip.psqDeposit_mem (q w : Nat) : (s.psqDeposit q w).mem = s.mem := by simp [Chip.psqDeposit]
@[simp] theorem Chip.psqBad_mem (q : Nat) : (s.psqBad q).mem = s.mem := by simp [Chip.psqBad]
@[simp] theorem Chip.psqTimed_mem (q : Nat) : (s.psqTimed q).mem = s.mem := by
  unfold Chip.psqTimed
  split <;> simp
@[simp] theorem Chip.psqFifoEnd_mem (q : Nat) : (s.psqFifoEnd q).mem = s.mem := by simp [Chip.psqFifoEnd]
@[simp] theorem Chip.psqRotate_mem (q p : Nat) : (s.psqRotate q p).mem = s.mem := by simp [Chip.psqRotate]
@[simp] theorem Chip.linkStick_mem (f : Fd) (l : Nat) : (s.linkStick f l).mem = s.mem := by simp [Chip.linkStick]
@[simp] theorem Chip.bcastOn_mem (l : Nat) (p : Packet) : (s.bcastOn l p).mem = s.mem := by
  unfold Chip.bcastOn
  split <;> simp
@[simp] theorem Chip.startJob_mem (l : Nat) (p : Packet) : (s.startJob l p).mem = s.mem := by simp [Chip.startJob]
@[simp] theorem Chip.forward_mem (l : Nat) (p : Packet) : (s.forward l p).mem = s.mem := by
  unfold Chip.forward
  split <;> simp
@[simp] theorem Chip.ctlPacket_mem (typ d : Nat) : (s.ctlPacket typ d).2.mem = s.mem := rfl
@[simp] theorem Chip.talignSend_mem (l : Nat) : (s.talignSend l).mem = s.mem := by simp [Chip.talignSend]
@[simp] theorem Chip.acceptPacket_mem (l : Nat) (p : Packet) : (s.acceptPacket l p).mem = s.mem := by simp [Chip.acceptPacket]
@[simp] theorem Chip.packetReceive_mem (l : Nat) (p : Packet) (good : Bool) : (s.packetReceive l p good).mem = s.mem := by simp [Chip.packetReceive]
@[simp] theorem Chip.linkAck_mem (l n : Nat) : (s.linkAck l n).mem = s.mem := by simp [Chip.linkAck]
@[simp] theorem Chip.resend_mem (l : Nat) : (s.resend l).mem = s.mem := by simp [Chip.resend]
@[simp] theorem Chip.linkNak_mem (l : Nat) : (s.linkNak l).mem = s.mem := by simp [Chip.linkNak]
@[simp] theorem Chip.linkCredit_mem (l vl n : Nat) : (s.linkCredit l vl n).mem = s.mem := by simp [Chip.linkCredit]
@[simp] theorem Chip.ackTimeout_mem (l : Nat) : (s.ackTimeout l).mem = s.mem := by simp [Chip.ackTimeout]
@[simp] theorem Chip.setParent_mem : (s.setParent).mem = s.mem := by
  unfold Chip.setParent
  dsimp only
  split <;> simp
@[simp] theorem Chip.netStick_mem (f : Fd) : (s.netStick f).mem = s.mem := by simp [Chip.netStick]
@[simp] theorem Chip.failEdge_mem (e : Nat) : (s.failEdge e).mem = s.mem := by simp [Chip.failEdge]
@[simp] theorem Chip.linkctlSend_mem (d : Nat) : (s.linkctlSend d).mem = s.mem := by simp [Chip.linkctlSend]
@[simp] theorem Chip.linkctlAll_mem : (s.linkctlAll).mem = s.mem := by simp [Chip.linkctlAll]
@[simp] theorem Chip.reroute_mem (l : Nat) (p : Packet) : (s.reroute l p).mem = s.mem := by
  simp [Chip.reroute]
  split <;> simp
@[simp] theorem Chip.linkDown_mem (l : Nat) : (s.linkDown l).mem = s.mem := by simp [Chip.linkDown]
@[simp] theorem Chip.retrain_mem (l : Nat) (good : Bool) (peer : Nat) : (s.retrain l good peer).mem = s.mem := by simp [Chip.retrain]
@[simp] theorem Chip.laneSpare_mem (l p : Nat) : (s.laneSpare l p).mem = s.mem := by
  simp [Chip.laneSpare]
  split <;> simp
@[simp] theorem Chip.routeNotice_mem (c l : Nat) : (s.routeNotice c l).mem = s.mem := by simp [Chip.routeNotice]
@[simp] theorem Chip.reqTimeout_mem (tag : Nat) : (s.reqTimeout tag).mem = s.mem := by
  unfold Chip.reqTimeout
  split <;> simp
@[simp] theorem Chip.measure_mem (l t1 t2 t3 t4 : Nat) (up : Bool) : (s.measure l t1 t2 t3 t4 up).mem = s.mem := by
  unfold Chip.measure
  dsimp only
  split
  · rfl
  · split
    · rfl
    · simp only [Chip.mem_ite, Chip.setFld_mem, Chip.updNet_mem, Chip.netStick_mem, ite_self]
@[simp] theorem Chip.talign_mem (l t1 t2 t3 t4 : Nat) (adj up : Bool) : (s.talign l t1 t2 t3 t4 adj up).mem = s.mem := by simp [Chip.talign]
@[simp] theorem Chip.tickAdjust_mem : (s.tickAdjust).mem = s.mem := by
  unfold Chip.tickAdjust
  (repeat' split) <;> simp
@[simp] theorem Chip.lateJoin_mem (c : Nat) : (s.lateJoin c).mem = s.mem := by simp [Chip.lateJoin]
@[simp] theorem Chip.setReason_mem (c r : Nat) : (s.setReason c r).mem = s.mem := by simp [Chip.setReason]
@[simp] theorem Chip.psmStick_mem (f : Fd) : (s.psmStick f).mem = s.mem := by simp [Chip.psmStick]
@[simp] theorem Chip.sendVout_mem (mv : Nat) : (s.sendVout mv).mem = s.mem := by
  unfold Chip.sendVout
  split <;> simp
@[simp] theorem Chip.askVcore_mem (mv : Nat) : (s.askVcore mv).mem = s.mem := by simp [Chip.askVcore]
@[simp] theorem Chip.powerPcie_mem : (s.powerPcie).mem = s.mem := by simp [Chip.powerPcie]
@[simp] theorem Chip.setDoms_mem (ds : List Nat) (on : Bool) : (s.setDoms ds on).mem = s.mem := by
  unfold Chip.setDoms
  exact Chip.mem_foldl (fun _ _ => ⟨by rfl⟩) _ _
@[simp] theorem Chip.startPower_mem (c : Nat) (e : StartEnv) : (s.startPower c e).mem = s.mem := by
  unfold Chip.startPower
  (repeat' split) <;> simp
@[simp] theorem Chip.takeHeader_mem (c due : Nat) : (s.takeHeader c due).mem = s.mem := by simp [Chip.takeHeader]
@[simp] theorem Chip.enterHold_mem : (s.enterHold).mem = s.mem := rfl
@[simp] theorem Chip.startPark_mem (c : Nat) : (s.startPark c).mem = s.mem := by
  unfold Chip.startPark
  simp only [Chip.setParked_mem]
  split
  · rfl
  · exact Chip.mem_foldl (fun _ _ => ⟨by rfl⟩) _ _
@[simp] theorem Chip.placeUnit_mem (cls i p : Nat) : (s.placeUnit cls i p).mem = s.mem := by simp [Chip.placeUnit]
@[simp] theorem Chip.applyEntry_mem (e : LgrEnt) : (s.applyEntry e).mem = s.mem := by
  unfold Chip.applyEntry
  split <;> simp
@[simp] theorem Chip.spareDoms_mem : (s.spareDoms).mem = s.mem := by simp [Chip.spareDoms]
@[simp] theorem Chip.queueChange_mem (e : LgrEnt) : (s.queueChange e).mem = s.mem := by simp [Chip.queueChange]
@[simp] theorem Chip.replaceUnit_mem (cls i : Nat) : (s.replaceUnit cls i).mem = s.mem := by
  simp [Chip.replaceUnit]
  split <;> simp
@[simp] theorem Chip.replaceAll_mem : (s.replaceAll).mem = s.mem := by simp [Chip.replaceAll]
@[simp] theorem Chip.startLedger_mem : (s.startLedger).mem = s.mem := by
  simp [Chip.startLedger]
  split <;> simp
@[simp] theorem Chip.loadAnvil_mem (k a : Nat) : (s.loadAnvil k a).mem = s.mem := by simp [Chip.loadAnvil]
@[simp] theorem Chip.startAssay_mem (fails : List (Nat × Nat)) : (s.startAssay fails).mem = s.mem := by simp [Chip.startAssay]
@[simp] theorem Chip.startRun_mem (c : Nat) : (s.startRun c).mem = s.mem := by simp [Chip.startRun]
@[simp] theorem Chip.putDigest_mem (c : Nat) : (s.putDigest c).mem = s.mem := by
  unfold Chip.putDigest
  exact Chip.mem_foldl (fun _ _ => ⟨by rfl⟩) _ _
@[simp] theorem Chip.formCanvas_mem (e : StartEnv) : (s.formCanvas e).mem = s.mem := by
  simp [Chip.formCanvas]
  split <;> simp
@[simp] theorem Chip.startBegin_mem (due : Nat) : (s.startBegin due).mem = s.mem := by simp [Chip.startBegin]
@[simp] theorem Chip.powerOff_mem (vaonLost : Bool) : (s.powerOff vaonLost).mem = s.mem := rfl
@[simp] theorem Chip.porRelease_mem (straps : Nat) : (s.porRelease straps).mem = s.mem := by simp [Chip.porRelease]
@[simp] theorem Chip.resetN_mem (straps : Nat) : (s.resetN straps).mem = s.mem := by simp [Chip.resetN]
@[simp] theorem Chip.endOutbound_mem : s.endOutbound.mem = s.mem := by
  unfold Chip.endOutbound
  exact Chip.mem_foldl (fun _ _ => ⟨by rfl⟩) _ _
@[simp] theorem Chip.funcReset_mem (f : Nat) : (s.funcReset f).mem = s.mem := by simp [Chip.funcReset]
@[simp] theorem Chip.perst_mem : (s.perst).mem = s.mem := by simp [Chip.perst]
@[simp] theorem Chip.wdogBite_mem : (s.wdogBite).mem = s.mem := by simp [Chip.wdogBite]
@[simp] theorem Chip.bfDone_mem (ok : Bool) : (s.bfDone ok).mem = s.mem := by
  unfold Chip.bfDone
  split
  · rfl
  · simp -implicitDefEqProofs
@[simp] theorem Chip.flushVector_mem (f v : Nat) : (s.flushVector f v).mem = s.mem := by simp [Chip.flushVector]
@[simp] theorem Chip.msixWrite_mem (f off v : Nat) : (s.msixWrite f off v).mem = s.mem := by simp [Chip.msixWrite]
@[simp] theorem Chip.toHost_mem (o : HostOut) : (s.toHost o).mem = s.mem := rfl
@[simp] theorem Chip.complete_mem (f status data : Nat) : (s.complete f status data).mem = s.mem := rfl
@[simp] theorem Chip.msixRead_mem (f off : Nat) : (s.msixRead f off).2.mem = s.mem := by
  unfold Chip.msixRead
  (repeat' split) <;> simp
@[simp] theorem Chip.footMark_mem (la v : Nat) : (s.footMark la v).mem = s.mem := by simp [Chip.footMark]
@[simp] theorem Chip.outboundSend_mem : (s.outboundSend).mem = s.mem := by
  unfold Chip.outboundSend
  (repeat' split) <;> simp
@[simp] theorem Chip.outboundAnswer_mem (n : Nat) (ok : Bool) (data : Nat) : (s.outboundAnswer n ok data).mem = s.mem := by
  unfold Chip.outboundAnswer
  split <;> simp
@[simp] theorem Chip.outbound_mem (e : OutboundEvent) : (s.outbound e).mem = s.mem := by
  unfold Chip.outbound
  split <;> simp
@[simp] theorem Chip.outboundTimeout_mem (n : Nat) : (s.outboundTimeout n).mem = s.mem := by
  unfold Chip.outboundTimeout
  split <;> simp
@[simp] theorem Chip.vectorUnmask_mem (f v : Nat) : (s.vectorUnmask f v).mem = s.mem := by simp [Chip.vectorUnmask]
@[simp] theorem Chip.smbBoot_mem : (s.smbBoot).mem = s.mem := rfl
@[simp] theorem Chip.smbId_mem : (s.smbId).mem = s.mem := rfl
@[simp] theorem Chip.smbDigest_mem : (s.smbDigest).mem = s.mem := rfl
@[simp] theorem Chip.smbRead_mem : (s.smbRead).mem = s.mem := rfl
@[simp] theorem Chip.smbWriteStatus_mem : (s.smbWriteStatus).mem = s.mem := rfl
@[simp] theorem Chip.footing_mem (c : Nat) : (s.footing c).mem = s.mem := by simp [Chip.footing]
@[simp] theorem Chip.smbFooting_mem (pecOk : Bool) (c : Nat) : (s.smbFooting pecOk c).mem = s.mem := by simp [Chip.smbFooting]
@[simp] theorem Chip.coreGate_mem (k : Nat) : (s.coreGate k).mem = s.mem := by simp [Chip.coreGate]
@[simp] theorem Chip.askLeast_mem : (s.askLeast).mem = s.mem := by simp [Chip.askLeast]
@[simp] theorem Chip.stateEntry_mem : (s.stateEntry).mem = s.mem := by simp [Chip.stateEntry]
@[simp] theorem Chip.wake_mem : (s.wake).mem = s.mem := by
  unfold Chip.wake
  split <;> simp
@[simp] theorem Chip.retainBack_mem : s.retainBack.mem = s.mem := by
  unfold Chip.retainBack
  split
  · rfl
  · rw [Chip.mem_foldl, Chip.askVcore_mem]
    intro t c
    exact ⟨by split <;> [split <;> simp; rfl]⟩
@[simp] theorem Chip.unitsBack_mem : (s.unitsBack).mem = s.mem := by simp [Chip.unitsBack]
@[simp] theorem Chip.stateExit_mem : (s.stateExit).mem = s.mem := by simp [Chip.stateExit]
@[simp] theorem Chip.alarm_mem : (s.alarm).mem = s.mem := by simp [Chip.alarm]
@[simp] theorem Chip.toleranceChange_mem : (s.toleranceChange).mem = s.mem := by simp [Chip.toleranceChange]
@[simp] theorem Chip.takeTemp_mem (tj : Int) : (s.takeTemp tj).mem = s.mem := rfl
@[simp] theorem Chip.thermHi_mem (tj : Int) : (s.thermHi tj).mem = s.mem := by simp [Chip.thermHi]
@[simp] theorem Chip.thermTrip_mem (tj : Int) : (s.thermTrip tj).mem = s.mem := by simp [Chip.thermTrip]
@[simp] theorem Chip.thermRecover_mem (tj : Int) : (s.thermRecover tj).mem = s.mem := by simp [Chip.thermRecover]
@[simp] theorem Chip.avsPeriod_mem (paces : List Nat) (ack : Bool) : (s.avsPeriod paces ack).mem = s.mem := by
  simp -implicitDefEqProofs [Chip.avsPeriod]
@[simp] theorem Chip.wearRefresh_mem (wears : List Nat) : (s.wearRefresh wears).mem = s.mem := by
  unfold Chip.wearRefresh
  exact Chip.mem_foldl (fun t x => ⟨by split <;> simp⟩) _ _
@[simp] theorem Chip.asyRefuse_mem (code cls idx : Nat) : (s.asyRefuse code cls idx).mem = s.mem := by simp [Chip.asyRefuse]
@[simp] theorem Chip.asyBegin_mem (cls idx p : Nat) : (s.asyBegin cls idx p).mem = s.mem := by simp [Chip.asyBegin]
@[simp] theorem Chip.rotate_mem (cls i p : Nat) : (s.rotate cls i p).mem = s.mem := by
  unfold Chip.rotate
  split <;> simp
@[simp] theorem Chip.asyRun_mem : s.asyRun.mem = s.mem := by
  unfold Chip.asyRun
  split
  · rfl
  · next cls idx _ _ =>
    dsimp only
    simp only [Chip.mem_ite, Chip.asyRefuse_mem]
    refine ite_eq_left_iff.2 fun _ => ite_eq_left_iff.2 fun _ => ite_eq_left_iff.2 fun _ => ite_eq_left_iff.2 fun _ => ?_
    split
    · simp
    · next l _ =>
      split
      · simp
      · split
        · simp
        · split
          · simp
          · split
            · simp
            · split
              · rfl
              · simp
@[simp] theorem Chip.asyRows_mem (b : Nat) (rows : List Nat) : (s.asyRows b rows).mem = s.mem := by simp [Chip.asyRows]
@[simp] theorem Chip.asyJudge_mem (cls p : Nat) (good rot : Bool) : (s.asyJudge cls p good rot).mem = s.mem := by simp [Chip.asyJudge]
@[simp] theorem Chip.asyResult_mem (code detail : Nat) (rows : List Nat) : (s.asyResult code detail rows).mem = s.mem := by
  unfold Chip.asyResult
  (repeat' split) <;> simp
@[simp] theorem Chip.railEnter_mem (r : Nat) : (s.railEnter r).mem = s.mem := by simp [Chip.railEnter]
@[simp] theorem Chip.railLeave_mem (r : Nat) : (s.railLeave r).mem = s.mem := by
  simp -implicitDefEqProofs [Chip.railLeave]
@[simp] theorem Chip.audPllLock_mem : (s.audPllLock).mem = s.mem := by simp [Chip.audPllLock]
@[simp] theorem Chip.cfgWrite_mem (f : Nat) (r : CfgReg) (v : Nat) : (s.cfgWrite f r v).mem = s.mem := by
  unfold Chip.cfgWrite
  split <;> simp
@[simp] theorem Chip.cfgRead_mem (f : Nat) (r : CfgReg) : (s.cfgRead f r).2.mem = s.mem := by
  unfold Chip.cfgRead
  split <;> simp
@[simp] theorem Chip.cfgRequest_mem (f : Nat) (r : CfgReg) (write : Bool) (v : Nat) : (s.cfgRequest f r write v).mem = s.mem := by simp [Chip.cfgRequest]
@[simp] theorem Chip.pcieLink_mem (up : Bool) : (s.pcieLink up).mem = s.mem := rfl

end Sys2Proof.Machine

/-! The operations that write the stores, clear them or lose them keep their canonical form, and so does every step
(spec/11_fabric_stores.md, spec/16_power_assay_spares.md). -/

namespace Sys2Proof.Machine

variable {s t : Chip}

/-- The stores are listed in their canonical form. As a structure of its own it lets two forms of one chip be compared
without a look at what made them. -/
structure Chip.StoresWf (s : Chip) : Prop where
  wf : Memory.wf s.mem = true

/-- What leaves the stores as they were keeps the canonical form. -/
theorem Chip.StoresWf.of_mem (h : s.StoresWf) (e : t.mem = s.mem) : t.StoresWf := ⟨e ▸ h.wf⟩

/-! ### Chains and choices -/

theorem Chip.StoresWf.ite {c : Prop} [Decidable c] {a b : Chip} (ha : a.StoresWf) (hb : b.StoresWf) :
    (if c then a else b).StoresWf := by
  split <;> assumption

/-- A chain of steps that each keep the canonical form keeps it. -/
theorem Chip.StoresWf.foldl {α : Type} {f : Chip → α → Chip} (hf : ∀ t a, Chip.StoresWf t → (f t a).StoresWf) (l : List α)
    (h : s.StoresWf) : (l.foldl f s).StoresWf := by
  induction l generalizing s with
  | nil => exact h
  | cons a l ih => exact ih (hf s a h)

/-- The same, of a chain that carries something beside the chip. -/
theorem Chip.StoresWf.foldl_snd {α β : Type} {f : β × Chip → α → β × Chip}
    (hf : ∀ q a, Chip.StoresWf q.2 → (f q a).2.StoresWf) (l : List α) {q : β × Chip} (h : q.2.StoresWf) :
    (l.foldl f q).2.StoresWf := by
  induction l generalizing q with
  | nil => exact h
  | cons a l ih => exact ih (hf q a h)

/-- A unit's effect keeps the canonical form whether its domain is on or not. -/
theorem Chip.StoresWf.whenOn {f : Chip → Chip} (h : s.StoresWf) (hf : ∀ c, Chip.StoresWf c → (f c).StoresWf) (d : Nat) :
    (s.whenOn d f).StoresWf := .ite (hf s h) h

/-- An effect that waits for a bank being drained keeps it whether it waits or not. -/
theorem Chip.StoresWf.orWait {f : Chip → Chip} (h : s.StoresWf) (hf : ∀ c, Chip.StoresWf c → (f c).StoresWf) :
    (s.orWait f).StoresWf := .ite (hf s h) (.ite h (hf _ (h.of_mem rfl)))

/-! ### Stores written, cleared and lost -/

theorem Chip.memWrite_wf (h : s.StoresWf) (m : Master) (a n v : Nat) (p : Bool) : (s.memWrite m a n v p).StoresWf :=
  ⟨(s.memWrite_mem m a n v p).1 ▸ Memory.wf_write n h.wf a v⟩

theorem Chip.zeroStores_wf (s : Chip) : s.zeroStores.StoresWf := ⟨by simp [Chip.zeroStores, Memory.wf_nil]⟩

/-- A domain that is lost takes entries out of the stores, and puts none in. -/
theorem Chip.loseDomain_wf (h : s.StoresWf) (d : Nat) : (s.loseDomain d).StoresWf := by
  have hwf := h.wf
  have hlost : ∀ q, Memory.wf (s.mem.filter q) = true := Memory.wf_filter hwf
  constructor
  unfold Chip.loseDomain
  dsimp only
  split
  · split <;> simpa
  · split
    · simpa
    · split <;> simp [hwf, hlost]

theorem Chip.writeDomoff_wf (h : s.StoresWf) (v : Nat) : (s.writeDomoff v).StoresWf :=
  .ite ((Chip.loseDomain_wf h (bits v 6 0)).of_mem (by simp)) h

/-! ### Accesses -/

/-- A register write leaves the stores, but for the one that forces a domain off. -/
theorem Chip.writeReg_mem {id : RegId} (hid : id ≠ .psmDomoff) (s : Chip) (m : Master) (i j v : Nat) :
    (s.writeReg m id i j v).mem = s.mem := by
  delta Chip.writeReg
  cases id
  case psmDomoff => contradiction
  all_goals dsimp only
  all_goals simp

theorem Chip.writeReg_wf (h : s.StoresWf) (m : Master) (id : RegId) (i j v : Nat) : (s.writeReg m id i j v).StoresWf := by
  by_cases hid : id = .psmDomoff
  · subst hid
    exact Chip.writeDomoff_wf h v
  · exact h.of_mem (Chip.writeReg_mem hid s m i j v)

theorem Chip.accessReg_wf (h : s.StoresWf) (m : Master) (id : RegId) (i j : Nat) (w : Bool) (v : Nat) :
    (s.accessReg m id i j w v).2.2.StoresWf := by
  unfold Chip.accessReg
  split
  · exact h.of_mem (by simp)
  · cases w
    · exact h.of_mem (by simp)
    · exact (Chip.writeReg_wf (.ite (h.of_mem s.audTake_mem) h) m id i j _).of_mem (Chip.dmaLevels_mem _)

theorem Chip.accessMem_wf (h : s.StoresWf) (m : Master) (la n : Nat) (w : Bool) (v : Nat) (p : Bool) :
    (s.accessMem m la n w v p).2.2.StoresWf := by
  unfold Chip.accessMem
  split
  · exact h
  · split
    · exact h
    · split
      · exact h
      · split
        · exact Chip.memWrite_wf h _ _ _ _ _
        · exact h.of_mem (s.memRead_mem la n)

theorem Chip.perform_wf (h : s.StoresWf) (m : Master) (la n : Nat) (w : Bool) (v : Nat) (p : Bool) :
    (s.perform m la n w v p).2.2.StoresWf := by
  unfold Chip.perform
  split
  · split
    · exact h
    · split
      · exact h
      · split
        · exact Chip.accessReg_wf h _ _ _ _ _ _
        · exact h
  · split
    · exact h
    · split
      · exact h.of_mem (s.accessWin_mem la n w v)
      · exact Chip.accessMem_wf h _ _ _ _ _ _

theorem Chip.route_wf (h : s.StoresWf) (a : Access) : (s.route a).StoresWf := by
  unfold Chip.route
  dsimp only
  split
  · split
    · exact h.of_mem rfl
    · exact (Chip.perform_wf h _ _ _ _ _ _).of_mem (Chip.answer_mem _ _)
  · exact h.of_mem (by simp)

theorem Chip.submit_wf (h : s.StoresWf) (a : Access) : (s.submit a).StoresWf := .ite (h.of_mem rfl) (Chip.route_wf h a)

theorem Chip.direct_wf (h : s.StoresWf) (m : Master) (w : Bool) (a n d : Nat) : (s.direct m w a n d).StoresWf :=
  Chip.submit_wf h _

theorem Chip.regWrite_wf (h : s.StoresWf) (m : Master) (id : RegId) (i j v : Nat) : (s.regWrite m id i j v).StoresWf :=
  Chip.direct_wf h m true _ 4 v

theorem Chip.regRead_wf (h : s.StoresWf) (m : Master) (id : RegId) (i j : Nat) : (s.regRead m id i j).StoresWf :=
  Chip.direct_wf h m false _ 4 0

theorem Chip.issueNth_wf (h : s.StoresWf) (n : Nat) : (s.issueNth n).StoresWf := by
  unfold Chip.issueNth
  split
  · exact h
  · next a _ => exact .ite h (Chip.route_wf (s := { s with issueQ := s.issueQ.eraseIdx n }) (h.of_mem rfl) a)

theorem Chip.fabricOp_wf (h : s.StoresWf) (a : FabricOp) : (s.fabricOp a).StoresWf := by
  cases a with
  | issued n => exact Chip.issueNth_wf h n
  | given => exact Chip.submit_wf h _

/-! ### Composition -/

theorem Chip.takeWrite_wf (h : s.StoresWf) (n : Nat) (e : LEntry) : (s.takeWrite n e).StoresWf := by
  unfold Chip.takeWrite
  split
  · exact h.of_mem (by simp)
  · exact h.of_mem (by simp)
  · exact (Chip.memWrite_wf h _ _ _ _ _).of_mem rfl

theorem Chip.takeWrites_wf (h : s.StoresWf) (n f y : Nat) : (s.takeWrites n f y).StoresWf :=
  .foldl (fun _ _ ht => Chip.takeWrite_wf ht n _) _ (h.of_mem (by simp))

theorem Chip.courseBegin_wf (h : s.StoresWf) (n : Nat) : (s.courseBegin n).StoresWf := by
  unfold Chip.courseBegin
  extract_lets c x first hh y0 y1 t t1 t2 last nolane t3 t4 t5
  have h1 : t1.StoresWf := by
    have h0 : t.StoresWf := h.of_mem (by simp [t])
    exact .ite h0 (Chip.takeWrites_wf h0 _ _ _)
  have h3 : t3.StoresWf := h1.of_mem (by simp [t3, t2])
  refine .ite (.ite (h3.of_mem (by simp)) (.ite (h3.of_mem ?_) (h3.of_mem ?_))) h
  · simp [t4]
  · simp [t5]

theorem Chip.writeIngotRow_wf (h : s.StoresWf) (n base off : Nat) (row : List Nat) :
    (s.writeIngotRow n base off row).StoresWf :=
  .foldl (fun _ _ ht => Chip.memWrite_wf ht _ _ _ _ _) _ h

/-- A line that is composed keeps the canonical form; one that waits leaves nothing. -/
theorem Chip.composeLine_wf (h : s.StoresWf) {n : Nat} (ht : s.composeLine n = some t) : t.StoresWf := by
  unfold Chip.composeLine at ht
  extract_lets c0 x y s' c ha q ctxs spans kept lost ctxs' stages off shown seen px wide line ing notes t1 t2 t3 at ht
  have h0 : s'.StoresWf := Chip.takeWrites_wf h _ _ _
  have h2 : t2.StoresWf := h0.of_mem (by simp [t2, t1])
  have h3 : t3.StoresWf := .ite (Chip.writeIngotRow_wf h2 _ _ _ _) h2
  clear_value t3
  split at ht
  · contradiction
  · obtain rfl := Option.some.inj ht
    exact h3.of_mem (by simp)

theorem Chip.lineCompose_wf (h : s.StoresWf) (n : Nat) : (s.lineCompose n).StoresWf := by
  unfold Chip.lineCompose
  dsimp only
  split
  · split
    · exact h.of_mem (by simp)
    · split
      · exact h.of_mem (by simp)
      · split
        · exact h
        · next t ht => exact (Chip.composeLine_wf h ht).of_mem (by simp)
  · exact h

theorem Chip.writeBeats_wf (h : s.StoresWf) (k o v n : Nat) : (s.writeBeats k o v n).StoresWf :=
  .foldl (fun _ _ ht => .ite (Chip.memWrite_wf ht _ _ _ _ _) (ht.of_mem (by simp))) _ h

theorem Chip.writeRows_wf (h : s.StoresWf) (k base y : Nat) (rows : List (List Nat)) :
    (s.writeRows k base y rows).StoresWf := by
  induction rows generalizing s y with
  | nil => exact h
  | cons row rows ih => exact ih (Chip.writeBeats_wf h _ _ _ _) _

theorem Chip.courseSeal_wf (h : s.StoresWf) (n : Nat) : (s.courseSeal n).StoresWf := by
  unfold Chip.courseSeal
  split
  · exact h
  · extract_lets x s' due t sl t1 t2 lastC t3
    have ht : t.StoresWf := Chip.writeRows_wf (h.of_mem (by simp [s'])) _ _ _ _
    clear_value t
    have h3 : t3.StoresWf := .ite (ht.of_mem (by simp [t2, t1])) (ht.of_mem (by simp [t2, t1]))
    clear_value t3
    exact h3.of_mem (by simp)

theorem Chip.teeComplete_wf (h : s.StoresWf) (n : Nat) : (s.teeComplete n).StoresWf := by
  unfold Chip.teeComplete
  split
  · exact Chip.submit_wf (h.of_mem (by simp)) _
  · exact h

/-! ### The audio engine's capture queues -/

theorem Chip.cqWrite_wf (h : s.StoresWf) (w : Chip) (q : Nat) (v : Int) : (s.cqWrite w q v).StoresWf := by
  unfold Chip.cqWrite
  extract_lets z p a drop
  have hd : ∀ t : Chip, t.StoresWf → (drop t).StoresWf := fun t ht => ht.of_mem (by simp [drop])
  have hw : ((s.touch a 4).memWrite (.own 0x40) a 4 (tc 32 v) false).StoresWf :=
    Chip.memWrite_wf (h.of_mem (s.touch_mem a 4)) _ _ _ _ _
  refine .ite (hd s h) (.ite (hd _ (h.of_mem (s.logOff_mem _ a))) (hw.of_mem ?_))
  simp

/-- The voices' pass of a sample, which gathers what each sends, keeps the canonical form. -/
theorem Chip.voicesRun_wf (h : s.StoresWf) (w : Chip) (vs : List Nat) (a : List (Nat × Int)) :
    (vs.foldl (fun (q : List (Nat × Int) × Chip) v =>
      let r := q.2.voiceRun w v
      (q.1 ++ r.1, r.2)) (a, s)).2.StoresWf := by
  refine Chip.StoresWf.foldl_snd (fun q v hq => ?_) _ h
  have hr := q.2.voiceRun_mem w v
  generalize q.2.voiceRun w v = r at hr ⊢
  exact hq.of_mem hr

/-- The limiters' pass of a sample, which gathers what each gives, keeps the canonical form. -/
theorem Chip.limitersRun_wf (h : s.StoresWf) (w : Chip) (x : Nat → Int) (ks : List Nat) (a : List Int) :
    (ks.foldl (fun (q : List Int × Chip) k =>
      let r := q.2.limRun w k (x k)
      (q.1 ++ [r.1], r.2)) (a, s)).2.StoresWf := by
  refine Chip.StoresWf.foldl_snd (fun q k hq => ?_) _ h
  have hr := q.2.limRun_mem w k (x k)
  generalize q.2.limRun w k (x k) = r at hr ⊢
  exact hq.of_mem hr

theorem Chip.audSample_wf (h : s.StoresWf) (w : Chip) (n i : Nat) : (s.audSample w n i).StoresWf := by
  unfold Chip.audSample
  generalize List.range 512 = voices, List.range 64 = buses, List.range 32 = mixes, List.range 16 = effs
  extract_lets t ins vs sums vb sat t1 t2 e m l t3
  have ht : t.StoresWf := .foldl (fun t v ht => ht.of_mem (t.takeCmd_mem w v n (i == 0))) _ h
  clear_value t
  have hi : ins.2.StoresWf := ht.of_mem (t.inputs_mem w)
  clear_value ins
  have hv : vs.2.StoresWf := Chip.voicesRun_wf hi w voices []
  clear_value vs
  have h1 : t1.StoresWf := .foldl (fun t b ht => ht.of_mem (t.gainStep_mem b)) _ hv
  clear_value t1
  have he : e.2.StoresWf :=
    .foldl_snd (fun q e hq => hq.of_mem (q.2.effRun_mem w q.1 e i)) _ (h1.of_mem (t1.updSnd_mem _))
  clear_value e
  have hm : m.2.StoresWf := .foldl_snd (fun q m hq => hq.of_mem (q.2.mixRun_mem q.1 m)) _ he
  clear_value m
  have hl : l.2.StoresWf := Chip.limitersRun_wf hm w (fun k => m.1.mb.getD k 0) mixes []
  clear_value l
  have h3 : t3.StoresWf := .foldl (fun t q ht => .ite (Chip.cqWrite_wf ht w q _) ht) _ hl
  clear_value t3
  refine .foldl (fun t k ht => ?_) _ h3
  exact (Chip.StoresWf.ite ht (ht.of_mem (t.updSnd_mem _))).of_mem (Chip.slotsStep_mem _ k 1)

theorem Chip.blockCompute_wf (h : s.StoresWf) : s.blockCompute.StoresWf := by
  unfold Chip.blockCompute
  generalize List.range 16 = effs, List.range 8 = samples
  extract_lets k w t t1 t2
  have ht : t.StoresWf := h.of_mem rfl
  clear_value t
  have h1 : t1.StoresWf := .foldl (fun t e ht => ht.of_mem (t.effBegin_mem w e)) _ (ht.of_mem (t.takeTargets_mem w))
  clear_value t1
  have h2 : t2.StoresWf := .foldl (fun t i ht => Chip.audSample_wf ht w _ i) _ h1
  exact .ite (h2.of_mem ((Chip.updSnd_mem _ _).trans t2.audTally_mem)) h

/-! ### Blits and DMA -/

theorem Chip.bltWrite_wf (h : s.StoresWf) (row a n v : Nat) (p : Bool) : (s.bltWrite row a n v p).StoresWf := by
  have ht : (if s.storeUp a then (s.touch a n).memWrite (.own 0x28) a n v p else s).StoresWf :=
    .ite (Chip.memWrite_wf (h.of_mem (by simp)) _ _ _ _ _) h
  exact ht.of_mem rfl

theorem Chip.bltPut_wf (h : s.StoresWf) (c : BltCmd) (x y : Nat) (ps : List (Nat × Bool)) :
    (s.bltPut c x y ps).1.StoresWf :=
  .foldl (fun _ _ ht => Chip.bltWrite_wf ht _ _ _ _ _) _ (h.of_mem (by simp))

theorem Chip.bltIssue_wf (h : s.StoresWf) (r : BltRun) (fuel n : Nat) : (s.bltIssue r fuel n).1.StoresWf := by
  induction fuel generalizing s r n with
  | zero => exact h
  | succ fuel ih =>
    unfold Chip.bltIssue
    split
    · exact h
    · dsimp only
      split
      · exact h.of_mem (by simp)
      · exact ih (Chip.bltPut_wf (h.of_mem (by simp [apply_ite Prod.snd])) _ _ _ _) _ _

theorem Chip.bltBurst_wf (h : s.StoresWf) : s.bltBurst.StoresWf := by
  unfold Chip.bltBurst
  split
  · exact .ite h ((Chip.bltIssue_wf h _ _ _).of_mem rfl)
  · exact h

theorem Chip.dmaPut_wf (h : s.StoresWf) (a v : Nat) : (s.dmaPut a v).StoresWf :=
  .ite (Chip.memWrite_wf h _ _ _ _ _) (h.of_mem (by simp))

theorem Chip.dmaFinish_wf (h : s.StoresWf) (c : Nat) : (s.dmaFinish c).StoresWf := by
  unfold Chip.dmaFinish
  split
  · exact h
  · extract_lets st pz t t1 t2 t3 t4 t5 t6 t7
    have h1 : t1.StoresWf := Chip.dmaPut_wf (Chip.dmaPut_wf h _ _) _ _
    clear_value t1
    have h7 : t7.StoresWf := h1.of_mem (by simp [t7, t6, t5, t4, t3, t2])
    clear_value t7
    exact .ite h (h7.of_mem (by simp))

/-! ### Start-up -/

theorem Chip.loadRegs_wf (h : s.StoresWf) (a n : Nat) : (s.loadRegs a n).2.StoresWf := by
  induction n generalizing s a with
  | zero => exact h
  | succ n ih =>
    have hp := Chip.perform_wf h (.own 0x48) (s.boot.bytes a 4) 4 true (s.boot.bytes (a + 4) 4) false
    unfold Chip.loadRegs
    dsimp only
    split
    · exact ih h _
    · split
      · exact ih hp _
      · exact hp

theorem Chip.loadImage_wf (h : s.StoresWf) (a n : Nat) : (s.loadImage a n).StoresWf :=
  .foldl (fun _ _ ht => Chip.perform_wf ht _ _ _ _ _ _) _ h

theorem Chip.loadSections_wf (h : s.StoresWf) (c : Nat) (xs : List Section) : (s.loadSections c xs).2.StoresWf := by
  induction xs generalizing s with
  | nil => exact h
  | cons x xs ih =>
    have hr := Chip.loadRegs_wf h (copyBase c + x.off) (x.len / 8)
    unfold Chip.loadSections
    dsimp only
    split
    · split
      · exact ih hr
      · exact hr
    · split
      · exact ih (Chip.loadImage_wf h _ _)
      · split
        · exact ih (h.of_mem (by simp))
        · exact ih h

/-- The chip that an attempt to start from one copy leaves, however it ends. -/
def StartEnd.chip : StartEnd → Chip
  | .ran c | .failed c | .held c => c

theorem Chip.applyCopy_wf (h : s.StoresWf) (c due : Nat) (e : StartEnv) : (s.applyCopy c due e).chip.StoresWf := by
  unfold Chip.applyCopy
  extract_lets t t1 t2 t3 r r0 u u1 u2
  have ht : t.StoresWf := h.of_mem (by simp [t])
  clear_value t
  have h2 : t2.StoresWf := .ite (Chip.zeroStores_wf _) (ht.of_mem (by simp [t1]))
  have hr : r.2.StoresWf := Chip.loadSections_wf (h2.of_mem (by simp [t3])) _ _
  clear_value r
  split
  · exact ht.of_mem (by simp [StartEnd.chip])
  · split
    · exact hr.of_mem (by simp [StartEnd.chip])
    · have hu : u.StoresWf := hr.of_mem (by simp [u])
      clear_value u
      have h1 : u1.StoresWf := .ite (hu.of_mem (by simp)) hu
      clear_value u1
      exact h1.of_mem (by simp [StartEnd.chip, u2])

theorem Chip.tryCopy_wf (h : s.StoresWf) (c due : Nat) (e : StartEnv) : (s.tryCopy c due e).chip.StoresWf := by
  unfold Chip.tryCopy
  split
  · exact h.of_mem (by simp [StartEnd.chip])
  · exact Chip.applyCopy_wf h c due e

theorem Chip.startUp_wf (h : s.StoresWf) (e : StartEnv) : (s.startUp e).StoresWf := by
  unfold Chip.startUp
  split
  · exact h
  · next due _ =>
    have h0 := Chip.tryCopy_wf (h.of_mem (s.startBegin_mem due)) 0 due e
    split
    · exact h
    · split
      · next ht => rwa [ht] at h0
      · next ht => rwa [ht] at h0
      · next t ht =>
        rw [ht] at h0
        have h1 := Chip.tryCopy_wf (s := t) h0 1 due e
        split
        · next hu => rwa [hu] at h1
        · next hu => rwa [hu] at h1
        · next u hu =>
          rw [hu] at h1
          exact Chip.StoresWf.of_mem (s := u) h1 u.enterHold_mem

/-! ### The host and the SMBus target -/

theorem Chip.accessAon_wf (h : s.StoresWf) (m : Master) (la : Nat) (w : Bool) (v : Nat) :
    (s.accessAon m la w v).2.2.StoresWf := by
  unfold Chip.accessAon
  split
  · exact h
  · exact Chip.accessReg_wf h _ _ _ _ _ _

theorem Chip.footingPage_wf (h : s.StoresWf) (w : Bool) (off n v : Nat) : (s.footingPage w off n v).StoresWf := by
  unfold Chip.footingPage
  split
  · exact h.of_mem (by simp)
  · split
    · exact h.of_mem (by simp)
    · next la _ => exact (Chip.accessAon_wf h (hostId 1) la w v).of_mem (by simp)

theorem Chip.barAon_wf (h : s.StoresWf) (f : Nat) (w : Bool) (la v : Nat) : (s.barAon f w la v).StoresWf :=
  (Chip.accessAon_wf h _ _ _ _).of_mem rfl

theorem Chip.barWindow_wf (h : s.StoresWf) (f bar : Nat) (w : Bool) (a n v : Nat) :
    (s.barWindow f bar w a n v).StoresWf := by
  unfold Chip.barWindow
  dsimp only
  split
  · exact .ite (Chip.barAon_wf h _ _ _ _) (h.of_mem (by simp))
  · split
    · exact .ite (Chip.barAon_wf h _ _ _ _) (h.of_mem (by simp))
    · exact .foldl (fun _ _ ht => Chip.submit_wf ht _) _ h

theorem Chip.barRequest_wf (h : s.StoresWf) (f bar : Nat) (w : Bool) (off n v : Nat) :
    (s.barRequest f bar w off n v).StoresWf := by
  unfold Chip.barRequest
  split
  · exact h
  · split
    · exact h.of_mem (by simp)
    · split
      · exact Chip.footingPage_wf h _ _ _ _
      · exact .ite (Chip.barWindow_wf h _ _ _ _ _ _) (Chip.barWindow_wf h _ _ _ _ _ _)

theorem Chip.smbAccess_wf (h : s.StoresWf) (w : Bool) (la v : Nat) : (s.smbAccess w la v).StoresWf := by
  unfold Chip.smbAccess
  extract_lets t a r u
  have ht : t.StoresWf := h.of_mem (by simp [t])
  have hr : r.2.2.StoresWf := by
    unfold r
    split
    · exact Chip.accessAon_wf ht _ _ _ _
    · exact ht
  have hu : u.StoresWf := hr.of_mem (by simp [u])
  exact .ite (.ite (hu.of_mem (by simp)) hu) (.ite (ht.of_mem (by simp)) (Chip.submit_wf ht a))

theorem Chip.smbSetAddress_wf (h : s.StoresWf) (ok : Bool) (a : Nat) : (s.smbSetAddress ok a).StoresWf :=
  .ite h (Chip.smbAccess_wf (h.of_mem (by simp)) _ _ _)

theorem Chip.smbWrite_wf (h : s.StoresWf) (ok : Bool) (v : Nat) : (s.smbWrite ok v).StoresWf :=
  .ite h ((Chip.smbAccess_wf h true s.smb.addr v).of_mem (by simp))

end Sys2Proof.Machine

/-! Every command, and so every step, keeps the stores' canonical form: by the commands' table, on the operations' laws. -/

namespace Sys2Proof.Machine

/-- What power-on reset holds off keeps the canonical form where it acts. -/
theorem State.unlessReset_wf {s : State} {u : Chip} (hs : s.chip.StoresWf) (hu : u.StoresWf) :
    (if s.sup.por then s else { s with chip := u }).chip.StoresWf := by
  split
  · exact hs
  · exact hu

/-- The begin and the end of power-on reset, and TESTMODE. -/
theorem exec_wf_outside {i : Instr} {s t : State} (ho : outside i = true) (hs : s.chip.StoresWf)
    (ht : exec i s = .next t) : t.chip.StoresWf := by
  cases i
  case powerOnReset lost =>
    cases ht
    exact hs.of_mem (by simp)
  case powerOnResetRelease straps =>
    cases ht
    split
    · exact hs.of_mem (by simp)
    · exact hs
  case testmode high =>
    cases ht
    split
    · exact .ite hs (hs.of_mem (by simp))
    · exact hs
  all_goals contradiction

/-- The commands that act on the chip whether or not power-on reset holds write no store. -/
theorem exec_wf_always {i : Instr} {s t : State} (ho : outside i = false) (ha : actsInReset i = true) (hs : s.chip.StoresWf)
    (ht : exec i s = .next t) : t.chip.StoresWf := by
  cases i
  case powerOnReset | powerOnResetRelease | testmode => contradiction
  case railEnter | railLeave | vioChange =>
    cases ht
    exact .ite (hs.of_mem (by simp)) (hs.of_mem (by simp))
  case tick | tbPllLock | pinEdge =>
    cases ht
    exact hs.of_mem (by simp)
  all_goals contradiction

/-- Of the others, accesses, composition, the audio and blit engines, DMA, start-up and the host reach the stores. -/
theorem exec_wf_act {i : Instr} {s t : State} (ha : actsInReset i = false) (hs : s.chip.StoresWf)
    (ht : exec i s = .next t) : t.chip.StoresWf := by
  cases i
  case tick | tbPllLock | railEnter | railLeave | vioChange | pinEdge | powerOnReset | powerOnResetRelease | testmode =>
    contradiction
  all_goals
    cases ht
    refine State.unlessReset_wf hs ?_
  case registerWrite | rcRead | windowRead | windowWrite | broadcast => exact Chip.direct_wf hs _ _ _ _ _
  case train => exact (Chip.regWrite_wf hs _ _ _ _ _).of_mem (Chip.trainNow_mem _ _ _ _ _ _)
  case fabricAccess a => exact Chip.fabricOp_wf hs a
  case courseBegin h => exact hs.whenOn (fun c hc => Chip.courseBegin_wf hc h.1) 37
  case lineCompose h => exact hs.whenOn (fun c hc => Chip.lineCompose_wf hc h.1) 37
  case courseSeal h => exact hs.whenOn (fun c hc => Chip.courseSeal_wf hc h.1) 37
  case teeFrameComplete h => exact hs.whenOn (fun c hc => Chip.teeComplete_wf hc h.1) 37
  case blockCompute =>
    exact hs.whenOn (fun c hc => hc.orWait fun c hc => (Chip.blockCompute_wf hc).of_mem (Chip.dmaLevels_mem _)) 44
  case blitBurst => exact hs.whenOn (fun c hc => hc.orWait fun c hc => Chip.bltBurst_wf hc) 46
  case descriptorFinish i =>
    exact hs.whenOn (fun c hc => (Chip.dmaFinish_wf hc i.1).of_mem (Chip.dmaLevels_mem _)) 45
  case startUp e => exact Chip.startUp_wf hs e
  case barRequest => exact Chip.barRequest_wf hs _ _ _ _ _ _
  case smbSetAddress => exact Chip.smbSetAddress_wf hs _ _
  case smbWrite => exact Chip.smbWrite_wf hs _ _
  case flipArm | fenceSignal | htagArm | regionLock | freezeClear | headRun | headStop | faddrWrite |
      auxTransaction | psrEnter | psrExit | audioRun | holdRelease | keyOn | keyOff | voiceStop | timedCommand |
      portEnable | blitGo | blitAbort | dmaStart | dmaHalt | dmaResume | dmaAbort | dmaBell | coreRun | coreHalt |
      coreStep | coreReset | swset | channelCfgWrite | elogPop | spareGo | compareArm | disarm | intervalStart |
      intervalCont | intervalStop | intervalLoad | adcStart | adcStop | swtrig | swprod | funcChange | pinSet | pinClr
      | pinTgl | lockKey | pinPark | unpark | serialPush | psqHalt | psqResume | psqRestart | psqFlush | coldReset |
      keystoneReset | watchdogKick | bootRead | bootProgram | bootErase4k | bootErase64k | domainOff | psmWake | rearm
      | assayRequest | assayAbort | resPop | lgrPop | maintenanceEnter =>
    exact Chip.regWrite_wf hs _ _ _ _ _
  case signatureRead | fstampRead | glFperRead | claim | tbRead | captureRead | adcFifoPop | serialPop =>
    exact Chip.regRead_wf hs _ _ _ _
  all_goals exact hs.of_mem (by simp)

/-- Settles O7: only the operations above write the stores, and each keeps the canonical form. -/
theorem memoryKept : Obligations.MemoryKept := by
  unfold Obligations.MemoryKept
  intro s t hs ht
  have hwf : s.chip.StoresWf := ⟨hs⟩
  cases hq : s.pending with
  | nil =>
    obtain rfl := Host.Outcome.next.inj ((stepRunsFront.2 s hq).symm.trans ht)
    exact hs
  | cons i rest =>
    have hi : exec i { s with pending := rest } = .next t := (stepRunsFront.1 s i rest hq).symm.trans ht
    have hr : ({ s with pending := rest } : State).chip.StoresWf := hwf
    cases ho : outside i with
    | true => exact (exec_wf_outside ho hr hi).wf
    | false =>
      cases ha : actsInReset i with
      | true => exact (exec_wf_always ho ha hr hi).wf
      | false => exact (exec_wf_act ha hr hi).wf

end Sys2Proof.Machine

/-! Every register's address decodes to it alone (spec/01_one_frame.md, R25). A family's addresses step by its two strides;
modulo a number that a stride is a multiple of, that stride falls away and the rest spans a short interval. Two families
whose intervals are apart for some modulus share no address; that such a modulus exists is checked over the table. -/

namespace Sys2Proof.Machine

/-! ### A family's addresses modulo M -/

/-- How far n steps of stride t reach, modulo M: a stride that M divides reaches nowhere. -/
def reach (M t n : Nat) : Nat := if t % M = 0 then 0 else (n - 1) * t

/-- The first address of a family modulo M, and the last where the family does not wrap past M. -/
def RegRow.foot (r : RegRow) (M : Nat) : Nat := r.base % M
def RegRow.top (r : RegRow) (M : Nat) : Nat := r.foot M + reach M r.s1 r.n1 + reach M r.s2 r.n2

/-- A step's part of an address, modulo M, is one within its reach. -/
theorem exists_reach {M t n i : Nat} (hi : i < n) : ∃ e ≤ reach M t n, (i * t) % M = e % M := by
  unfold reach
  split
  · next h => exact ⟨0, Nat.le_refl 0, by rw [Nat.mul_mod, h]; simp⟩
  · exact ⟨i * t, Nat.mul_le_mul_right t (by omega), rfl⟩

/-- Every address of a family that does not wrap lies modulo M between its foot and its top. -/
theorem RegRow.addr_mod {r : RegRow} {M i j : Nat} (hi : i < r.n1) (hj : j < r.n2) (ht : r.top M < M) :
    r.foot M ≤ (r.base + i * r.s1 + j * r.s2) % M ∧ (r.base + i * r.s1 + j * r.s2) % M ≤ r.top M := by
  obtain ⟨e, he, hie⟩ := exists_reach (M := M) (t := r.s1) hi
  obtain ⟨f, hf, hjf⟩ := exists_reach (M := M) (t := r.s2) hj
  have hmod : (r.base + i * r.s1 + j * r.s2) % M = (r.foot M + e + f) % M :=
    ((Nat.mod_modEq _ _).symm.add hie).add hjf
  have hle : r.foot M + e + f ≤ r.top M := by unfold RegRow.top; omega
  rw [hmod, Nat.mod_eq_of_lt (by omega)]
  exact ⟨by omega, hle⟩

/-! ### Families apart -/

/-- Modulo M neither family wraps, and one ends below the other's beginning. -/
def RegRow.apartAt (r q : RegRow) (M : Nat) : Bool :=
  decide (r.top M < M) && decide (q.top M < M) && (decide (r.top M < q.foot M) || decide (q.top M < r.foot M))

/-- Some modulus, the address space or a stride of either, sets the families apart. -/
def RegRow.apart (r q : RegRow) : Bool := [2 ^ 30, r.s1, q.s1, r.s2, q.s2].any (r.apartAt q)

theorem RegRow.ne_of_apart {r q : RegRow} (h : r.apart q = true) {i j k l : Nat} (hi : i < r.n1) (hj : j < r.n2)
    (hk : k < q.n1) (hl : l < q.n2) : r.base + i * r.s1 + j * r.s2 ≠ q.base + k * q.s1 + l * q.s2 := by
  obtain ⟨M, -, hM⟩ := List.any_eq_true.mp h
  simp only [RegRow.apartAt, Bool.and_eq_true, Bool.or_eq_true, decide_eq_true_eq] at hM
  obtain ⟨⟨hr, hq⟩, hne⟩ := hM
  have h1 := RegRow.addr_mod hi hj hr
  have h2 := RegRow.addr_mod hk hl hq
  intro he
  rw [he] at h1
  omega

/-- An address of one family is none of a family apart from it. -/
theorem RegRow.index_apart {r q : RegRow} (h : r.apart q = true) {i j : Nat} (hi : i < q.n1) (hj : j < q.n2) :
    r.index (q.base + i * q.s1 + j * q.s2) = none := by
  unfold RegRow.index
  extract_lets o k l
  rw [if_neg]
  rintro ⟨hb, hk, hl, ho⟩
  refine RegRow.ne_of_apart h hk hl hi hj ?_
  omega

/-! ### A family's own addresses -/

/-- The second index stays within one step of the first; strides are not 0, and multiples of 4. -/
def RegRow.ordered (r : RegRow) : Bool :=
  decide (0 < r.s1) && (decide (r.n2 ≤ 1) || decide (0 < r.s2) && decide (r.n1 ≤ 1 ∨ (r.n2 - 1) * r.s2 < r.s1)) &&
    decide (r.base % 4 = 0) && decide (r.s1 % 4 = 0) && decide (r.s2 % 4 = 0)

/-- The indices of an address are read back from it. -/
theorem RegRow.index_addr {r : RegRow} (h : r.ordered = true) {i j : Nat} (hi : i < r.n1) (hj : j < r.n2) :
    r.index (r.base + i * r.s1 + j * r.s2) = some (i, j) := by
  simp only [RegRow.ordered, Bool.and_eq_true, Bool.or_eq_true, decide_eq_true_eq] at h
  obtain ⟨⟨⟨⟨h1, h2⟩, -⟩, -⟩, -⟩ := h
  have ho : r.base + i * r.s1 + j * r.s2 - r.base = i * r.s1 + j * r.s2 := by omega
  have hfirst : (if r.n1 ≤ 1 then 0 else (i * r.s1 + j * r.s2) / r.s1) = i := by
    split
    · omega
    · next hn =>
      have hj1 : j * r.s2 < r.s1 := by
        rcases h2 with h2 | ⟨-, h2⟩
        · obtain rfl : j = 0 := by omega
          simpa using h1
        · have := Nat.mul_le_mul_right r.s2 (show j ≤ r.n2 - 1 by omega)
          omega
      rw [Nat.mul_comm i, Nat.mul_add_div h1, Nat.div_eq_of_lt hj1, Nat.add_zero]
  have hsecond : (if r.n2 ≤ 1 then 0 else (i * r.s1 + j * r.s2 - i * r.s1) / r.s2) = j := by
    split
    · omega
    · rw [Nat.add_sub_cancel_left, Nat.mul_div_cancel j (by omega)]
  unfold RegRow.index
  dsimp only
  rw [ho, hfirst, hsecond, if_pos ⟨by omega, hi, hj, rfl⟩]

/-! ### The blocks -/

/-- The addresses of a block of the register map: the first, and the first past its end. -/
def Block.span : Block → Nat × Nat
  | .sys => (0x3C000000, 0x3C100000)
  | .psm => (0x3C100000, 0x3C180000)
  | .asy => (0x3C180000, 0x3C200000)
  | .fab => (0x3C200000, 0x3C300000)
  | .intc => (0x3C300000, 0x3C400000)
  | .mbx => (0x3C400000, 0x3C500000)
  | .tb => (0x3C500000, 0x3C510000)
  | .tim => (0x3C510000, 0x3C580000)
  | .cap => (0x3C580000, 0x3C600000)
  | .evf => (0x3C600000, 0x3C700000)
  | .pin => (0x3C700000, 0x3C780000)
  | .psq => (0x3C780000, 0x3C800000)
  | .dma => (0x3C800000, 0x3C900000)
  | .blt => (0x3C900000, 0x3CA00000)
  | .cps => (0x3D000000, 0x3D100000)
  | .lay => (0x3D100000, 0x3D300000)
  | .hmk => (0x3D300000, 0x3D500000)
  | .lpe => (0x3D500000, 0x3D600000)
  | .sh => (0x3D800000, 0x3E000000)
  | .aud => (0x3E000000, 0x3E800000)
  | .lnk => (0x3E800000, 0x3F000000)
  | .hst => (0x3F000000, 0x3F800000)
  | .adc => (0x3F800000, 0x40000000)

/-- An address within a block's span is that block's. -/
theorem Block.of_span (b : Block) {a : Nat} (h : b.span.1 ≤ a ∧ a < b.span.2) : Block.of a = some b := by
  unfold Block.of
  cases b
  all_goals
    dsimp only [Block.span] at h
    repeat rw [if_neg (by omega)]
    rw [if_pos (by omega)]

/-- A family's addresses lie within its block, which is in the register space, and its row is ordered. -/
def RegId.placed (id : RegId) : Bool :=
  id.block.ids.contains id && id.row.ordered && decide (id.block.span.1 ≤ id.row.base) &&
    decide (id.row.base + (id.row.n1 - 1) * id.row.s1 + (id.row.n2 - 1) * id.row.s2 < id.block.span.2)

theorem RegId.placed_all (id : RegId) : id.placed = true := by
  cases id <;> decide +kernel

/-- The families of one block are apart from one another. -/
theorem Block.ids_apart (b : Block) : b.ids.Pairwise fun x y => x.row.apart y.row = true := by
  cases b <;> decide +kernel

/-- Of families apart, the search finds the one whose address is sought. -/
theorem findSome_index {l : List RegId} (hl : l.Pairwise fun x y => x.row.apart y.row = true) {id : RegId} (hid : id ∈ l)
    (ho : id.row.ordered = true) {i j : Nat} (hi : i < id.row.n1) (hj : j < id.row.n2) :
    (l.findSome? fun x => (x.row.index (id.addr i j)).map fun p => (x, p.1, p.2)) = some (id, i, j) := by
  induction l with
  | nil => contradiction
  | cons x l ih =>
    obtain ⟨hx, hl⟩ := List.pairwise_cons.mp hl
    rw [List.findSome?_cons]
    rcases List.mem_cons.mp hid with rfl | hid
    · rw [RegId.addr, RegRow.index_addr ho hi hj]
      rfl
    · have hn : x.row.index (id.addr i j) = none := RegRow.index_apart (hx id hid) hi hj
      rw [hn]
      exact ih hl hid

/-- Settles O6: the families of a block are apart, and an address lies within its family's block. -/
theorem registerAddresses : Obligations.RegisterAddresses := by
  unfold Obligations.RegisterAddresses
  intro id i j hi hj
  have hp := id.placed_all
  simp only [RegId.placed, Bool.and_eq_true, decide_eq_true_eq, List.contains_iff_mem] at hp
  obtain ⟨⟨⟨hmem, ho⟩, hlo⟩, hhi⟩ := hp
  have h1 := Nat.mul_le_mul_right id.row.s1 (show i ≤ id.row.n1 - 1 by omega)
  have h2 := Nat.mul_le_mul_right id.row.s2 (show j ≤ id.row.n2 - 1 by omega)
  have hspan : id.block.span.1 ≤ id.addr i j ∧ id.addr i j < id.block.span.2 := by unfold RegId.addr; omega
  have hspace : 0x3C000000 ≤ id.block.span.1 ∧ id.block.span.2 ≤ 2 ^ 30 := by
    cases id.block <;> exact ⟨by decide, by decide⟩
  refine ⟨?decode, ?aligned, by omega, by omega⟩
  case decode =>
    rw [decodeReg, Block.of_span _ hspan]
    exact findSome_index (Block.ids_apart _) hmem ho hi hj
  case aligned =>
    simp only [RegRow.ordered, Bool.and_eq_true, decide_eq_true_eq] at ho
    obtain ⟨⟨⟨-, hb⟩, hs1⟩, hs2⟩ := ho
    rw [RegId.addr, Nat.add_mod, Nat.add_mod id.row.base, Nat.mul_mod i, Nat.mul_mod j, hb, hs1, hs2]
    simp

end Sys2Proof.Machine

/-! Accesses to a store that serves them (spec/11_fabric_stores.md, R26, R348): a write leaves the bytes it names, a read
answers them. -/

namespace Sys2Proof.Machine

/-- An access to a store that is not refused: it is aligned, within the memory, the store has power, and a write is none of
the ingot store. -/
theorem Chip.perform_store {s : Chip} {la n : Nat} {w : Bool} (hf : s.domOn 41 = true) (hla : la < 0x17210000)
    (hn : natural la n = true) (hup : s.storeUp la = true) (hw : w = true → ¬(0x16000000 ≤ la ∧ la < 0x17000000))
    (m : Master) (v : Nat) (p : Bool) :
    s.perform m la n w v p =
      if w then (.okay, 0, s.memWrite m la n (v % 2 ^ (8 * n)) p)
      else (if (s.memRead la n).2.1 then .poison else .okay, (s.memRead la n).1, (s.memRead la n).2.2) := by
  have hmem : inMemory la = true := decide_eq_true hla
  unfold Chip.perform Chip.accessMem
  rw [if_neg (by omega), if_neg (by simp [hf]), if_neg (by omega), if_neg (by simp [hn, hmem]), if_neg (by simpa using hw),
    if_neg (by simp [hup])]

/-- A write to a store that serves it writes its bytes and is answered OKAY. -/
theorem Chip.submit_storeWrite {s : Chip} {m : Master} {a n v : Nat} {p : Bool} (hf : s.domOn 41 = true)
    (hc : a / 2 ^ 30 = s.chipNo) (hla : a % 2 ^ 30 < 0x17210000) (hi : ¬(0x16000000 ≤ a % 2 ^ 30 ∧ a % 2 ^ 30 < 0x17000000))
    (hn : natural (a % 2 ^ 30) n = true) (hup : s.storeUp (a % 2 ^ 30) = true)
    (hr : s.heldByRepair (a % 2 ^ 30) n = false) (hfree : Free s (given m true a n v p)) :
    s.submit (given m true a n v p) =
      (s.memWrite m (a % 2 ^ 30) n (v % 2 ^ (8 * n)) p).respond (given m true a n v p) .okay 0 := by
  rw [Chip.submit_store hfree hc hr]
  simp only [given]
  rw [Chip.perform_store hf hla hn hup fun _ => hi]
  rfl

/-- A read of a store that serves it is answered with its bytes, POISON where a unit it touches is poisoned. -/
theorem Chip.submit_storeRead {s : Chip} {m : Master} {a n v : Nat} (hf : s.domOn 41 = true)
    (hc : a / 2 ^ 30 = s.chipNo) (hla : a % 2 ^ 30 < 0x17210000) (hn : natural (a % 2 ^ 30) n = true)
    (hup : s.storeUp (a % 2 ^ 30) = true) (hr : s.heldByRepair (a % 2 ^ 30) n = false)
    (hfree : Free s (given m false a n v false)) :
    s.submit (given m false a n v false) =
      (s.memRead (a % 2 ^ 30) n).2.2.respond (given m false a n v false)
        (if (s.memRead (a % 2 ^ 30) n).2.1 then .poison else .okay) (s.memRead (a % 2 ^ 30) n).1 := by
  rw [Chip.submit_store hfree hc hr]
  simp only [given]
  rw [Chip.perform_store (w := false) hf hla hn hup (by simp)]
  rfl

/-- Settles O11: an access that is served is its bytes written, or read, and its response. -/
theorem storeAccesses : Obligations.StoreAccesses := by
  unfold Obligations.StoreAccesses
  refine ⟨?write, ?read⟩
  case write =>
    intro s m p a n d hl hf hc hla hi hn hup hr hfree
    obtain ⟨hmem, hresps⟩ := s.chip.memWrite_mem m (a.toNat % 2 ^ 30) n (d.toNat % 2 ^ (8 * n)) p
    rw [exec_fabricAccess_given hl, Chip.submit_storeWrite hf hc hla hi hn hup hr hfree]
    refine ⟨_, rfl, rfl, rfl, ?resps, ?named, ?others⟩
    case resps => rw [Chip.respond, hresps]; rfl
    case named => rw [Chip.respond, hmem, Memory.read_write_self, show 256 = 2 ^ 8 from rfl, ← Nat.pow_mul, Nat.mod_mod]
    case others =>
      intro x hx
      rw [Chip.respond, hmem, Memory.byte_write_outside _ _ _ _ _ hx]
  case read =>
    intro s m a n d hl hf hc hla hn hup hr hfree
    have hk : Chip.Kept (s.chip.memRead (a.toNat % 2 ^ 30) n).2.2 s.chip := Chip.checkUnits_kept _ s.chip
    rw [exec_fabricAccess_given hl, Chip.submit_storeRead hf hc hla hn hup hr hfree]
    refine ⟨_, rfl, ?bytes, ?resps⟩
    case bytes =>
      intro x
      rw [Chip.respond, hk.mem]
    case resps => rw [Chip.respond, hk.resps]; rfl

end Sys2Proof.Machine

/-! The Anvil arithmetic on 36-bit words is that of bit vectors (spec/09_anvil_instruction_set.md, Tables 9.11 to 9.16). -/

namespace Sys2Proof.Machine

/-! ### Words as signed numbers -/

/-- A word read as signed is the bit vector read as signed. -/
theorem sx_toNat (a : BitVec 36) : sx 36 a.toNat = a.toInt := by
  have ha := a.isLt
  simp only [sx, BitVec.toInt, Nat.mod_eq_of_lt ha]
  split <;> split <;> omega

/-- A number as a word of w bits is the bit vector of it. -/
theorem tc_eq_ofInt (w : Nat) (x : Int) : tc w x = (BitVec.ofInt w x).toNat := by
  rw [BitVec.toNat_ofInt, tc]

/-- The choice between two words is the choice between their numbers. -/
theorem toNat_ite (c : Prop) [Decidable c] (a b : BitVec 36) : (if c then a else b).toNat = if c then a.toNat else b.toNat :=
  apply_ite _ _ _ _

/-- A truth value as a word is 1 or 0. -/
theorem b2n_decide (c : Prop) [Decidable c] : b2n (decide c) = if c then 1 else 0 := by
  by_cases h : c <;> simp [b2n, h]

/-! ### The saturated sum -/

theorem sat36_below {x : Int} (h : x < -2 ^ 35) : sat36 x = 2 ^ 35 := by
  have hx : clampI (-34359738368) 34359738367 x = -34359738368 := by unfold clampI; omega
  rw [sat36, hx]
  rfl

theorem sat36_above {x : Int} (h : 2 ^ 35 ≤ x) : sat36 x = 2 ^ 35 - 1 := by
  have hx : clampI (-34359738368) 34359738367 x = 34359738367 := by unfold clampI; omega
  rw [sat36, hx]
  rfl

theorem sat36_within {x : Int} (hl : -2 ^ 35 ≤ x) (hu : x < 2 ^ 35) : sat36 x = (BitVec.ofInt 36 x).toNat := by
  have hx : clampI (-34359738368) 34359738367 x = x := by unfold clampI; omega
  rw [sat36, hx, tc_eq_ofInt]

/-! ### The products' halves -/

/-- The signed product's two halves are those of the product of the words widened by their sign. -/
theorem tc72_mul (a b : BitVec 36) : tc 72 (a.toInt * b.toInt) = (a.signExtend 72 * b.signExtend 72).toNat := by
  rw [tc_eq_ofInt, BitVec.ofInt_mul]
  rfl

/-- The two halves of a number make it up. -/
theorem halves (p : Nat) : p % 2 ^ 36 + p / 2 ^ 36 * 2 ^ 36 = p := by
  rw [Nat.mul_comm]
  exact Nat.mod_add_div p (2 ^ 36)

/-- Settles O41: each operation on words is the one on bit vectors of 36 bits, read as signed by sx. -/
theorem anvilArithmetic : Obligations.AnvilArithmetic := by
  unfold Obligations.AnvilArithmetic
  refine ⟨?logic, ?order, ?saturated, ?products, ?shifts, ?shiftedOut, ?branches⟩
  case logic =>
    intro a b
    refine ⟨?add, ?sub, ?land, ?lor, ?lxor⟩
    case add => exact (BitVec.toNat_add a b).symm
    case sub =>
      have hb : b.toNat % 2 ^ 36 = b.toNat := Nat.mod_eq_of_lt b.isLt
      simp only [aluOp, hb, BitVec.toNat_sub]
    case land => exact (BitVec.toNat_and a b).symm
    case lor => exact (BitVec.toNat_or a b).symm
    case lxor => exact (BitVec.toNat_xor a b).symm
  case order =>
    intro a b
    simp only [aluOp, sx_toNat, toNat_ite, b2n_decide, true_and]
    simp only [b2n, beq_iff_eq, BitVec.toNat_inj, true_and]
  case saturated =>
    intro a b
    simp only [aluOp, sx_toNat]
    refine ⟨sat36_below, sat36_above, fun hl hu => ?_⟩
    rw [sat36_within hl hu, BitVec.ofInt_add, BitVec.ofInt_toInt, BitVec.ofInt_toInt]
  case products =>
    intro a b
    simp only [mulOp, sx_toNat, halves, tc72_mul, true_and]
  case shifts =>
    intro a b h
    simp only [shfOp, if_neg (Nat.not_le.mpr h), BitVec.toNat_shiftLeft, BitVec.toNat_ushiftRight, Nat.shiftLeft_eq,
      Nat.shiftRight_eq_div_pow, true_and]
  case shiftedOut =>
    intro a b h
    have ha : a.toNat < 2 ^ (b.toNat % 64) := lt_of_lt_of_le a.isLt (Nat.pow_le_pow_right (by decide) h)
    exact ⟨if_pos h, Nat.div_eq_of_lt ha⟩
  case branches =>
    intro a b
    simp only [branchOn, sx_toNat, beq_iff_eq, bne_iff_ne, ne_eq, BitVec.toNat_inj, decide_eq_true_eq, true_and]

end Sys2Proof.Machine

/-! The commands as effects (spec/11_fabric_stores.md, R348): what a served access, a powered unit, or an effect that always
happens comes to, with power-on reset released. A command's own definition is taken by its equation, true by definition. -/

namespace Sys2Proof.Machine

section

variable {s : State} {i : Instr} {m : Master} {id : RegId} {k j v d : Nat} {f : Chip → Chip} {t : Chip}

/-- A write to a register outside the audio block finds the chip as it stands. -/
theorem Chip.taken_eq (c : Chip) (h : id.block ≠ .aud) : c.taken id = c := if_neg h

/-- A command with an effect on the chip. -/
theorem exec_live (hl : Live s) (he : exec i s = s.act f) (ht : f s.chip = t) : exec i s = .next (s.withChip t) := by
  rw [he, State.act_live hl, ht]

/-- A command of a unit whose domain is on. -/
theorem exec_on (hl : Live s) (hd : s.chip.domOn d = true) (he : exec i s = s.act fun c => c.whenOn d f)
    (ht : f s.chip = t) : exec i s = .next (s.withChip t) :=
  exec_live hl he ((Chip.whenOn_on hd f).trans ht)

/-- A command that is a served write to a register outside the audio block. -/
theorem exec_write (hl : Live s) (hs : Served s.chip m id k j true) (he : exec i s = s.act fun c => c.regWrite m id k j v)
    (hb : id.block ≠ .aud) (hv : v < 2 ^ 32) (ht : s.chip.writeReg m id k j v = t) :
    exec i s = .next (s.withChip (t.afterWrite s.chip m id k j v)) := by
  refine exec_live hl he ?_
  rw [Chip.regWrite_served hs, Chip.taken_eq _ hb, Nat.mod_eq_of_lt hv, ht]

/-- The same for a register of the audio block, which takes what is due first (R202). -/
theorem exec_audWrite (hl : Live s) (hs : Served s.chip m id k j true)
    (he : exec i s = s.act fun c => c.regWrite m id k j v) (hb : id.block = .aud) (hv : v < 2 ^ 32)
    (ht : s.chip.audTake.writeReg m id k j v = t) : exec i s = .next (s.withChip (t.afterWrite s.chip m id k j v)) := by
  refine exec_live hl he ?_
  rw [Chip.regWrite_served hs, show s.chip.taken id = s.chip.audTake from if_pos hb, Nat.mod_eq_of_lt hv, ht]

/-- A command that is a served read of a register. -/
theorem exec_read (hl : Live s) (hs : Served s.chip m id k j false) (he : exec i s = s.act fun c => c.regRead m id k j)
    (ht : s.chip.readReg m id k j = (v, t)) : exec i s = .next (s.withChip (t.afterRead s.chip m id k j v)) := by
  refine exec_live hl he ?_
  rw [Chip.regRead_served hs, ht]

end

/-! ### Register writes and reads at an address -/

/-- Settles O8: a served write is the unit's effect on the value written, which for these two registers is by field. -/
theorem registerWrites : Obligations.RegisterWrites := by
  unfold Obligations.RegisterWrites
  refine ⟨?served, ?winchip, ?alarm⟩
  case served =>
    intro s m id i j a v hl hs ha
    rw [exec_registerWrite_at hl m ha, Chip.regWrite_served hs, Nat.mod_eq_of_lt v.isLt]
  case winchip =>
    intro s m a v hl hs ha
    rw [exec_registerWrite_at hl m ha, Chip.regWrite_served hs, Nat.mod_eq_of_lt v.isLt, Chip.taken_eq _ (by decide)]
    rfl
  case alarm =>
    intro s m a v hl hs ha
    rw [exec_registerWrite_at hl m ha, Chip.regWrite_served hs, Nat.mod_eq_of_lt v.isLt, Chip.taken_eq _ (by decide)]
    rfl

/-- PSM_OFFCNT answers its two fields, and both are cleared. -/
theorem Chip.readReg_psmOffcnt (c : Chip) (m : Master) :
    c.readReg m .psmOffcnt 0 0 = (c.fld F.psmOffcnt_SAT * 2 ^ 31 + c.fld F.psmOffcnt_COUNT,
      (c.setFld F.psmOffcnt_SAT 0 0 0).setFld F.psmOffcnt_COUNT 0 0 0) := by
  have hw : c.word .psmOffcnt = c.fld F.psmOffcnt_SAT * 2 ^ 31 + c.fld F.psmOffcnt_COUNT := by
    simp [Chip.word, RegId.row, F.psmOffcnt_SAT, F.psmOffcnt_COUNT]
  exact congrArg (fun w => (w, (c.setFld F.psmOffcnt_SAT 0 0 0).setFld F.psmOffcnt_COUNT 0 0 0)) hw

/-- A register without read-cleared fields is read and left. -/
theorem Chip.readReg_hstWinchip (c : Chip) (m : Master) : c.readReg m .hstWinchip 0 0 = (c.fld F.hstWinchip_CHIP, c) := by
  have hw : c.word .hstWinchip = c.fld F.hstWinchip_CHIP := by simp [Chip.word, RegId.row, F.hstWinchip_CHIP]
  exact congrArg (fun w => (w, c)) hw

/-- Settles O9: a served read answers the register's word, and clears the fields that a read clears. -/
theorem readClears : Obligations.ReadClears := by
  unfold Obligations.ReadClears
  refine ⟨?cleared, ?left⟩
  case cleared =>
    intro s m a hl hs ha
    rw [exec_rcRead_at hl m ha, Chip.regRead_served hs, Chip.readReg_psmOffcnt]
  case left =>
    intro s m a hl hs ha
    rw [exec_rcRead_at hl m ha, Chip.regRead_served hs, Chip.readReg_hstWinchip]

end Sys2Proof.Machine

/-! Refused register accesses (spec/01_one_frame.md, R13, R23, R26), issued accesses, and responses delivered and logged
(spec/11_fabric_stores.md, R348, R353, R364). -/

namespace Sys2Proof.Machine

/-- With power-on reset released, a register write given by a master is submitted on the chip. -/
theorem exec_registerWrite_given {s : State} (hl : Live s) (m : Master) (a : BitVec 40) (v : BitVec 32) :
    exec (.registerWrite m a v) s = .next (s.withChip (s.chip.submit (given m true a.toNat 4 v.toNat false))) :=
  exec_live hl (f := fun c => c.direct m true a.toNat 4 v.toNat) rfl rfl

/-- A register whose unit refuses the access answers with the unit's error, and stays as it was. -/
theorem Chip.perform_refused {s : Chip} {m : Master} {la i j : Nat} {id : RegId} {k : RespKind} (hf : s.domOn 41 = true)
    (hr : 0x3C000000 ≤ la) (ha : la % 4 = 0) (hd : decodeReg la = some (id, i, j)) (hk : s.regRefuses m id i true = some k)
    (hcfg : id ≠ .mbxChCfg) (hstat : id ≠ .mbxChStat) (v : Nat) (p : Bool) : s.perform m la 4 true v p = (k, 0, s) := by
  unfold Chip.perform Chip.accessReg
  rw [if_pos hr, if_neg (by simp [ha]), hd]
  dsimp only
  rw [if_pos (.inl hf), hk]
  dsimp only
  rw [if_neg (by simp [hcfg, hstat])]

/-- A reserved offset of the register space, or a misaligned address of it, answers DECODE. -/
theorem Chip.perform_reserved (s : Chip) {m : Master} {la : Nat} (hr : 0x3C000000 ≤ la)
    (hd : la % 4 ≠ 0 ∨ decodeReg la = none) (v : Nat) (p : Bool) : s.perform m la 4 true v p = (.decode, 0, s) := by
  by_cases ha : la % 4 = 0
  · have hn : decodeReg la = none := hd.resolve_left (by simp [ha])
    unfold Chip.perform
    rw [if_pos hr, if_neg (by simp [ha]), hn]
  · exact s.perform_reg_misfit hr (.inr ha) m true v p

/-- Settles O10: a refused access is performed as its error alone, which its response carries. -/
theorem refusedAccesses : Obligations.RefusedAccesses := by
  unfold Obligations.RefusedAccesses
  refine ⟨?unit, ?reserved⟩
  case unit =>
    intro s m a v id i j k hl hf hc hr ha hd hk hcfg hstat hfree
    rw [exec_registerWrite_given hl, Chip.submit_reg hfree hc hr]
    simp only [given]
    rw [Chip.perform_refused hf hr (by omega) hd hk hcfg hstat]
    rfl
  case reserved =>
    intro s m a v hl hc hr hd hfree
    rw [exec_registerWrite_given hl, Chip.submit_reg hfree hc hr]
    simp only [given]
    rw [s.chip.perform_reserved hr (hd.imp_left (by omega))]
    rfl

/-- An issued access that no earlier one holds back leaves the list and is routed. -/
theorem Chip.issueNth_free {s : Chip} {n : Nat} {a : Access} (hn : s.issueQ[n]? = some a)
    (hf : ∀ b ∈ s.issueQ.take n ++ s.held, b.holdsBack a = false) :
    s.issueNth n = Chip.route { s with issueQ := s.issueQ.eraseIdx n } a := by
  unfold Chip.issueNth
  rw [hn]
  refine if_neg ?_
  rw [List.any_eq_true]
  rintro ⟨b, hb, ht⟩
  simp [hf b hb] at ht

/-- A response that no engine waits for is taken and logged. -/
theorem Chip.accessResponse_plain {s : Chip} {m : Master} {r : Resp} {rest : List Resp}
    (ht : takeResp (fun r => r.mst == m && !r.coreRead) s.resps = some (r, rest)) (ho : r.owner = .none) :
    s.accessResponse m = Chip.logResp { s with resps := rest } r := by
  unfold Chip.accessResponse
  rw [ht]
  dsimp only
  rw [ho]

/-- With power-on reset released, ACCESS_RESPONSE delivers the oldest response and looks at the DMA levels. -/
theorem exec_accessResponse {s : State} (hl : Live s) (m : Master) :
    exec (.accessResponse m) s = .next (s.withChip (s.chip.accessResponse m).dmaLevels) :=
  exec_live hl (f := fun c => (c.accessResponse m).dmaLevels) rfl rfl

/-- A DECODE error in an empty log is its one record, with its event. -/
theorem Chip.logResp_decode_empty {s : Chip} {r : Resp} (hk : r.kind = .decode) (he : s.elog = []) :
    s.logResp r =
      ({ s with elog := [⟨4, r.mst.idNo, s.masterChip r.mst, s.recordStore r.addr, r.addr, s.tb.toNat % 2 ^ 32⟩] } : Chip).raise
        343 := by
  unfold Chip.logResp Chip.logErr
  rw [if_neg (by simp [hk]), hk, he]
  rfl

/-- Settles O12: the access is routed as it stands, the response is what its taking leaves, logged. -/
theorem accessesAndResponses : Obligations.AccessesAndResponses := by
  unfold Obligations.AccessesAndResponses
  refine ⟨?issued, ?delivered, ?logged⟩
  case issued =>
    intro s n a hl hn hf
    exact exec_live hl (f := fun c => c.fabricOp (.issued n)) rfl (Chip.issueNth_free hn hf)
  case delivered =>
    intro s m r rest hl ht ho
    rw [exec_accessResponse hl, Chip.accessResponse_plain ht ho]
  case logged =>
    intro s m r rest hl he ht ho hk
    rw [exec_accessResponse hl, Chip.accessResponse_plain ht ho,
      Chip.logResp_decode_empty (s := { s.chip with resps := rest }) hk he]
    rfl

end Sys2Proof.Machine

/-! The assay controller: requests, results, the ledger's list and maintenance (spec/16_power_assay_spares.md, R505 to
R513). -/

namespace Sys2Proof.Machine

/-! ### The controller's registers -/

theorem Chip.writeReg_asyReq (c : Chip) (m : Master) (v : Nat) : c.writeReg m .asyReq 0 0 v = c.writeAsyReq v := rfl
theorem Chip.writeReg_asyMaint (c : Chip) (m : Master) (v : Nat) : c.writeReg m .asyMaint 0 0 v = c.writeMaint m v := rfl

theorem Chip.on_iff (c : Chip) (f : Fd) (i j : Nat) : c.on f i j = true ↔ c.fld f i j ≠ 0 := by simp [Chip.on]
theorem Chip.on_false_iff (c : Chip) (f : Fd) (i j : Nat) : c.on f i j = false ↔ c.fld f i j = 0 := by simp [Chip.on]

/-- The word of a request has GO and no ABORT, and its class and index where REQ has them. -/
theorem asyRequest_word (cls : BitVec 4) (idx : BitVec 12) :
    bit (2 ^ 31 + cls.toNat * 2 ^ 20 + idx.toNat) 30 = false ∧ bit (2 ^ 31 + cls.toNat * 2 ^ 20 + idx.toNat) 31 = true ∧
      bits (2 ^ 31 + cls.toNat * 2 ^ 20 + idx.toNat) 23 20 = cls.toNat ∧
      bits (2 ^ 31 + cls.toNat * 2 ^ 20 + idx.toNat) 11 0 = idx.toNat := by
  simp only [bit, bits, beq_iff_eq, beq_eq_false_iff_ne]
  omega

/-- A field set leaves the record of the controller. -/
@[simp] theorem Chip.asy_setFld (c : Chip) (f : Fd) (i j v : Nat) : (c.setFld f i j v).asy = c.asy := rfl
@[simp] theorem Chip.asy_updAsy (c : Chip) (f : Asy → Asy) : (c.updAsy f).asy = f c.asy := rfl

/-- With fewer than 16 results, one more is entered with its event. -/
theorem Chip.enterResult_room {c : Chip} (h : c.asy.results.length < 16) (code cls index phys detail : Nat) :
    c.enterResult code cls index phys detail =
      (c.updAsy fun a => { a with results := a.results ++ [⟨code, cls, index, phys, c.now % 2 ^ 32, detail⟩] }).asyStick
        F.asyStat_RESULT := if_pos h

/-- A refused request leaves the queue, with a result where there is room. -/
theorem Chip.asyRefuse_room {c : Chip} {q : Nat × Nat} {rest : List (Nat × Nat)} (hq : c.asy.queue = q :: rest)
    (h : c.asy.results.length < 16) (code cls idx : Nat) :
    c.asyRefuse code cls idx =
      ((c.setFld F.asyStat_ASSAY_WAIT 0 0 0).updAsy fun a =>
        { a with queue := rest, results := a.results ++ [⟨code, cls, idx, 0, c.now % 2 ^ 32, 0⟩] }).asyStick
        F.asyStat_RESULT := by
  rw [Chip.asyRefuse, Chip.enterResult_room (by simpa using h)]
  simp only [Chip.updAsy, Chip.asy_setFld, hq, List.drop_succ_cons, List.drop_zero]
  rfl

section

variable {c : Chip} {i : Nat} {rest : List (Nat × Nat)}

/-- The controller takes up a request for a core that exists and is not dead: what it then does turns on maintenance and the
free spares alone. -/
theorem Chip.asyRun_core (hq : c.asy.queue = (0, i) :: rest) (hi : i < 8) (hb : c.on F.asyStat_BUSY = false)
    (hd : c.dead.contains i = false) :
    (c.on F.asyStat_MAINT = true → c.asyRun = c.asyBegin 0 i (c.physOf 0 i)) ∧
    (c.on F.asyStat_MAINT = false → c.freeSpares 0 (i / 4) = [] → c.asyRun = c.setFld F.asyStat_ASSAY_WAIT 0 0 1) ∧
    (c.on F.asyStat_MAINT = false → ∀ {p : Nat} {ps : List Nat}, c.freeSpares 0 (i / 4) = p :: ps →
      (c.coreRotate i p).physOf 0 i = p → c.asyRun = ((({ c.coreRotate i p with unusable := (c.coreRotate i p).unusable ++ [c.physOf 0 i] }).queueChange
        ⟨2, 0, i, p, 0, 0, 0⟩).asyBegin 0 i (c.physOf 0 i)).updAsy fun a => { a with marked := true }) := by
  have hm : i % 2048 = i := Nat.mod_eq_of_lt (by omega)
  have hlog : ¬ 2048 ≤ i := by omega
  have hok : indexOk 0 i = true := by simp [indexOk, classSize, hm, hi, hlog]
  have hdead : i ∉ c.dead := by simpa using hd
  unfold Chip.asyRun
  rw [hq]
  refine ⟨fun h => ?_, fun h hs => ?_, fun h p ps hs hp => ?_⟩
  · simp [hb, hok, hm, hlog, hdead, h, Chip.unitOf]
  · simp [hb, hok, hm, hlog, hdead, h, hs]
  · simp [hb, hok, hm, hlog, hdead, h, hs, hp, Chip.unitOf, Chip.rotate]

end

/-- Settles O15: by the branches of a request's queueing, its taking up, its result, and of the ENTER key. -/
theorem assay : Obligations.Assay := by
  unfold Obligations.Assay
  refine ⟨?queued, ?full, ?aborted, ?abortedBank, ?noUnit, ?noMaint, ?noSpare, ?inMaint, ?rotated, ?passed, ?resPop,
    ?lgrPop, ?denied, ?entered⟩
  case queued =>
    intro s m cls idx hl hs hroom
    obtain ⟨h30, h31, hcls, hidx⟩ := asyRequest_word cls idx
    refine exec_write hl hs rfl (by decide) (by omega) ?_
    rw [Chip.writeReg_asyReq, Chip.writeAsyReq, h30, h31, hcls, hidx]
    exact if_neg (Nat.not_le.mpr hroom)
  case full =>
    intro s m cls idx hl hs hfull hq
    obtain ⟨h30, h31, hcls, hidx⟩ := asyRequest_word cls idx
    refine exec_write hl hs rfl (by decide) (by omega) ?_
    rw [Chip.writeReg_asyReq, Chip.writeAsyReq, h30, h31]
    refine (if_pos hfull).trans (if_neg ?_)
    simp [hq]
  case aborted =>
    intro s m hl hs hb
    refine exec_write hl hs rfl (by decide) (by decide) ?_
    rw [Chip.writeReg_asyReq, Chip.writeAsyReq, if_pos (by decide)]
    simp [bit, Chip.asyAbort, hb]
  case abortedBank =>
    intro s m p hl hs hb hp hc hr hm
    refine exec_write hl hs rfl (by decide) (by decide) ?_
    rw [Chip.writeReg_asyReq, Chip.writeAsyReq, if_pos (by decide)]
    simp only [bit, Chip.asyAbort, hb, hp, hc, hm, Chip.asyPower]
    rw [Chip.enterResult_room (by simpa using hr)]
    rfl
  case noUnit =>
    intro s cls idx rest hl hd hb hq hok hr
    refine exec_on hl hd rfl ?_
    unfold Chip.asyRun
    rw [hq]
    simp [hb, hok, Chip.asyRefuse_room hq hr]
  case noMaint =>
    intro s cls idx rest hl hd hb hq hok hc hm hr
    refine exec_on hl hd rfl ?_
    unfold Chip.asyRun
    rw [hq]
    simp [hb, hok, hc, hm, Chip.asyRefuse_room hq hr]
  case noSpare =>
    intro s i rest hl hd hb hq hi hm hdead hsp
    obtain ⟨-, hwait, -⟩ := Chip.asyRun_core hq hi hb hdead
    exact exec_on hl hd rfl (hwait hm hsp)
  case inMaint =>
    intro s i rest hl hd hb hq hi hm hdead
    obtain ⟨hmaint, -, -⟩ := Chip.asyRun_core hq hi hb hdead
    exact exec_on hl hd rfl (hmaint hm)
  case rotated =>
    intro s i p rest ps t hl hd hb hq hi hm hdead hsp ht hp
    subst ht
    obtain ⟨-, -, hspare⟩ := Chip.asyRun_core hq hi hb hdead
    exact exec_on hl hd rfl (hspare hm hsp hp)
  case passed =>
    intro s code detail rows p hl hd hb hp hlog hm hrep hc hcode hr
    refine exec_on hl hd rfl ?_
    subst hcode
    unfold Chip.asyResult
    rw [hp]
    simp [hb, hlog, hm, hrep, hc, Chip.asyJudge, Chip.asyPower]
    rw [Chip.enterResult_room (by simpa using hr)]
    rfl
  case resPop =>
    intro s m hl hs
    exact exec_write hl hs rfl (by decide) (by decide) rfl
  case lgrPop =>
    intro s m hl hs
    exact exec_write hl hs rfl (by decide) (by decide) rfl
  case denied =>
    intro s m hl hs h1 h2
    refine exec_write hl hs rfl (by decide) (by decide) ?_
    rw [Chip.writeReg_asyMaint, Chip.writeMaint, if_neg (by simp [h1, h2])]
  case entered =>
    intro s m t1 t2 t3 t4 t5 hl hs hm h1 h2 h3 h4 h5
    refine exec_write hl hs rfl (by decide) (by decide) ?_
    rw [Chip.writeReg_asyMaint, Chip.writeMaint, if_pos ⟨by decide, by decide, hm⟩]
    simp only [h1, h2, h3, h4, h5]
end Sys2Proof.Machine

/-! The monitored rails and TESTMODE (spec/17_balls_supplies.md, R523, R525, R528, R531). -/

namespace Sys2Proof.Machine

section

variable {c t : Chip} {r : Nat}

/-- A monitor bit that reads 1, or 0. -/
theorem Chip.on_of_one {f : Fd} {i j : Nat} (h : c.fld f i j = 1) : c.on f i j = true := by simp [Chip.on, h]
theorem Chip.on_of_zero {f : Fd} {i j : Nat} (h : c.fld f i j = 0) : c.on f i j = false := by simp [Chip.on, h]

/-- A rail that is good already enters nothing. -/
theorem Chip.railEnter_good (h : c.on (railOk r) = true) : c.railEnter r = c := if_pos h

/-- A rail that enters with no loss to mend is good, and the PCI Express domain may power. -/
theorem Chip.railEnter_plain (h : c.on (railOk r) = false) (hs : ¬((r = 2 ∨ r = 3) ∧ c.on (railLost r) = true))
    (hl : c.boot.railsLost = false) : c.railEnter r = (c.setFld (railOk r) 0 0 1).powerPcie := by
  unfold Chip.railEnter
  rw [if_neg (by simp [h])]
  dsimp only
  rw [if_neg (by simp [hl]), if_neg fun x => hs ⟨x.1, x.2.1⟩]

/-- VCORE or VMEM after the loss of either, with both good: a cold reset. -/
theorem Chip.railEnter_mended (h : c.on (railOk r) = false) (hr : r < 2) (hl : c.boot.railsLost = true)
    (ht : c.setFld (railOk r) 0 0 1 = t) (hc : t.on F.sysSupply_VCORE_OK = true) (hm : t.on F.sysSupply_VMEM_OK = true) :
    c.railEnter r = ((t.updBoot fun b => { b with railsLost := false, due := none }).resetTo true 0).powerPcie := by
  subst ht
  have hn : ¬(r = 2 ∨ r = 3) := by omega
  simp [Chip.railEnter, h, hn, hl, hc, hm]

/-- A core rail that leaves: the ports park, the domains turn off, and the loss is marked. -/
theorem Chip.railLeave_core (h : c.on (railOk r) = true) (hr : r ≤ 1) :
    c.railLeave r = (((((c.setFld (railOk r) 0 0 0).setFld (railLost r) 0 0 1).setParked true).setDoms (List.range 66)
      false).updBoot fun b =>
        { b with railsLost := true, zero := b.zero || decide (r = 1), vmem := b.vmem || decide (r = 1) }) := by
  unfold Chip.railLeave
  rw [if_neg (by simp [h])]
  exact if_pos hr

/-- The effect of a serdes rail's loss on the links and the heads. -/
theorem Chip.railLeave_serdes (h : c.on (railOk r) = true) (hr : r = 2 ∨ r = 3) :
    c.railLeave r = ((List.range 8).foldl (fun t h => if t.fld F.shOut_OUTSEL h ≤ 1 ∧ t.on F.shDpstat_TRAINED h then
        (t.setFld F.shDpstat_TRAINED h 0 0).headStat F.shDpstat_LINK_LOSS h else t)
      ((List.range 4).foldl (fun t l => if t.fld F.lnklStat_STATE l = 2 then t.setFld F.lnklStat_STATE l 0 3 else t)
        ((c.setFld (railOk r) 0 0 0).setFld (railLost r) 0 0 1))).updPcie fun p => { p with up := false } := by
  unfold Chip.railLeave
  rw [if_neg (by simp [h]), if_neg (by omega), if_pos (by omega)]

/-- VDAC's loss ends the genlock reference; a time base that follows it loses its own. -/
theorem Chip.railLeave_dac (h : c.on F.sysSupply_VDAC_OK = true)
    (ht : (c.setFld F.sysSupply_VDAC_OK 0 0 0).setFld F.sysSupply_LOST_VDAC 0 0 1 = t) :
    c.railLeave 4 = if 1 ≤ c.fld F.tbStat_REFSRC then t.genlockAbsent.refLost else t.genlockAbsent := by
  have href : t.fld F.tbStat_REFSRC = c.fld F.tbStat_REFSRC := by
    rw [← ht, Chip.fld_setFld_other _ (.inl (by decide)), Chip.fld_setFld_other _ (.inl (by decide))]
  unfold Chip.railLeave
  rw [if_neg (by simp [railOk, h]), if_neg (by decide), if_neg (by decide)]
  simp only [railOk, railLost, ht, href]

end

/-- With power-on reset released a rail's entry and leaving are the chip's. -/
theorem exec_railEnter {s : State} (hl : Live s) (r : Fin 5) :
    exec (.railEnter r) s = .next (s.withChip (s.chip.railEnter r.1)) := by
  have h : exec (.railEnter r) s = .next (s.withChip (if s.sup.por then s.chip.setFld (railOk r.1) 0 0 1 else
    s.chip.railEnter r.1)) := rfl
  rw [h, if_neg (by simp [hl])]

theorem exec_railLeave {s : State} (hl : Live s) (r : Fin 5) :
    exec (.railLeave r) s = .next (s.withChip (s.chip.railLeave r.1)) := by
  have h : exec (.railLeave r) s = .next (s.withChip (if s.sup.por then s.chip.setFld (railOk r.1) 0 0 0 else
    s.chip.railLeave r.1)) := rfl
  rw [h, if_neg (by simp [hl])]

/-- Settles O16: by the rail and what its monitor showed. -/
theorem rails : Obligations.Rails := by
  unfold Obligations.Rails
  refine ⟨?good, ?plain, ?mended, ?core, ?serdes, ?dac, ?held, ?high, ?low⟩
  case good =>
    intro s r hl hok
    rw [exec_railEnter hl, Chip.railEnter_good (Chip.on_of_one hok)]
  case plain =>
    intro s r hl hok hlost hb
    have hs : ¬((r.1 = 2 ∨ r.1 = 3) ∧ s.chip.on (railLost r.1) = true) := by
      rintro ⟨hr, hon⟩
      have hz : s.chip.fld (railLost r.1) = 0 := hlost.resolve_left (by omega)
      simp [Chip.on, hz] at hon
    rw [exec_railEnter hl, Chip.railEnter_plain (Chip.on_of_zero hok) hs hb]
  case mended =>
    intro s r t hl hok hb ht hc hm
    rw [exec_railEnter hl,
      Chip.railEnter_mended (Chip.on_of_zero hok) r.2 hb ht (Chip.on_of_one hc) (Chip.on_of_one hm)]
  case core =>
    intro s r hl hok hr
    rw [exec_railLeave hl, Chip.railLeave_core (Chip.on_of_one hok) hr]
  case serdes =>
    intro s r hl hok hr
    rw [exec_railLeave hl, Chip.railLeave_serdes (Chip.on_of_one hok) hr]
  case dac =>
    intro s hl hok
    rw [exec_railLeave hl]
    exact congrArg (fun t => Host.Outcome.next (s.withChip t)) (Chip.railLeave_dac (Chip.on_of_one hok) rfl)
  case held =>
    intro s r hp
    exact ⟨congrArg (fun t => Host.Outcome.next (s.withChip t)) (if_pos hp),
      congrArg (fun t => Host.Outcome.next (s.withChip t)) (if_pos hp)⟩
  case high =>
    intro s
    rfl
  case low =>
    intro s
    rfl

end Sys2Proof.Machine

/-! The error log, the patrol and the replacement of banks and rows (spec/11_fabric_stores.md, R362 to R371), and the
rotations (spec/01_one_frame.md, R36). -/

namespace Sys2Proof.Machine

/-! ### The error log -/

section

variable {c : Chip} {a : Nat}

/-- The patrol looks at one beat of a store that is served. -/
theorem Chip.scrub_served (he : c.on F.fabCtrl_SCRUB_EN = true) (hu : a / 16 * 16 < 0x17000000) (hd : c.domOn 41 = true)
    (hup : c.storeUp (a / 16 * 16) = true) :
    c.scrub a = if Store.get? (a / 16 * 16) c.marks = some .uncorrectable then
      (c.checkUnit (a / 16 * 16)).2.logErr 3 (.own 0x50) (c.storeOf (a / 16 * 16)) (c.localAddr (a / 16 * 16))
    else (c.checkUnit (a / 16 * 16)).2 := by
  unfold Chip.scrub
  exact if_neg (by simp [he, hd, hup, hu])

/-- An uncorrectable unit is counted and becomes poison. -/
theorem Chip.checkUnit_uncorrectable {u : Nat} (h : Store.get? u c.marks = some .uncorrectable) :
    (c.checkUnit u).2 = { c.countUe (c.storeOf u) with marks := NStore.set c.marks u .poison } := by
  unfold Chip.checkUnit
  rw [h]

/-- A correctable unit is counted and corrected. -/
theorem Chip.checkUnit_correctable {u : Nat} (h : Store.get? u c.marks = some .correctable) :
    (c.checkUnit u).2 = { c.countCe (c.storeOf u) with marks := NStore.del c.marks u } := by
  unfold Chip.checkUnit
  rw [h]

end

/-- Settles O17: by the mark that the patrol meets, and the age of an hour. -/
theorem errorLog : Obligations.ErrorLog := by
  unfold Obligations.ErrorLog
  refine ⟨?popped, ?poisoned, ?corrected, ?hour⟩
  case popped =>
    intro s m hl hs
    exact exec_write hl hs rfl (by decide) (by decide) rfl
  case poisoned =>
    intro s a hl hd he hu hup hm
    refine exec_on hl hd rfl ?_
    rw [Chip.scrub_served he hu hd hup, if_pos hm, Chip.checkUnit_uncorrectable hm]
  case corrected =>
    intro s a hl hd he hu hup hm
    refine exec_on hl hd rfl ?_
    rw [Chip.scrub_served he hu hd hup, if_neg (by simp [hm]), Chip.checkUnit_correctable hm]
  case hour =>
    intro s i b n hl hd hh ht
    refine exec_on hl hd rfl ?_
    unfold Chip.ceHourEnd
    rw [hh]
    exact if_pos ht

/-! ### Repairs -/

/-- The word of GO keeps the fields of the word given. -/
theorem spareGo_word (v : BitVec 32) :
    v.toNat % 2 ^ 31 + 2 ^ 31 < 2 ^ 32 ∧ bit (v.toNat % 2 ^ 31 + 2 ^ 31) 31 = true ∧
      bits (v.toNat % 2 ^ 31 + 2 ^ 31) 5 0 = bits v.toNat 5 0 ∧
      bits (v.toNat % 2 ^ 31 + 2 ^ 31) 27 16 = bits v.toNat 27 16 := by
  simp only [bit, bits, beq_iff_eq]
  omega

theorem Chip.writeReg_fabSpareCmd (c : Chip) (m : Master) (v : Nat) :
    c.writeReg m .fabSpareCmd 0 0 v = c.writeSpareCmd v := rfl

/-- GO on a bank, with a free spare and no repair under way, begins the repair with the word's fields stored. -/
theorem Chip.writeSpareCmd_bank {c : Chip} {v p : Nat} {rest : List Nat} (hgo : bit v 31 = true)
    (hb : c.on F.fabSpareStat_BUSY = false) (hst : bits v 5 0 < 28) (hp : c.bankSpares = p :: rest) :
    c.writeSpareCmd v = ((c.setFld F.fabSpareCmd_ROW 0 0 (bits v 27 16)).setFld F.fabSpareCmd_STORE 0 0
      (bits v 5 0)).spareBegin ⟨bits v 5 0, 0, p, false⟩ := by
  rw [Chip.writeSpareCmd, Chip.writeFld_plain _ rfl, Chip.writeFld_plain _ rfl]
  simp only [hgo, hb, hst, hp, Bool.not_true, Bool.false_eq_true, if_false, if_true]
  rfl

/-- Settles O18: by the phase of the repair, and what GO finds. -/
theorem storeRepair : Obligations.StoreRepair := by
  unfold Obligations.StoreRepair
  refine ⟨?begun, ?busy, ?copied, ?drained, ?switched⟩
  case begun =>
    intro s m v p rest hl hs hb hst hp
    obtain ⟨hv, hgo, hstore, hrow⟩ := spareGo_word v
    refine exec_write hl hs rfl (by decide) hv ?_
    rw [Chip.writeReg_fabSpareCmd, Chip.writeSpareCmd_bank hgo hb (hstore ▸ hst) hp, hstore, hrow]
  case busy =>
    intro s m v hl hs hb
    obtain ⟨hv, hgo, -, -⟩ := spareGo_word v
    refine exec_write hl hs rfl (by decide) hv ?_
    rw [Chip.writeReg_fabSpareCmd, Chip.writeSpareCmd, hgo]
    simp [hb, Chip.spareFail]
  case copied =>
    intro s r hl hd hr hp
    refine exec_on hl hd rfl ?_
    simp [Chip.copyDone, hr, hp]
  case drained =>
    intro s r hl hd hr hp
    refine exec_on hl hd rfl ?_
    simp [Chip.drainDone, hr, hp]
  case switched =>
    intro s r hl hd hr hp hnow
    refine exec_on hl hd rfl ?_
    unfold Chip.rowSwitch
    rw [hr]
    refine if_pos ⟨hp, ?_⟩
    rcases hnow with h | ⟨h, hw⟩
    · simp [h]
    · simp [h, hw]

/-! ### Rotations -/

/-- Settles O19: each class by the conditions of its boundary. -/
theorem rotations : Obligations.Rotations := by
  unfold Obligations.Rotations
  refine ⟨?lane, ?core, ?voice, ?sequencer, ?soon⟩
  case lane =>
    intro s j p hl hd hp hj
    exact exec_on hl hd rfl (if_pos ⟨p.2, hp, hj⟩)
  case core =>
    intro s k p hl hp hf hb ht
    exact exec_live hl rfl (if_pos ⟨p.2, hp, by rw [hf]; rfl, by rw [hb]; rfl, ht⟩)
  case voice =>
    intro s i p hl hd hp
    exact exec_on hl hd rfl (if_pos ⟨p.2, hp⟩)
  case sequencer =>
    intro s q p hl hp hw hn
    exact exec_live hl rfl (if_pos ⟨p.2, hp, hw, by rw [hn]; rfl⟩)
  case soon =>
    intro s q p hl hst hat hop hr
    have hsoon : s.chip.psqSoon q.1 = true := by simp [Chip.psqSoon, hst, hat, hop, hr]
    exact exec_live hl rfl (if_neg (by simp [hsoon]))

end Sys2Proof.Machine

/-! The time base, compare channels and interval counters (spec/12_time_events_measurement.md, R374 to R387). -/

namespace Sys2Proof.Machine

/-! ### The time base -/

/-- Settles O20: TICK is the chip's tick, the reference moves PLL_LOCK, and a read of TB_LO keeps the upper half. -/
theorem timeBase : Obligations.TimeBase := by
  unfold Obligations.TimeBase
  refine ⟨?counts, ?wraps, ?lost, ?returned, ?locked, ?read⟩
  case counts =>
    intro s
    refine ⟨_, rfl, rfl, rfl, s.chip.tick_tb, fun a => ?_, s.chip.tick_flds⟩
    exact congrArg (Memory.byte · a) s.chip.tick_mem
  case wraps =>
    intro s h
    exact ⟨_, rfl, s.chip.tick_tb.trans (by rw [h]; decide), s.chip.tick_wrap h⟩
  case lost =>
    intro s hl
    exact exec_live hl (f := Chip.refLost) rfl rfl
  case returned =>
    intro s hl
    exact exec_live hl (f := Chip.refReturn) rfl rfl
  case locked =>
    intro s
    rfl
  case read =>
    intro s m hl hs
    exact exec_read hl hs rfl rfl

/-! ### Compare channels -/

theorem Chip.writeReg_cmpValHi (c : Chip) (m : Master) (i j v : Nat) :
    c.writeReg m .cmpValHi i j v = c.compareArm i v := rfl
theorem Chip.writeReg_cmpCtrl (c : Chip) (m : Master) (i j v : Nat) :
    c.writeReg m .cmpCtrl i j v = c.writeCmpCtrl i v := rfl

/-- A command's word with bit 31 set keeps the fields below it. -/
theorem word_set31 (v : BitVec 32) :
    v.toNat % 2 ^ 31 + 2 ^ 31 < 2 ^ 32 ∧ bit (v.toNat % 2 ^ 31 + 2 ^ 31) 31 = true ∧
      bits (v.toNat % 2 ^ 31 + 2 ^ 31) 9 8 = bits v.toNat 9 8 ∧ bits (v.toNat % 2 ^ 31 + 2 ^ 31) 4 4 = bits v.toNat 4 4 := by
  simp only [bit, bits, beq_iff_eq]
  omega

/-- What arming leaves before the new value is judged, no old one being due. -/
theorem Chip.compareArm_fresh {c t : Chip} {i : Nat} (h : c.cmpDue i = none) {v : Nat}
    (ht : (((c.setFld F.cmpValLo_V i 0 (c.cmp i).stage).setFld F.cmpValHi_V i 0 v).setFld F.cmpStat_ARMED i 0 1).updCmp i
      (fun x => { x with since := c.now, again := (c.cmp i).firedAt == some c.now }) = t) :
    c.compareArm i v = t.compareFire i := by
  unfold Chip.compareArm
  rw [Chip.compareFire_none h]
  exact congrArg (Chip.compareFire · i) ht

/-- Settles O21: arming commits and judges, firing acts once, and DISARM takes ACT and clears ARMED. -/
theorem compareChannels : Obligations.CompareChannels := by
  unfold Obligations.CompareChannels
  refine ⟨?waits, ?firesAtOnce, ?onTime, ?late, ?periodic, ?act, ?actPaired, ?notDue, ?disarmEven, ?disarmPaired⟩
  case waits =>
    intro s m i v t hl hs hd ht hn
    refine exec_write hl hs rfl (by decide) v.isLt ?_
    rw [Chip.writeReg_cmpValHi, Chip.compareArm_fresh hd ht, Chip.compareFire_none hn]
  case firesAtOnce =>
    intro s m i v t late hl hs hd ht hp hn
    refine exec_write hl hs rfl (by decide) v.isLt ?_
    rw [Chip.writeReg_cmpValHi, Chip.compareArm_fresh hd ht, Chip.compareFire_some hp hn]
  case onTime =>
    intro s i hl hd hp hdue hper
    refine exec_on hl hd rfl ?_
    rw [Chip.compareFire_some hp hdue]
    exact if_pos hper
  case late =>
    intro s i hl hd hp hdue hper
    refine exec_on hl hd rfl ?_
    rw [Chip.compareFire_some hp hdue]
    exact if_pos hper
  case periodic =>
    intro s i hl hd hp hdue hper
    refine exec_on hl hd rfl ?_
    rw [Chip.compareFire_some hp hdue]
    exact if_neg hper
  case act =>
    intro c i hp hf
    unfold Chip.cmpAct
    simp only [hp, hf, and_false, if_false, Bool.false_eq_true]
    rfl
  case actPaired =>
    intro c i hi hp ha
    have hpair : c.paired i = true := by simp [Chip.paired, hi, hp]
    unfold Chip.cmpAct
    simp only [hpair, ha, if_true]
    rfl
  case notDue =>
    intro s i hl hd hn
    exact exec_on hl hd rfl (Chip.compareFire_none hn)
  case disarmEven =>
    intro s m i v hl hs hi hp
    obtain ⟨hv, hgo, hact, -⟩ := word_set31 v
    have hpair : (s.chip.setFld F.cmpCtrl_ACT i.1 0 (bits v.toNat 9 8)).on F.cmpCtrl_PAIR i.1 = false := by
      rw [Chip.on_setFld_other _ (.inr (by decide)), hp]
    refine exec_write hl hs rfl (by decide) hv ?_
    have hodd : ¬i.1 % 2 = 1 := by omega
    rw [Chip.writeReg_cmpCtrl, Chip.writeCmpCtrl, hact]
    simp only [hodd, hpair, hgo, Bool.false_eq_true, if_false, if_true]
    rfl
  case disarmPaired =>
    intro s m i v hl hs hi hp
    obtain ⟨hv, hgo, hact, hpf⟩ := word_set31 v
    have hpair : ((s.chip.setFld F.cmpCtrl_ACT i.1 0 (bits v.toNat 9 8)).setFld F.cmpCtrl_PAIR i.1 0 1).on
        F.cmpCtrl_PAIR i.1 = true := Chip.on_of_one (Chip.fld_setFld_self _ _ _ _ _)
    refine exec_write hl hs rfl (by decide) hv ?_
    rw [Chip.writeReg_cmpCtrl, Chip.writeCmpCtrl, hact, if_pos hi, hpf, hp]
    simp only [hpair, hgo, if_true]
    rfl

/-! ### Interval counters -/

theorem Chip.writeReg_intCmd (c : Chip) (m : Master) (i j v : Nat) : c.writeReg m .intCmd i j v = c.intCommand i v := rfl

section

variable {c : Chip} {i : Nat}

/-- A running counter's prescaled tick is due. -/
theorem Chip.prescaledTick_due (hr : c.on F.intStat_RUNNING i = true)
    (ht : 2 ^ c.fld F.intCtrl_PRE i - (c.intv i).last % 2 ^ c.fld F.intCtrl_PRE i ≤ sub64 c.now (c.intv i).last) :
    (c.on F.intStat_RUNNING i && decide (2 ^ c.fld F.intCtrl_PRE i - (c.intv i).last % 2 ^ c.fld F.intCtrl_PRE i ≤
      sub64 c.now (c.intv i).last)) = true := by
  rw [hr, decide_eq_true ht]
  rfl

end

/-- Settles O22: each command's bit, and a prescaled tick by what waits and what the count is. -/
theorem intervalCounters : Obligations.IntervalCounters := by
  unfold Obligations.IntervalCounters
  refine ⟨?start, ?startZero, ?cont, ?stop, ?load, ?loads, ?lowers, ?ends⟩
  case start =>
    intro s m i hl hs hr
    exact exec_write hl hs rfl (by decide) (by decide) (if_neg hr)
  case startZero =>
    intro s m i hl hs hr
    exact exec_write hl hs rfl (by decide) (by decide) (if_pos hr)
  case cont =>
    intro s m i hl hs hc hr
    refine exec_write hl hs rfl (by decide) (by decide) ?_
    rw [Chip.writeReg_intCmd, Chip.intCommand]
    simp [bit, Chip.intCont, hc, hr]
  case stop =>
    intro s m i hl hs
    exact exec_write hl hs rfl (by decide) (by decide) rfl
  case load =>
    intro s m i hl hs hr
    refine exec_write hl hs rfl (by decide) (by decide) ?_
    rw [Chip.writeReg_intCmd, Chip.intCommand]
    simp [bit, Chip.intLoad, hr]
  case loads =>
    intro s i hl hd hr ht hw hz
    refine exec_on hl hd rfl ?_
    rw [Chip.prescaledTick, if_pos (Chip.prescaledTick_due hr ht)]
    simp only [hw, hz, if_true, if_false]
  case lowers =>
    intro s i hl hd hr ht hw hn
    refine exec_on hl hd rfl ?_
    rw [Chip.prescaledTick, if_pos (Chip.prescaledTick_due hr ht)]
    simp only [hw, Bool.false_eq_true, if_false, if_neg (Nat.not_le.mpr hn)]
  case ends =>
    intro s i hl hd hr ht hw hn hmode
    refine exec_on hl hd rfl ?_
    rw [Chip.prescaledTick, if_pos (Chip.prescaledTick_due hr ht)]
    simp only [hw, hmode, Bool.false_eq_true, if_false, if_pos hn]

end Sys2Proof.Machine

/-! Capture channels, the converter, and events delivered (spec/12_time_events_measurement.md, R390 to R405). -/

namespace Sys2Proof.Machine

/-! ### Capture channels -/

section

variable (c : Chip) (i : Nat)

@[simp] theorem Chip.cap_updCap (f : CapSt → CapSt) : (c.updCap i f).cap i = f (c.cap i) := NStore.get_set_self _ _ _ _
@[simp] theorem Chip.fld_updCap (f : CapSt → CapSt) (g : Fd) (i' j' : Nat) : (c.updCap i f).fld g i' j' = c.fld g i' j' := rfl
@[simp] theorem Chip.cap_setFld (f : Fd) (a b v : Nat) : (c.setFld f a b v).cap i = c.cap i := rfl
@[simp] theorem Chip.cap_setOn (f : Fd) (a b : Nat) (v : Bool) : (c.setOn f a b v).cap i = c.cap i := rfl

/-- With nothing waiting, nothing is committed. -/
theorem Chip.captureCommit_none {c : Chip} {i : Nat} (h : (c.cap i).waiting = []) : c.captureCommit i = c := by
  unfold Chip.captureCommit
  rw [h]

end

/-- Settles O23: an edge accepted, the oldest capture committed, and a read that commits first. -/
theorem captureChannels : Obligations.CaptureChannels := by
  unfold Obligations.CaptureChannels
  refine ⟨?accepted, ?committed, ?read, ?latched⟩
  case accepted =>
    intro s i r o e hl hd hen hk ha hedge hdir
    refine exec_on hl hd rfl ?_
    unfold Chip.captureAccept
    rw [if_pos (by simp [hen, hk, ha]), hedge]
    exact if_pos ⟨rfl, hdir⟩
  case committed =>
    intro s i v a hop rest hl hd hb hw ht
    refine exec_on hl hd rfl ?_
    unfold Chip.captureCommit
    simp [hb, hw, ht]
  case read =>
    intro s m i hl hs
    exact exec_read hl hs rfl rfl
  case latched =>
    intro c i hw hn
    unfold Chip.captureRead
    rw [Chip.captureCommit_none hw]
    refine ⟨by simp, by simp, ?new, ?hi, ?seq⟩
    case new => simp (disch := decide) [Chip.setOn, Chip.fld_setFld_other, hn]; decide
    case hi => simp (disch := decide) [Chip.setOn, Chip.fld_setFld_other]; rfl
    case seq => simp (disch := decide) [Chip.setOn, Chip.fld_setFld_other]; rfl

/-! ### The converter -/

theorem Chip.writeReg_adcCmd (c : Chip) (m : Master) (i j v : Nat) :
    c.writeReg m .adcCmd i j v = if bit v 1 then (if bit v 0 then c.adcStart none else c).adcStop else
      if bit v 0 then c.adcStart none else c := rfl

theorem Chip.readReg_adcFifo (c : Chip) (m : Master) (i j : Nat) : c.readReg m .adcFifo i j = c.adcPop := rfl

/-- Settles O24: the commands by their bits, a result by its port, the FIFO's room and the windows. -/
theorem converter : Obligations.Converter := by
  unfold Obligations.Converter
  refine ⟨?ready, ?start, ?lost, ?stop, ?pushed, ?overrun, ?popped, ?empty⟩
  case ready =>
    intro s hl hd he
    exact exec_on hl hd rfl (if_pos he)
  case start =>
    intro s m hl hs hb hr
    refine exec_write hl hs rfl (by decide) (by decide) ?_
    rw [Chip.writeReg_adcCmd]
    simp [bit, Chip.adcStart, hb, hr]
  case lost =>
    intro s m hl hs hb
    refine exec_write hl hs rfl (by decide) (by decide) ?_
    rw [Chip.writeReg_adcCmd]
    simp [bit, Chip.adcStart, hb]
  case stop =>
    intro s m hl hs
    exact exec_write hl hs rfl (by decide) (by decide) rfl
  case pushed =>
    intro s uv hl hd hb ht ha hf hn hroom hmark hwin
    refine exec_on hl hd rfl (congrArg Chip.dmaLevels ?_)
    simp [Chip.adcResult, Chip.adcPush, adcCode, hb, ht, ha, hf, hroom, hmark, hwin, Nat.not_le.mpr hn]
  case overrun =>
    intro s uv hl hd hb ht ha hn hfull
    refine exec_on hl hd rfl (congrArg Chip.dmaLevels ?_)
    have hadc : (((s.chip.setFld F.adcStat_NOTANA 0 0 1).setFld F.adcStat_OVR 0 0 1).bump F.adcOvrcnt_COUNT
      F.adcOvrcnt_SAT).adc = s.chip.adc := (Chip.bump_regs _ _ _ _ _ _).part Chip.adc fun _ _ _ => rfl
    simp [Chip.adcResult, Chip.adcPush, hb, ht, ha, hfull, Nat.not_le.mpr hn, hadc]
  case popped =>
    intro s m w rest hl hs hf
    refine exec_read hl hs rfl ?_
    rw [Chip.readReg_adcFifo, Chip.adcPop, hf]
  case empty =>
    intro s m hl hs hf
    refine exec_read hl hs rfl ?_
    rw [Chip.readReg_adcFifo, Chip.adcPop, hf]

/-! ### Events delivered -/

theorem Chip.writeReg_evfSwtrig (c : Chip) (m : Master) (i j v : Nat) :
    c.writeReg m .evfSwtrig i j v = c.writeSwtrig v := rfl

/-- One arrival at an interrupt source without COUNT raises that source. -/
theorem Chip.taskInstant_source {c : Chip} {k : Nat} (hc : c.on F.evfTask_COUNT k = false) (hk : 64 < k ∧ k < 128)
    (stopped : Bool) : c.taskInstant k [0] stopped = c.raiseSource k := by
  have h64 : ¬k < 64 := by omega
  have hne : k ≠ 64 := by omega
  simp [Chip.taskInstant, Chip.taskRun, hc, h64, hne, hk.2]

/-- Settles O25: the arrivals that are due, by what each names. -/
theorem eventsDelivered : Obligations.EventsDelivered := by
  unfold Obligations.EventsDelivered
  refine ⟨?task, ?producer, ?nothing, ?flag, ?source⟩
  case task =>
    intro s m t hl hs
    have ht : bits t.toNat 8 0 = t.toNat := by simp only [bits]; omega
    refine exec_write hl hs rfl (by decide) (by omega) ?_
    rw [Chip.writeReg_evfSwtrig, Chip.writeSwtrig, ht]
  case producer =>
    intro s m v hl hs
    exact exec_write hl hs rfl (by decide) v.isLt rfl
  case nothing =>
    intro s hl hd hat hdue hw
    refine exec_live hl (f := fun c => c.deliver.dmaLevels) rfl (congrArg Chip.dmaLevels ?_)
    simp [Chip.deliver, hat, hd, hdue, hw]
    simpa using hdue
  case flag =>
    intro s p n f a hl hd hat hq ht hw hp
    have hdue : Arrival.due ⟨p, a, n, [], [f], []⟩ s.chip.now = true := decide_eq_true ht
    refine exec_live hl (f := fun c => c.deliver.dmaLevels) rfl (congrArg Chip.dmaLevels ?_)
    simp [Chip.deliver, hat, hd, hq, hw, hdue, hp]
  case source =>
    intro s k a hl hd hat hq ht hw hg hk hc
    have hdue : Arrival.due ⟨1023, a, 0, [k], [], []⟩ s.chip.now = true := decide_eq_true ht
    refine exec_live hl (f := fun c => c.deliver.dmaLevels) rfl (congrArg Chip.dmaLevels ?_)
    have hone : [k].eraseDups = [k] := rfl
    simp [Chip.deliver, hat, hd, hq, hw, hdue, hg, hone]
    exact Chip.taskInstant_source (c := { s.chip with evq := [], evAt := some (s.chip.now / 4 * 4) }) hc hk _
end Sys2Proof.Machine

/-! Scan heads' frames (spec/06_scan_heads.md, R14, R21, R176, R179), composition (spec/04_chasing.md, R16, R92, R114),
flips (R127) and hallmark regions (spec/05_hallmarks.md, R143 to R156). -/

namespace Sys2Proof.Machine

/-! ### Scan heads -/

section

variable (c : Chip)

@[simp] theorem Chip.head_updHead (h : Nat) (f : Head → Head) : (c.updHead h f).head h = f (c.head h) :=
  NStore.get_set_self _ _ _ _

/-- A status bit of a head, with or without its event, leaves the heads' records. -/
@[simp] theorem Chip.headStat_head (f : Fd) (h k : Nat) : (c.headStat f h).head k = c.head k := by
  unfold Chip.headStat
  split
  · rfl
  · exact (Chip.stick_regs c f h (13 * h + 7) 0).part (Chip.head · k) fun _ _ _ => rfl

/-- A beam event happens once in a tick. -/
theorem Chip.beamEvent_fires {c : Chip} {h k : Nat} (hf : NStore.get 0 (c.head h).fired k ≠ c.ticks + 1) :
    c.beamEvent h k =
      (c.updHead h fun x => { x with fired := NStore.put0 x.fired k (c.ticks + 1) }).raise (13 * h + k) := if_neg hf

/-- A frame number below the wrap is only set. -/
theorem Chip.setFrame_below {c : Chip} {h f : Nat} (hf : f < 2 ^ 32) : c.setFrame h f = c.setFld F.shFrame_FRAME h 0 f :=
  if_neg (by omega)

end

/-- Settles O26: the latch instant by RUN and the armed entry, the beam events at their instants, a line that may be
read. -/
theorem scanFrames : Obligations.ScanFrames := by
  unfold Obligations.ScanFrames
  refine ⟨?frame, ?stops, ?selfRefresh, ?vblank, ?frameDone, ?lmatch, ?line⟩
  case frame =>
    intro s h fr hl hd hr hdue hrun harm hw
    refine exec_on hl hd rfl ?_
    simp only [Chip.latch, hr, hdue, hrun, harm, Chip.setFrame_below hw]
    rfl
  case stops =>
    intro s h fr hl hd hr hdue hrun
    refine exec_on hl hd rfl ?_
    simp only [Chip.latch, hr, hdue, hrun]
    rfl
  case selfRefresh =>
    intro s h fr hl hd hr hdue hrun harm
    refine exec_on hl hd rfl ?_
    simp only [Chip.latch, hr, hdue, hrun, harm]
    rfl
  case vblank =>
    intro s h hl hd ht hf
    exact exec_on hl hd rfl ((if_pos ht).trans (Chip.beamEvent_fires hf))
  case frameDone =>
    intro s h hl hd ht hf
    exact exec_on hl hd rfl ((if_pos ht).trans (Chip.beamEvent_fires hf))
  case lmatch =>
    intro s h k x y hl hd he hx hy hxt hyt ht hf
    refine exec_on hl hd rfl (Eq.trans ?_ (Chip.beamEvent_fires hf))
    subst hx hy
    have hy' : s.chip.fld F.shLmatch_LINE h.1 k.1 < s.chip.fld F.shVtime_VT h.1 := by omega
    exact if_pos (by simp [he, hxt, hy', ht, hyt.ne])
  case line =>
    intro s h y g hl hd hr
    refine ⟨_, exec_on hl hd rfl rfl, ?_⟩
    dsimp only [Chip.lineRead]
    rw [if_pos hr]
    split <;> simp

/-! ### Composition -/

/-- Settles O27: a course by its bookkeeping, a line by its release, a seal and a tee's fence. -/
theorem composition : Obligations.Composition := by
  unfold Obligations.Composition
  refine ⟨?begins, ?stalls, ?line, ?lastLine, ?sealed, ?tee⟩
  case begins =>
    intro s h k x hl hd hc hx hr hm hlanes hlast
    refine exec_on hl hd rfl ?_
    have hy : (k + 1) * 2 ^ x.chLog2 ≠ 0 := by positivity
    have hnot : ¬courseCount (s.chip.va h.1) (2 ^ x.chLog2) ≤ k + 1 + 1 := by omega
    simp [Chip.courseBegin, hc, hx, hr, hy, hnot, hlanes, Chip.tooLate, hm]
  case stalls =>
    intro s h hl hd hc hlanes hout hst
    refine exec_on hl hd rfl ?_
    simp [Chip.lineCompose, hc, hlanes, hout, hst]
  case line =>
    intro s h t hl hd hc hlanes hout ht hlt
    refine exec_on hl hd rfl ?_
    simp [Chip.lineCompose, hc, hlanes, hout, ht, hlt]
  case lastLine =>
    intro s h t hl hd hc hlanes hout ht heq hmore
    refine exec_on hl hd rfl ?_
    have hend := heq.not_lt
    simp [Chip.lineCompose, hc, hlanes, hout, ht, hend, Nat.not_le.mpr hmore]
  case sealed =>
    intro s h b rest x d hl hd hb hx hm hmore hdv
    refine exec_on hl hd rfl ?_
    subst hx hdv
    have hpage : ((0 : Nat) == 2) = false := rfl
    simp only [Chip.courseSeal, hb, hm, hpage, Bool.and_false, Bool.false_eq_true, if_false, Nat.reduceEqDiff]
    congr 5
    funext y
    cases y.slack <;> rfl
  case tee =>
    intro s h x hl hd hx
    refine exec_on hl hd rfl ?_
    unfold Chip.teeComplete
    rw [hx]

/-! ### Flips -/

theorem Chip.writeReg_cpsFlip (c : Chip) (m : Master) (k j v : Nat) : c.writeReg m .cpsFlip k j v = c.writeFlip k v := rfl

/-- The top bit of a word as a number. -/
theorem bit31_eq (v : BitVec 32) : b2n (bit v.toNat 31) = v.toNat / 2 ^ 31 := by
  have h : v.toNat / 2 ^ 31 < 2 := by omega
  unfold bit b2n
  interval_cases v.toNat / 2 ^ 31 <;> rfl

/-- Settles O29: ARM is bit 31 where the layer is bound to a scanning head. -/
theorem flipArms : Obligations.FlipArms := by
  unfold Obligations.FlipArms
  refine ⟨?bound, ?idle⟩
  case bound =>
    intro s m k v hl hs hi
    refine exec_write hl hs rfl (by decide) v.isLt ?_
    rw [Chip.writeReg_cpsFlip, Chip.writeFlip, hi, Chip.setOn]
    simp only [Bool.not_false, Bool.and_true, bit31_eq]
  case idle =>
    intro s m k v hl hs hi
    refine exec_write hl hs rfl (by decide) v.isLt ?_
    rw [Chip.writeReg_cpsFlip, Chip.writeFlip, hi, Chip.setOn]
    simp only [Bool.not_true, Bool.and_false]
    rfl

/-! ### Hallmark regions -/

section

variable {c : Chip} {m : Master} {n r : Nat}

/-- A write to a region that is not turned away arms a slot, or takes its configuration where the region is unlocked. -/
theorem Chip.writeReg_htag (hb : c.supvBars m n r = false) (v : Nat) :
    c.writeReg m .hmkHtag0 n r v = c.armSlot n r 0 v ∧ c.writeReg m .hmkHtag1 n r v = c.armSlot n r 1 v :=
  ⟨if_neg (by simp [hb]), if_neg (by simp [hb])⟩

theorem Chip.writeReg_hmkCfg (hb : c.supvBars m n r = false) (v : Nat) :
    c.writeReg m .hmkCfg n r v = c.writeRegionCfg .hmkCfg n r [F.hmkCfg_LOCK, F.hmkCfg_SUPV, F.hmkCfg_FREEZE,
      F.hmkCfg_BLANK, F.hmkCfg_MODE, F.hmkCfg_TAPS, F.hmkCfg_EN] v := if_neg (by simp [hb])

theorem Chip.writeReg_hmkHstat (v : Nat) : c.writeReg m .hmkHstat n r v = c.writeHstat m n v := rfl

end

/-- Settles O30: by SUPV, LOCK and the master for writes; a read latches its frame; a scan that has passed completes. -/
theorem hallmarks : Obligations.Hallmarks := by
  unfold Obligations.Hallmarks
  refine ⟨?tag0, ?tag1, ?barred, ?locked, ?taken, ?unfrozen, ?readS, ?readC, ?scan⟩
  case tag0 =>
    intro s m h r v hl hs hb
    exact exec_write hl hs rfl (by decide) v.isLt (Chip.writeReg_htag hb _).1
  case tag1 =>
    intro s m h r v hl hs hb
    exact exec_write hl hs rfl (by decide) v.isLt (Chip.writeReg_htag hb _).2
  case barred =>
    intro s m h r v hl hs hb
    exact exec_write hl hs rfl (by decide) v.isLt (if_pos hb)
  case locked =>
    intro s m h r v hl hs hb hk
    exact exec_write hl hs rfl (by decide) (by omega) ((Chip.writeReg_hmkCfg hb _).trans (if_pos hk))
  case taken =>
    intro s m h r v hl hs hb hk hr
    refine exec_write hl hs rfl (by decide) (by omega) ((Chip.writeReg_hmkCfg hb _).trans ?_)
    exact (if_neg (by simp [hk])).trans (if_pos hr)
  case unfrozen =>
    intro s m h hl hs hf hm
    refine exec_write hl hs rfl (by decide) (by decide) ?_
    rw [Chip.writeReg_hmkHstat, Chip.writeHstat, if_pos (by rw [hf]; rfl), if_neg]
    rcases hm with hm | hm <;> simp [hm]
  case readS =>
    intro s m h r hl hs
    exact exec_read hl hs rfl rfl
  case readC =>
    intro s m h r hl hs
    exact exec_read hl hs rfl rfl
  case scan =>
    intro s h r x hl hd hx hr he hsh hp
    refine exec_on hl hd rfl ?_
    subst hx
    exact if_pos (by simp [hr, he, hsh, hp])

end Sys2Proof.Machine

/-! The line program engines (spec/03_line_programs.md, R85 to R99): a command at the engine's address runs on the words
read, so each clause is the command's own effect. -/

namespace Sys2Proof.Machine

/-! ### Commands of an engine -/

section

variable {s : State} {t : Chip} {n op w a v : Nat} {ops : List Nat} {i : Instr} {k : Nat → Chip → Chip}

@[simp] theorem Chip.lpe_updLpe (c : Chip) (n : Nat) (f : Lpe → Lpe) : (c.updLpe n f).lpe n = f (c.lpe n) :=
  NStore.get_set_self _ _ _ _

/-- A command whose word is read has its meaning on what reading leaves. -/
theorem exec_lpe (hl : Live s) (hc : LpeCmd s.chip n op w) (he : exec i s = s.act fun c => c.lpeRow n ops k)
    (ho : ops.contains op = true) (ht : k w (s.chip.lpeNext n) = t) : exec i s = .next (s.withChip t) :=
  exec_live hl he ((Chip.lpeRow_cmd hc ho k).trans ht)

/-- A command with an address word has its meaning on what reading both leaves. -/
theorem exec_lpeAddr {g : Nat → Nat → Chip → Chip} (hl : Live s) (hc : LpeCmd s.chip n op w)
    (ha : LpeWord (s.chip.lpeNext n) n a) (hp : LpeTarget a)
    (he : exec i s = s.act fun c => c.lpeRow n ops fun w t => t.lpeAddrWord n (g w)) (ho : ops.contains op = true)
    (ht : g w a ((s.chip.lpeNext n).lpeNext n) = t) : exec i s = .next (s.withChip t) :=
  exec_lpe hl hc he ho ((Chip.lpeAddrWord_word ha hp _).trans ht)

/-- A command of one value from the program puts it on what reading both leaves. -/
theorem exec_lpeValue {g : Nat → Nat → Nat → Chip → Chip} {m : Nat → Nat} (hl : Live s) (hc : LpeCmd s.chip n op w)
    (hv : LpeWord (s.chip.lpeNext n) n v) (hm : m w = 1)
    (he : exec i s = s.act fun c => c.lpeRow n ops fun w t => t.lpeValues n false (g w) 0 (m w))
    (ho : ops.contains op = true) (ht : g w 0 v ((s.chip.lpeNext n).lpeNext n) = t) :
    exec i s = .next (s.withChip t) := by
  refine exec_lpe hl hc he ho ?_
  rw [hm, Chip.lpeValues_one hv, ht]

end

/-- Settles O31: each command's effect on what reading its words leaves. -/
theorem lineProgramControl : Obligations.LineProgramControl := by
  unfold Obligations.LineProgramControl
  refine ⟨?fin, ?wait, ?past, ?waitr, ?setc, ?djnz, ?djnzLast, ?jump, ?call, ?callFull, ?ret, ?retEmpty, ?setp, ?bad,
    ?release, ?runaway⟩
  case fin => exact fun s n w hl hc => exec_lpe hl hc rfl rfl rfl
  case wait =>
    intro s n w hl hc hy
    exact exec_lpe hl hc rfl rfl (if_neg (Nat.not_lt.mpr hy))
  case past =>
    intro s n w hl hc hy
    exact exec_lpe hl hc rfl rfl (if_pos hy)
  case waitr =>
    intro s n w hl hc
    exact exec_lpe hl hc rfl rfl (if_neg (Nat.not_lt.mpr (Nat.le_add_right ..)))
  case setc => exact fun s n w hl hc => exec_lpe hl hc rfl rfl rfl
  case djnz =>
    intro s n w a d hl hc ha hp hd
    refine exec_lpeAddr hl hc ha hp rfl rfl ?_
    simp [-List.getD_eq_getElem?_getD, hd]
  case djnzLast =>
    intro s n w a hl hc ha hp hd
    refine exec_lpeAddr hl hc ha hp rfl rfl ?_
    simp [-List.getD_eq_getElem?_getD, hd]
  case jump => exact fun s n w a hl hc ha hp => exec_lpeAddr hl hc ha hp rfl rfl rfl
  case call =>
    intro s n w a hl hc ha hp hs
    exact exec_lpeAddr hl hc ha hp rfl rfl (if_neg (Nat.not_le.mpr hs))
  case callFull =>
    intro s n w a hl hc ha hp hs
    exact exec_lpeAddr hl hc ha hp rfl rfl (if_pos hs)
  case ret =>
    intro s n w a rest hl hc hs
    refine exec_lpe hl hc rfl rfl ?_
    unfold Chip.lpeRet
    rw [hs]
  case retEmpty =>
    intro s n w hl hc hs
    refine exec_lpe hl hc rfl rfl ?_
    unfold Chip.lpeRet
    rw [hs]
  case setp => exact fun s n w a hl hc ha hp => exec_lpeAddr hl hc ha hp rfl rfl rfl
  case bad =>
    intro s n w hl hc
    rcases hc with hc | hc <;> exact exec_lpe hl hc rfl rfl rfl
  case release =>
    intro s n y hl hd hr hf hh
    refine exec_on hl hd rfl ?_
    simp [Chip.lineRelease, hr, hf, hh]
  case runaway =>
    intro s n hl hd hr hh hx hf
    exact exec_on hl hd rfl (if_pos (by simp [hr, hh, hx, hf]))

/-- Settles O32: one value's write on what reading the command and the value leaves. -/
theorem lineProgramWrites : Obligations.LineProgramWrites := by
  unfold Obligations.LineProgramWrites
  refine ⟨?wr, ?wrt, ?add, ?wrp, ?wrm⟩
  case wr =>
    intro s n w v hl hc hv hm
    exact exec_lpeValue (m := fun w => bits w 27 24 + 1) hl hc hv (by rw [hm]) rfl rfl rfl
  case wrt =>
    intro s n w v hl hc hx hr hv hm
    refine exec_lpe hl hc rfl rfl ?_
    rcases hf : (s.chip.lpeNext n.1).lpeFetch ((s.chip.lpeNext n.1).lpe n.1).tp with ⟨f, t⟩
    rw [hf] at hv
    subst hv
    simp [Chip.lpeWr, Chip.lpeValues, hm, hx, hr, hf]
  case add =>
    intro s n w v hl hc hv
    exact exec_lpeValue (m := fun _ => 1) hl hc hv rfl rfl rfl rfl
  case wrp =>
    intro s n w v hl hc hv hm
    exact exec_lpeValue (m := fun w => bits w 27 24 + 1) hl hc hv (by rw [hm]) rfl rfl rfl
  case wrm =>
    intro s n w v hl hc hv hm hlt
    exact exec_lpeValue (m := fun w => bits w 27 24 + 1) hl hc hv (by rw [hm]) rfl rfl (if_pos hlt)

end Sys2Proof.Machine

/-! A scan head's start, clock and genlock, and DisplayPort (spec/06_scan_heads.md, R163 to R193). -/

namespace Sys2Proof.Machine

/-! ### Start, clock and genlock -/

/-- RUN is the lowest bit of the word; PLL_EN is the next as given. -/
theorem run_word (v : BitVec 32) :
    v.toNat / 2 * 2 + 1 < 2 ^ 32 ∧ bit (v.toNat / 2 * 2 + 1) 1 = bit v.toNat 1 ∧ (v.toNat / 2 * 2 + 1) % 2 = 1 ∧
      v.toNat / 2 * 2 < 2 ^ 32 ∧ bit (v.toNat / 2 * 2) 1 = bit v.toNat 1 ∧ v.toNat / 2 * 2 % 2 = 0 := by
  have hv := v.isLt
  have h1 : (v.toNat / 2 * 2 + 1) / 2 = v.toNat / 2 := by omega
  have h0 : v.toNat / 2 * 2 / 2 = v.toNat / 2 := by omega
  refine ⟨by omega, ?_, by omega, by omega, ?_, by omega⟩
  · simp [bit, h1]
  · simp [bit, h0]

section

variable {c : Chip} {m : Master} {h j v : Nat}

theorem Chip.writeReg_shCtrl : c.writeReg m .shCtrl h j v = c.writeShCtrl h v := rfl

/-- RUN 1 of a head that does not scan arms its start. -/
theorem Chip.writeShCtrl_run {w : Nat} {p : Bool} {t : Chip} (hw : bit w 1 = p) (hr : w % 2 = 1)
    (ht : (c.writePllEn h p).setFld F.shCtrl_RUN h 0 1 = t) (hn : t.on F.shStat_RUNNING h = false) :
    c.writeShCtrl h w = t.armStart h false := by
  simp [Chip.writeShCtrl, hw, hr, ht, hn]

end

/-- Settles O33: a head's start by its settings, its clock by its PLL, the genlock reference by its frames. -/
theorem headControl : Obligations.HeadControl := by
  unfold Obligations.HeadControl
  refine ⟨?arms, ?refused, ?stops, ?starts, ?locked, ?lost, ?first, ?third, ?absent, ?pend, ?active, ?stamp, ?fper⟩
  case arms =>
    intro s m h v t hl hs ht hn hok
    obtain ⟨hv, hb, hr, -, -, -⟩ := run_word v
    refine exec_write hl hs rfl (by decide) hv ?_
    rw [Chip.writeReg_shCtrl, Chip.writeShCtrl_run hb hr ht hn]
    exact if_pos hok
  case refused =>
    intro s m h v t hl hs ht hn hok
    obtain ⟨hv, hb, hr, -, -, -⟩ := run_word v
    refine exec_write hl hs rfl (by decide) hv ?_
    rw [Chip.writeReg_shCtrl, Chip.writeShCtrl_run hb hr ht hn]
    exact if_neg (by simp [hok])
  case stops =>
    intro s m h v hl hs
    obtain ⟨-, -, -, hv, hb, hr⟩ := run_word v
    refine exec_write hl hs rfl (by decide) hv ?_
    simp [Chip.writeReg_shCtrl, Chip.writeShCtrl, hb, hr]
  case starts =>
    intro s h fr t16 u hl hd hw hres hat hu hok
    refine exec_on hl hd rfl ?_
    simp only [Chip.headStart, hw, hres, hat, hu, hok, if_true, Bool.false_eq_true, if_false, Chip.setFrame_below (by decide : 0 < 2 ^ 32)]
  case locked => exact fun s h hl hd hp => exec_on hl hd rfl (if_pos hp)
  case lost => exact fun s h hl hd hr => exec_on hl hd rfl (if_pos hr)
  case first =>
    intro s f l hl hd he hv hseen hst
    refine exec_on hl hd rfl ((if_pos ⟨he, hv⟩).trans ?_)
    simp [hseen, hst, framesAgree, Chip.setOn, b2n]
  case third =>
    intro s f l fs hl hd he hv hseen hfs hok
    refine exec_on hl hd rfl ((if_pos ⟨he, hv⟩).trans ?_)
    simp [hseen, hfs, hok, Chip.setOn, b2n]
  case absent =>
    intro s h hl hd ht hp hr hy hh
    refine exec_on hl hd rfl ?_
    simp [Chip.lockLost, ht, hp, hr, hy, hh]
  case pend =>
    intro s m h v hl hs hr hm
    refine exec_write hl hs rfl (by decide) v.isLt ((if_neg (by simp [hm])).trans ?_)
    exact if_pos hr
  case active =>
    intro s m h v hl hs hr
    refine exec_write hl hs rfl (by decide) v.isLt ((if_neg (by simp [hr])).trans ?_)
    exact if_neg (by simp [hr])
  case stamp =>
    intro s m h x hl hs hx
    refine exec_read hl hs rfl ?_
    show s.chip.readFstamp h.1 = _
    rw [Chip.readFstamp, hx]
  case fper => exact fun s m hl hs => exec_read hl hs rfl rfl

/-! ### DisplayPort -/

section

variable {c : Chip} {h g : Nat}

theorem Chip.auxRuns_iff : c.auxRuns h = true ↔ c.on F.shAuxstat_BUSY h = true ∧ (c.head h).trainReq = false := by
  simp [Chip.auxRuns]

/-- A reply is taken while a transaction of AUXCTRL is under way. -/
theorem Chip.auxReply_runs (hb : c.on F.shAuxstat_BUSY h = true) (hr : (c.head h).trainReq = false) (d : List Byte) :
    c.auxReply h (.ack d) = (((c.putAux h 0 (d.take (c.fld F.shAuxctrl_LENM1 h + 1))).setFld F.shAuxstat_COUNT h 0
      (d.take (c.fld F.shAuxctrl_LENM1 h + 1)).length).setFld F.shAuxstat_DONE h 0 1).setFld F.shAuxstat_BUSY h 0 0 ∧
    c.auxReply h .nack = (c.setFld F.shAuxstat_NACK h 0 1).setFld F.shAuxstat_BUSY h 0 0 ∧
    c.auxReply h .defer = if (c.head h).auxTries < 7
      then c.updHead h fun x => { x with auxTries := x.auxTries + 1, auxAt := c.tb.toNat }
      else (c.setFld F.shAuxstat_DEFER h 0 1).setFld F.shAuxstat_BUSY h 0 0 := by
  have hx : c.auxRuns h = true := Chip.auxRuns_iff.mpr ⟨hb, hr⟩
  exact ⟨if_pos hx, if_pos hx, if_pos hx⟩

/-- A word of DPCMD with one bit set is that bit's command. -/
theorem Chip.writeDpcmd_one (c : Chip) (h : Nat) :
    c.writeDpcmd h 1 = c.updHead h (fun x => { x with trainReq := true }) ∧ c.writeDpcmd h 2 = c.psrEnter h ∧
      c.writeDpcmd h 4 = c.psrExit h := ⟨rfl, rfl, rfl⟩

end

/-- Settles O34: AUX by BUSY and the reply, hot plug by AUTO_LT, self-refresh by the sink, training by the first
configuration found. -/
theorem displayPort : Obligations.DisplayPort := by
  unfold Obligations.DisplayPort
  refine ⟨?busy, ?native, ?ack, ?nack, ?defer, ?deferLast, ?timeout, ?plugTrain, ?plug, ?unplug, ?irq, ?irqLoss,
    ?psrArm, ?psrErr, ?psrExit, ?train, ?trained, ?failed⟩
  case busy => exact fun s m h v hl hs hb => exec_write hl hs rfl (by decide) v.isLt (if_pos hb)
  case native =>
    intro s m h v hl hs hb hc
    refine exec_write hl hs rfl (by decide) v.isLt ((if_neg (by simp [hb])).trans ?_)
    rcases hc with hc | hc <;> simp [hc, F.shAuxctrl_CMD]
  case ack => exact fun s h d hl hd hb hr => exec_on hl hd rfl (Chip.auxReply_runs hb hr d).1
  case nack => exact fun s h hl hd hb hr => exec_on hl hd rfl (Chip.auxReply_runs hb hr []).2.1
  case defer =>
    intro s h hl hd hb hr hn
    exact exec_on hl hd rfl ((Chip.auxReply_runs hb hr []).2.2.trans (if_pos hn))
  case deferLast =>
    intro s h hl hd hb hr hn
    exact exec_on hl hd rfl ((Chip.auxReply_runs hb hr []).2.2.trans (if_neg (Nat.not_lt.mpr hn)))
  case timeout =>
    intro s h hl hd hb hr ht
    have hx := Chip.auxRuns_iff.mpr ⟨hb, hr⟩
    exact exec_on hl hd rfl (if_pos (by simp [hx, ht]))
  case plugTrain => exact fun s h r l p g hl hd ha => exec_on hl hd rfl (if_pos ha)
  case plug => exact fun s h r l p g hl hd ha => exec_on hl hd rfl (if_neg (by simp [ha]))
  case unplug => exact fun s h hl hd => exec_on hl hd rfl rfl
  case irq => exact fun s h g hl hd => exec_on hl hd rfl rfl
  case irqLoss => exact fun s h g hl hd ha => exec_on hl hd rfl (if_pos ha)
  case psrArm =>
    intro s m h hl hs ho he hp hr
    refine exec_write hl hs rfl (by decide) (by decide) ((Chip.writeDpcmd_one ..).2.1.trans ?_)
    exact (if_pos (by simp [ho, he, hp])).trans (if_pos hr)
  case psrErr =>
    intro s m h hl hs hp
    refine exec_write hl hs rfl (by decide) (by decide) ((Chip.writeDpcmd_one ..).2.1.trans ?_)
    exact if_neg (by simp [hp])
  case psrExit =>
    intro s m h hl hs ha hok
    refine exec_write hl hs rfl (by decide) (by decide) ((Chip.writeDpcmd_one ..).2.2.trans ?_)
    exact (if_pos ha).trans (if_pos hok)
  case train =>
    intro s m h r l p g t hl hs ht hreq hd
    refine exec_live (f := fun c => (c.regWrite m .shDpcmd h.1 0 1).trainNow h.1 r.1 l.1 p g.toNat) hl rfl ?_
    rw [Chip.regWrite_served hs, Chip.taken_eq _ (by decide)]
    have he : (s.chip.writeReg m .shDpcmd h.1 0 (1 % 2 ^ 32)).afterWrite s.chip m .shDpcmd h.1 0 1 = t := ht
    rw [he]
    exact if_pos ⟨hreq, hd⟩
  case trained =>
    intro c h g r l hf
    rw [Chip.train, hf]
  case failed =>
    intro c h g hf
    rw [Chip.train, hf]

end Sys2Proof.Machine

/-! The audio engine's schedule, its voices' commands and its ports (spec/07_sound.md, R202 to R230). -/

namespace Sys2Proof.Machine

/-! ### The engine -/

/-- A listed value by number, every value mapped by what leaves the default. -/
theorem NStore.get_map {α : Type} {d : α} {f : α → α} (h : f d = d) (m : NStore α) (k : Nat) :
    NStore.get d (m.map fun p => (p.1, f p.2)) k = f (NStore.get d m k) := by
  unfold NStore.get
  induction m with
  | nil => exact h.symm
  | cons p m ih =>
    simp only [List.map_cons, Store.get?]
    split
    · rfl
    · exact ih

/-- A command held by HOLD, released to the next computation that takes it. -/
def VCmd.release (n : Nat) (x : VCmd) : VCmd := if x.held then { x with held := false, from_ := n } else x

section

variable {c t : Chip} {m : Master} {i j v : Nat}

theorem Chip.writeReg_audCtrl : c.writeReg m .audCtrl i j v = c.writeAudCtrl v := rfl

/-- HOLD cleared releases each voice's held commands. -/
theorem Chip.voice_setHold_false (c : Chip) (v : Nat) :
    ((c.setHold false).voice v).cmds = (c.voice v).cmds.map (VCmd.release c.nextTaking) :=
  congrArg Voice.cmds
    (NStore.get_map (f := fun x : Voice => { x with cmds := x.cmds.map (VCmd.release c.nextTaking) }) rfl c.snd.voices v)

/-- A write of RUN 1 by the state that it finds: running and not stopping, armed, stopped with or without the lock. -/
theorem Chip.writeAudCtrl_run (hr : bit v 0 = true) (ht : (c.setFld F.audCtrl_TICKDIV 0 0 (v / 2 ^ 8)).setHold (bit v 1) = t) :
    c.writeAudCtrl v =
      if (c.on F.audStat_RUNNING ∧ !c.snd.stopping) ∨ c.snd.arm.isSome then t.setFld F.audCtrl_RUN 0 0 1
      else if c.on F.audStat_PLL_LOCK then (t.setFld F.audCtrl_RUN 0 0 1).updSnd fun d => { d with arm := some c.startArm }
      else t.audStick F.audStat_CFG_ERR := by
  subst ht
  exact if_pos hr

/-- The registers for block k where none were kept: as they stand, those of HOLD as they stood at it. -/
theorem Chip.regsFor_none (ht : c.snd.taken = []) (k : Nat) : c.regsFor k = c.audRegs := by
  rw [Chip.regsFor, ht]
  rfl

end

/-- Settles O35: the engine by RUN, the lock and its blocks; HOLD and what the registers were by audTake and regsFor. -/
theorem audioEngine : Obligations.AudioEngine := by
  unfold Obligations.AudioEngine
  refine ⟨?lock, ?arms, ?refused, ?stops, ?release, ?unhold, ?starts, ?computes, ?live, ?held, ?sends, ?late, ?ends⟩
  case lock => exact fun s hl hd hp => exec_on hl hd rfl (if_pos hp)
  case arms =>
    intro s m v t hl hs hr ht hn ha hp hb
    refine exec_audWrite hl hs rfl rfl v.isLt ?_
    rw [Chip.writeReg_audCtrl, Chip.writeAudCtrl_run hr ht]
    simp [hn, ha, hp, Chip.startArm, hb, Chip.now]
  case refused =>
    intro s m v t hl hs hr ht hn ha hp
    refine exec_audWrite hl hs rfl rfl v.isLt ?_
    rw [Chip.writeReg_audCtrl, Chip.writeAudCtrl_run hr ht]
    simp [hn, ha, hp]
  case stops =>
    intro s m v t hl hs hr ht
    refine exec_audWrite hl hs rfl rfl v.isLt ?_
    subst ht
    rw [Chip.writeReg_audCtrl, ← Chip.audTake_on]
    exact if_neg (by simp [hr])
  case release =>
    intro s m v hl hs hr hn hst
    have hv : v.toNat / 4 * 4 + v.toNat % 2 < 2 ^ 32 := by omega
    have hr' : bit (v.toNat / 4 * 4 + v.toNat % 2) 0 = true := by simp only [bit, beq_iff_eq]; omega
    have hh : bit (v.toNat / 4 * 4 + v.toNat % 2) 1 = false := by
      have : (v.toNat / 4 * 4 + v.toNat % 2) / 2 % 2 = 0 := by omega
      simp [bit, this]
    have hd : (v.toNat / 4 * 4 + v.toNat % 2) / 2 ^ 8 = v.toNat / 2 ^ 8 := by omega
    refine exec_audWrite hl hs rfl rfl hv ?_
    rw [Chip.writeReg_audCtrl, Chip.writeAudCtrl_run hr' rfl, hh, hd]
    exact if_pos (.inl (by simp [hn, hst]))
  case unhold =>
    intro c
    refine ⟨rfl, ?_, fun v => c.voice_setHold_false v⟩
    show (c.setFld F.audCtrl_HOLD 0 0 0).on F.audCtrl_HOLD = false
    simp [Chip.on]
  case starts =>
    intro s a n hl hd ha hat hn hb
    refine exec_on hl hd rfl ?_
    rw [Chip.audStart, ha]
    exact (if_pos hat).trans (by simp [hn, hb])
  case computes =>
    intro s w k hl hd hp hn hst hk hdue hw
    refine exec_on hl hd rfl ((Chip.orWait_ran hp _).trans ?_)
    subst hk hw
    exact congrArg Chip.dmaLevels (if_pos ⟨hn, by simp [hst], hdue⟩)
  case live =>
    intro c k ht hh
    rw [Chip.regsFor_none ht, Chip.audRegs, hh]
  case held =>
    intro c k h ht hh
    rw [Chip.regsFor_none ht, Chip.audRegs, hh]
    simp [List.filter_filter, Bool.and_comm]
  case sends =>
    intro s o k hl hd hn hk hdue hst hr htick
    refine exec_on hl hd rfl ?_
    subst hk
    simp [Chip.blockSend, hn, hdue, hst, hr, htick, Chip.updSnd, Chip.now]
  case late =>
    intro s k hl hd hn hk hdue hst hr htick
    refine exec_on hl hd rfl ?_
    subst hk
    simp [Chip.blockSend, hn, hdue, hst, hr, Nat.not_le.mpr htick, Chip.now]
  case ends =>
    intro s k hl hd hn hk hdue hst
    refine exec_on hl hd rfl ?_
    subst hk
    simp [Chip.blockSend, hn, hdue, hst]

/-! ### Voices and ports -/

section

variable {c : Chip} {m : Master} {v : Nat}

theorem Chip.writeReg_vCmd (i j : Nat) : c.writeReg m .vCmd i j v = c.writeVoiceCmd i v := rfl

/-- A command without AT waits at its voice, held where HOLD is 1. -/
theorem Chip.writeVoiceCmd_now {w n : Nat} (hw : bit w 2 = false) (hn : c.nextTaking = n) (i : Nat) :
    c.writeVoiceCmd i w = c.updVoice i fun x =>
      { x with cmds := x.cmds.filter (fun y => !y.held && decide (y.from_ < n)) ++ [⟨w % 4, none, n, c.on F.audCtrl_HOLD⟩] } := by
  subst hn
  simp [Chip.writeVoiceCmd, hw]

/-- A command with AT carries its instant and is not held. -/
theorem Chip.writeVoiceCmd_at {w n : Nat} (hw : bit w 2 = true) (hn : c.nextTaking = n) (i : Nat) :
    c.writeVoiceCmd i w = c.updVoice i fun x =>
      { x with cmds := x.cmds.filter (fun y => !y.held && decide (y.from_ < n)) ++
        [⟨w % 4, some (c.fld64 F.vAtLo_T F.vAtHi_T i), n, false⟩] } := by
  subst hn
  simp [Chip.writeVoiceCmd, hw]

/-- The port's configuration register is written as the port's configuration. -/
theorem Chip.writeReg_audioPort (c : Chip) (m : Master) {x : Nat} (v : Nat) :
    c.writeReg m (audioPortReg x).1 (audioPortReg x).2 0 v = c.writePortCfg x v := by
  unfold audioPortReg
  split
  · rfl
  · split
    · exact congrArg (c.writePortCfg · v) (by dsimp only; omega)
    · split
      · exact congrArg (c.writePortCfg · v) (by dsimp only; omega)
      · exact congrArg (c.writePortCfg · v) (by dsimp only; omega)

theorem audioPortReg_block (x : Nat) : (audioPortReg x).1.block = .aud := by
  unfold audioPortReg
  split_ifs <;> rfl

end

/-- Settles O36: a command by AT and HOLD; a port by EN, its settings and its clock. -/
theorem voicesAndPorts : Obligations.VoicesAndPorts := by
  unfold Obligations.VoicesAndPorts
  refine ⟨?keyOn, ?keyOff, ?stop, ?timed, ?taken, ?fading, ?enabled, ?enables, ?clkLoss, ?slip⟩
  case keyOn =>
    intro s m i n hl hs hn
    refine exec_audWrite hl hs rfl rfl (by decide) ?_
    rw [Chip.writeReg_vCmd, Chip.writeVoiceCmd_now (by decide) hn, Chip.audTake_on]
  case keyOff =>
    intro s m i n hl hs hn
    refine exec_audWrite hl hs rfl rfl (by decide) ?_
    rw [Chip.writeReg_vCmd, Chip.writeVoiceCmd_now (by decide) hn, Chip.audTake_on]
  case stop =>
    intro s m i n hl hs hn
    refine exec_audWrite hl hs rfl rfl (by decide) ?_
    rw [Chip.writeReg_vCmd, Chip.writeVoiceCmd_now (by decide) hn, Chip.audTake_on]
  case timed =>
    intro s m i op n hl hs hn
    have ho := op.isLt
    have hb : bit (4 + op.toNat) 2 = true := by simp only [bit, beq_iff_eq]; omega
    have hm : (4 + op.toNat) % 4 = op.toNat := by omega
    refine exec_audWrite hl hs rfl rfl (by omega) ?_
    rw [Chip.writeReg_vCmd, Chip.writeVoiceCmd_at hb hn, Chip.audTake_fld64, hm]
  case taken =>
    intro s k f i j hl hd hf hp
    refine exec_on hl hd rfl ((if_neg (by simp [hf])).trans ?_)
    rw [hp]
  case fading => exact fun s k hl hd hf => exec_on hl hd rfl (if_pos hf)
  case enabled =>
    intro s m x v hl hs he
    obtain ⟨hv, hb, -, -⟩ := word_set31 v
    refine exec_audWrite hl hs rfl (audioPortReg_block _) hv ?_
    rw [Chip.writeReg_audioPort]
    exact (if_pos (by rw [Chip.audTake_on, he])).trans (if_pos hb)
  case enables =>
    intro s m x v t hl hs he ht hok
    obtain ⟨hv, hb, -, -⟩ := word_set31 v
    refine exec_audWrite hl hs rfl (audioPortReg_block _) hv ?_
    subst ht
    rw [Chip.writeReg_audioPort]
    refine (if_neg (by rw [Chip.audTake_on, he]; decide)).trans ((if_pos hb).trans (if_neg ?_))
    rintro ⟨hx, hi⟩
    exact hok.elim (fun h => h hx) fun h => by rw [h] at hi; exact absurd hi (by decide)
  case clkLoss => exact fun s x hl hd hr hx hc => exec_on hl hd rfl (if_pos ⟨hr, hx, hc⟩)
  case slip => exact fun s x hl hd hr hx => exec_on hl hd rfl (if_pos ⟨hr, hx⟩)

end Sys2Proof.Machine

/-! The blit engine (spec/08_blit_dma.md, R234 to R248): its queue, and a running command's bursts, watermark and end. -/

namespace Sys2Proof.Machine

section

variable {c : Chip} {r : BltRun} {m : Master}

theorem Chip.writeReg_bltGo (i j v : Nat) : c.writeReg m .bltGo i j v = c.writeBltGo v := rfl

/-- A word of GO by its one bit. -/
theorem Chip.writeBltGo_one (c : Chip) : c.writeBltGo 1 = c.bltGo ∧ c.writeBltGo 2 = c.bltAbort := ⟨rfl, rfl⟩

/-- The watermark fires once it is due. -/
theorem Chip.bltWmark_of_run (hr : c.blt.run = some r) :
    c.bltWmark = if r.wmDue then
      ({ c with blt := { c.blt with run := some { r with wmFired := true } } }.setFld F.bltStat_WMARK 0 0 1).raise 329
    else c := by
  rw [Chip.bltWmark, hr]

/-- A stretch whose stores are not all served fails the command. -/
theorem Chip.bltIssue_down {f n : Nat} {q : Nat × Nat} (hn : n ≠ 0) (hr : r.row < r.cmd.h)
    (hq : c.bltDown (r.needs (r.stretch n)) = some q) : c.bltIssue r (f + 1) n = c.bltReadFails r q := by
  rw [Chip.bltIssue, if_neg (by simp [hn, hr])]
  simp only [hq]

/-- A command with every row issued and answered, its watermark not due. -/
theorem Chip.bltDone_whole (hr : c.blt.run = some r) (hrow : r.cmd.h ≤ r.row) (ho : r.outAll = 0) (hf : r.failed = false)
    (ha : r.aborted = false) (hw : r.wmDue = false) :
    c.bltDone = ((((if r.cmd.fsig then c.fenceWrite (.own 0x28) r.cmd.fence else c).setFld F.bltStat_DONE 0 0 1).bump
      F.bltDonecnt_COUNT F.bltDonecnt_SAT).raise 328).bltDrop := by
  simp [Chip.bltDone, hr, hrow, ho, hf, ha, Chip.bltWmark_of_run hr, hw]

end

/-- Settles O37: GO and ABORT by what the engine holds, BLIT_BEGIN by the front command. -/
theorem blitQueue : Obligations.BlitQueue := by
  unfold Obligations.BlitQueue
  refine ⟨?go, ?full, ?abortIdle, ?abortDone, ?abortLater, ?badFmt, ?overlap, ?begins⟩
  case go =>
    intro s m hl hs hn
    exact exec_write hl hs rfl (by decide) (by decide) ((Chip.writeBltGo_one _).1.trans (if_neg (Nat.not_le.mpr hn)))
  case full =>
    intro s m hl hs hn
    exact exec_write hl hs rfl (by decide) (by decide) ((Chip.writeBltGo_one _).1.trans (if_pos hn))
  case abortIdle =>
    intro s m hl hs hr
    refine exec_write hl hs rfl (by decide) (by decide) ((Chip.writeBltGo_one _).2.trans ?_)
    simp only [Chip.bltAbort, hr]
  case abortDone =>
    intro s m r t hl hs hr ho ht
    refine exec_write hl hs rfl (by decide) (by decide) ((Chip.writeBltGo_one _).2.trans ?_)
    simp only [Chip.bltAbort, hr, ho, if_true, ← ht]
  case abortLater =>
    intro s m r hl hs hr ho
    refine exec_write hl hs rfl (by decide) (by decide) ((Chip.writeBltGo_one _).2.trans ?_)
    simp only [Chip.bltAbort, hr, ho, if_false]
  case badFmt =>
    intro s b q hl hd hr hq hb
    refine exec_on hl hd rfl ?_
    simp only [Chip.bltBegin, hr, hq, hb, if_true]
  case overlap =>
    intro s b q hl hd hr hq hb hp
    refine exec_on hl hd rfl ?_
    simp only [Chip.bltBegin, hr, hq, hb, hp, Bool.false_eq_true, if_false]
  case begins =>
    intro s b q r hl hd hr hq hb hp
    refine exec_on hl hd rfl ?_
    simp only [Chip.bltBegin, hr, hq, hb, hp, Bool.false_eq_true, if_false]

/-- Settles O38: a burst's dead time, a stretch by the stores it needs, and the end of a command by how it went. -/
theorem blitRun : Obligations.BlitRun := by
  unfold Obligations.BlitRun
  refine ⟨?burst, ?down, ?stretch, ?wmark, ?wmarkNot, ?doneFence, ?done, ?error⟩
  case burst =>
    intro s r r2 t hl hd hp hr hf ha hrow hdead ht
    refine exec_on hl hd rfl ((Chip.orWait_ran hp _).trans ?_)
    simp [Chip.bltBurst, hr, hf, ha, Nat.not_le.mpr hrow, Nat.not_lt.mpr hdead, BltCmd.burstBytes, ht]
  case down => exact fun s r f n q hn hrow hq => Chip.bltIssue_down hn hrow hq
  case stretch =>
    intro s r f n k y p w hn hrow hst hk hq hy hp hw
    subst hk hy hp hw
    rw [Chip.bltIssue, if_neg (by simp [hn, hrow])]
    simp [hq, hst]
  case wmark => exact fun s r hl hd hr hw => exec_on hl hd rfl ((Chip.bltWmark_of_run hr).trans (if_pos hw))
  case wmarkNot =>
    intro s r hl hd hr hw
    exact exec_on hl hd rfl ((Chip.bltWmark_of_run hr).trans (if_neg (by simp [hw])))
  case doneFence =>
    intro s r hl hd hr hrow ho hf ha hw hs
    refine exec_on hl hd rfl ((Chip.bltDone_whole hr hrow ho hf ha hw).trans ?_)
    rw [if_pos hs]
  case done =>
    intro s r hl hd hr hrow ho hf ha hw hs
    refine exec_on hl hd rfl ((Chip.bltDone_whole hr hrow ho hf ha hw).trans ?_)
    rw [hs]
    rfl
  case error =>
    intro s r hl hd hr hf ho ha
    refine exec_on hl hd rfl ?_
    simp [Chip.bltError, hr, hf, ho, ha]

end Sys2Proof.Machine

/-! DMA channels (spec/08_blit_dma.md, R255 to R268): the commands by the channel's state, and the descriptors' transfers. -/

namespace Sys2Proof.Machine

/-! ### Commands -/

section

variable {c : Chip} {i : Nat}

theorem Chip.writeReg_dmacCmd (m : Master) (i j v : Nat) : c.writeReg m .dmacCmd i j v = c.writeDmaCmd i v := rfl

theorem Chip.writeReg_dmaBell (m : Master) (i j v : Nat) : c.writeReg m .dmaBell i j v = c.dmaStart (bits v 9 0) := rfl

/-- A word of CMD with one bit set is that bit's command, and the channel settles unless it is ABORT. -/
theorem Chip.writeDmaCmd_one (c : Chip) (i : Nat) :
    c.writeDmaCmd i 1 = (c.dmaStart i).dmaSettle i ∧ c.writeDmaCmd i 2 = (c.dmaHalting i).dmaSettle i ∧
      c.writeDmaCmd i 4 = (c.dmaResume i).dmaSettle i ∧ c.writeDmaCmd i 8 = c.dmaAbort i := ⟨rfl, rfl, rfl, rfl⟩

/-- A descriptor read leaves a channel that does not settle. -/
theorem Chip.dmaSettle_fetch (c : Chip) (i : Nat) : (c.dmaFetch i).dmaSettle i = c.dmaFetch i :=
  Chip.dmaSettle_kept (by rw [Chip.dmaFetch_state]; decide)

/-- START of an IDLE channel without marks reads the descriptor. -/
theorem Chip.dmaStart_idle (h : c.dmaState i = 0) (hp : dmaPaced (c.fld F.dmacCfg_REQSRC i) = false) :
    c.dmaStart i = c.dmaFetch i := by
  simp [Chip.dmaStart, h, hp]

/-- START of an IDLE channel of marks that leave no room is refused. -/
theorem Chip.dmaStart_marks (h : c.dmaState i = 0) (hp : dmaPaced (c.fld F.dmacCfg_REQSRC i) = true)
    (hm : c.fld F.dmacHi_MARK i ≤ c.fld F.dmacLo_MARK i) : c.dmaStart i = c.dmaErrBit F.dmacStat_CFG_ERR i := by
  simp [Chip.dmaStart, h, hp, hm]

theorem Chip.dmaStart_waitOwn (h : c.dmaState i = 1) : c.dmaStart i = c.dmaFetch i := by
  simp [Chip.dmaStart, h]

theorem Chip.dmaStart_busy (h : 2 ≤ c.dmaState i) : c.dmaStart i = c := by
  have h0 : c.dmaState i ≠ 0 := by omega
  have h1 : c.dmaState i ≠ 1 := by omega
  simp [Chip.dmaStart, h0, h1]

end

/-- Settles O39: each command by the state it finds, which says what it leaves and that it does not settle. -/
theorem dmaCommands : Obligations.DmaCommands := by
  unfold Obligations.DmaCommands
  refine ⟨?start, ?marks, ?again, ?busy, ?bellWait, ?bellIdle, ?haltRead, ?halt, ?settle, ?resume, ?resumeNext,
    ?resumeNot, ?abortRead, ?abortWait, ?abortNot⟩
  case start =>
    intro s m i hl hs h hp
    refine exec_write hl hs rfl (by decide) (by decide) ((Chip.writeDmaCmd_one ..).1.trans ?_)
    rw [Chip.dmaStart_idle h hp, Chip.dmaSettle_fetch]
  case marks =>
    intro s m i hl hs h hp hm
    refine exec_write hl hs rfl (by decide) (by decide) ((Chip.writeDmaCmd_one ..).1.trans ?_)
    rw [Chip.dmaStart_marks h hp hm, Chip.dmaSettle_kept]
    rw [Chip.dmaErrBit_state _ (by decide), h]
    decide
  case again =>
    intro s m i hl hs h
    refine exec_write hl hs rfl (by decide) (by decide) ((Chip.writeDmaCmd_one ..).1.trans ?_)
    rw [Chip.dmaStart_waitOwn h, Chip.dmaSettle_fetch]
  case busy =>
    intro s m i hl hs h hn
    refine exec_write hl hs rfl (by decide) (by decide) ((Chip.writeDmaCmd_one ..).1.trans ?_)
    rw [Chip.dmaStart_busy h, Chip.dmaSettle_kept hn]
  case bellWait =>
    intro s m v hl hs h
    exact exec_write hl hs rfl (by decide) v.isLt ((Chip.writeReg_dmaBell ..).trans (Chip.dmaStart_waitOwn h))
  case bellIdle =>
    intro s m v hl hs h hp
    exact exec_write hl hs rfl (by decide) v.isLt ((Chip.writeReg_dmaBell ..).trans (Chip.dmaStart_idle h hp))
  case haltRead =>
    intro s m i hl hs hr h
    refine exec_write hl hs rfl (by decide) (by decide) ((Chip.writeDmaCmd_one ..).2.1.trans ?_)
    have he : s.chip.dmaHalting i.1 = s.chip.updChan i.1 fun x => { x with haltHeld := true } := if_pos ⟨hr, h⟩
    rw [he, Chip.dmaSettle_kept]
    show s.chip.dmaState i.1 ≠ 4
    omega
  case halt =>
    intro s m i hl hs hr h hd
    refine exec_write hl hs rfl (by decide) (by decide) ((Chip.writeDmaCmd_one ..).2.1.trans ?_)
    exact congrArg (Chip.dmaSettle · i.1) ((if_neg (by simp [hr])).trans (if_pos ⟨h, hd⟩))
  case settle =>
    intro c i hb hp hf
    exact if_pos ⟨Chip.setDmaState_state .., by simp [hb], by simp [hp], by simp [hf]⟩
  case resume =>
    intro s m i hl hs h hd
    refine exec_write hl hs rfl (by decide) (by decide) ((Chip.writeDmaCmd_one ..).2.2.1.trans ?_)
    have he : s.chip.dmaResume i.1 = (s.chip.setDmaState i.1 2).dmaRequest i.1 := (if_neg (by simp [h])).trans (if_pos hd)
    rw [he, Chip.dmaSettle_kept (Chip.dmaRequest_state (Chip.setDmaState_state ..))]
  case resumeNext =>
    intro s m i hl hs h hd hstop
    refine exec_write hl hs rfl (by decide) (by decide) ((Chip.writeDmaCmd_one ..).2.2.1.trans ?_)
    have he : s.chip.dmaResume i.1 = s.chip.dmaFetch i.1 := by simp [Chip.dmaResume, h, hd, hstop]
    rw [he, Chip.dmaSettle_fetch]
  case resumeNot =>
    intro s m i hl hs h hn
    refine exec_write hl hs rfl (by decide) (by decide) ((Chip.writeDmaCmd_one ..).2.2.1.trans ?_)
    rw [show s.chip.dmaResume i.1 = s.chip from if_pos h, Chip.dmaSettle_kept hn]
  case abortRead =>
    intro s m i hl hs hr h
    exact exec_write hl hs rfl (by decide) (by decide) ((Chip.writeDmaCmd_one ..).2.2.2.trans (if_pos ⟨hr, h⟩))
  case abortWait =>
    intro s m i hl hs h
    refine exec_write hl hs rfl (by decide) (by decide) ((Chip.writeDmaCmd_one ..).2.2.2.trans ?_)
    simp [Chip.dmaAbort, h]
  case abortNot =>
    intro s m i hl hs h
    refine exec_write hl hs rfl (by decide) (by decide) ((Chip.writeDmaCmd_one ..).2.2.2.trans ?_)
    rcases h with h | h <;> simp [Chip.dmaAbort, h]

/-! ### Transfers -/

/-- Bytes given to a powered voice's ring move its write pointer, modulo the ring. -/
theorem Chip.dmaAdvance_voice {c : Chip} (h : c.domOn 42 = true) (v n : Nat) :
    c.dmaAdvance (0x200 + v) n =
      c.audTake.setFld F.vWptr_WPTR v 0 ((c.fld F.vWptr_WPTR v + n) % c.ringSize v) := by
  rw [Chip.dmaAdvance, if_pos (Nat.le_add_right ..), if_pos h, Nat.add_sub_cancel_left]

/-- Settles O40: a descriptor by what its read finds, a burst by the channel picked, a pointer by its burst, and the end
of a good last descriptor. -/
theorem dmaTransfers : Obligations.DmaTransfers := by
  unfold Obligations.DmaTransfers
  refine ⟨?badAddr, ?notOwned, ?none, ?burst, ?pointer, ?dropped, ?finish, ?notDue⟩
  case badAddr =>
    intro s i hl hd hr ha
    refine exec_on hl hd rfl ?_
    exact (if_neg (by simp [hr])).trans (if_pos (.inl ha))
  case notOwned =>
    intro s i a r hl hd hr ha hlo hhi hup hheld hh hz ho hst
    refine exec_on hl hd rfl ?_
    subst ha
    simp [Chip.dmaDescReturn, hr, Nat.not_lt.mpr hlo, Nat.not_le.mpr hhi, hup, hheld, hh, hz, ho, hst]
  case none =>
    intro s hl hd hp
    refine exec_on hl hd rfl ?_
    simp only [Chip.dmaBurst, hp, ite_self]
  case burst =>
    intro s k q d rs t hl hd hp hdesc hsrc hq hrs ht
    refine exec_on hl hd rfl ?_
    subst hq hrs ht
    simp only [Chip.dmaBurst, hd, hp, hdesc, hsrc, if_false, Bool.not_true, Bool.false_eq_true]
  case pointer =>
    intro s i p rest t v hl hd hp hsrc hcl ht hon
    refine exec_on hl hd rfl (congrArg Chip.dmaLevels ?_)
    subst ht
    simp only [Chip.dmaPointer, hp, hcl, if_true, hsrc, Chip.dmaAdvance_voice hon]
  case dropped =>
    intro s i p rest hl hd hp hcl
    refine exec_on hl hd rfl (congrArg Chip.dmaLevels ?_)
    simp only [Chip.dmaPointer, hp, hcl, Bool.false_eq_true, if_false]
  case finish =>
    intro s i d t hl hd hdesc hdue hw hst hstat hz hf hi hlast ht
    refine exec_on hl hd rfl (congrArg Chip.dmaLevels ?_)
    subst ht
    simp [Chip.dmaFinish, hdesc, hdue, hw, hst, hstat, hz, hf, hi, hlast, b2n]
  case notDue =>
    intro s i d hl hd hdesc hdue
    refine exec_on hl hd rfl (congrArg Chip.dmaLevels ?_)
    simp [Chip.dmaFinish, hdesc, hdue]

end Sys2Proof.Machine

/-! The cores (spec/09_anvil_instruction_set.md, spec/10_anvil_system.md, R284 to R321): their control, how an instruction
issues, and the debug windows. -/

namespace Sys2Proof.Machine

/-! ### Control -/

section

variable {s : State} {c t : Chip} {i : Instr} {f : Chip → Chip} {k : Nat}

/-- A command of a core whose unit's domain is on. -/
theorem exec_core (hl : Live s) (hd : s.chip.domOn (s.chip.physOf 0 k) = true)
    (he : exec i s = s.act fun c => c.whenOn (c.physOf 0 k) f) (ht : f s.chip = t) : exec i s = .next (s.withChip t) :=
  exec_live hl he ((Chip.whenOn_on hd f).trans ht)

theorem Chip.writeReg_coreCtrl (c : Chip) (m : Master) (j v : Nat) : c.writeReg m .coreCtrl k j v = c.writeCoreCtrl k v := rfl

/-- A word of CTRL with one bit set is that bit's command. -/
theorem Chip.writeCoreCtrl_one (c : Chip) (k : Nat) :
    c.writeCoreCtrl k 1 = c.coreRun k ∧ c.writeCoreCtrl k 2 = c.coreHalt k ∧ c.writeCoreCtrl k 4 = c.coreStep k ∧
      c.writeCoreCtrl k 8 = c.coreReset k := ⟨rfl, rfl, rfl, rfl⟩

/-- HALT of a RUNNING core halts it, or waits for the instruction that is blocked. -/
theorem Chip.coreHalt_running (h : c.coreState k = 2) :
    c.coreHalt k = if (c.core k).blocked.isSome then c.updCore k fun x => { x with haltPend := true } else c.setCoreState k 1 := by
  simp only [Chip.coreHalt, h]

theorem Chip.coreHalt_waiting (h : c.coreState k = 3) : c.coreHalt k = c.setCoreState k 1 := by
  simp only [Chip.coreHalt, h]

end

/-- Settles O42: each command and event by the core's state. -/
theorem coreControl : Obligations.CoreControl := by
  unfold Obligations.CoreControl
  refine ⟨?run, ?runNot, ?halt, ?haltBlocked, ?haltWaiting, ?step, ?stepNot, ?reset, ?wfi, ?wfiNot, ?irq, ?irqNot,
    ?sync, ?syncNot⟩
  case run =>
    intro s m k hl hs h hd
    exact exec_write hl hs rfl (by decide) (by decide) ((Chip.writeCoreCtrl_one ..).1.trans (if_pos ⟨h, hd⟩))
  case runNot =>
    intro s m k hl hs h
    refine exec_write hl hs rfl (by decide) (by decide) ((Chip.writeCoreCtrl_one ..).1.trans (if_neg ?_))
    omega
  case halt =>
    intro s m k hl hs h hb
    refine exec_write hl hs rfl (by decide) (by decide) ((Chip.writeCoreCtrl_one ..).2.1.trans ?_)
    rw [Chip.coreHalt_running h, hb]
    rfl
  case haltBlocked =>
    intro s m k n hl hs h hb
    refine exec_write hl hs rfl (by decide) (by decide) ((Chip.writeCoreCtrl_one ..).2.1.trans ?_)
    rw [Chip.coreHalt_running h, hb]
    rfl
  case haltWaiting =>
    intro s m k hl hs h
    exact exec_write hl hs rfl (by decide) (by decide) ((Chip.writeCoreCtrl_one ..).2.1.trans (Chip.coreHalt_waiting h))
  case step =>
    intro s m k hl hs h
    exact exec_write hl hs rfl (by decide) (by decide) ((Chip.writeCoreCtrl_one ..).2.2.1.trans (if_pos h))
  case stepNot =>
    intro s m k hl hs h
    exact exec_write hl hs rfl (by decide) (by decide) ((Chip.writeCoreCtrl_one ..).2.2.1.trans (if_neg h))
  case reset =>
    intro s m k hl hs h
    refine exec_write hl hs rfl (by decide) (by decide) ?_
    rw [Chip.writeReg_coreCtrl, (Chip.writeCoreCtrl_one ..).2.2.2, Chip.coreReset, if_neg h]
  case wfi =>
    intro s k hl hd h hr
    refine exec_core hl hd rfl ?_
    rw [Chip.wfiEnd, if_pos ⟨h, hr⟩]
  case wfiNot =>
    intro s k hl hd _ hr
    refine exec_core hl hd rfl ?_
    exact if_neg (by simp [hr])
  case irq =>
    intro s k t hl hd hi ht
    subst ht
    refine exec_core hl hd rfl ?_
    exact if_pos hi
  case irqNot =>
    intro s k hl hd hi
    refine exec_core hl hd rfl ?_
    exact if_neg (by simp [hi])
  case sync =>
    intro s k hl hd hs hw
    refine exec_core hl hd rfl ?_
    have hn : ((s.chip.core k.1).fab.any fun o => o.write) = false := List.any_eq_false.mpr fun o ho => by simp [hw o ho]
    exact if_pos (by simp [hs, hn])
  case syncNot =>
    intro s k hl hd hw
    refine exec_core hl hd rfl ?_
    exact if_neg (by simp [hw])

/-! ### Issue -/

section

variable {c t : Chip} {k pc w : Nat}

/-- A core that may issue, with no interrupt due and no breakpoint, tries the word at its PC. -/
theorem Chip.issue_tries {p : Bool} (hm : c.mayIssue k = true) (hi : c.irqDue k = false) (hb : c.on F.coreBrk_EN k = false)
    (hpc : c.fld F.coreStat_PC k = pc) (hu : c.checkUnit (imemAddr k pc) = (p, t)) (hw : c.imemWord k pc = w) :
    c.issue k = if p then t.issuePoisoned k pc
      else if c.unitWaits k w || c.fifoWaits k w then
        t.updCore k fun x => { x with blocked := some (x.blocked.getD c.now) }
      else t.issueNow k pc w false := by
  subst hpc hw
  simp [Chip.issue, hm, hi, hb, hu]

/-- A word of four empty slots waits for nothing and moves nothing: the core goes on. -/
theorem Chip.unitWaits_zero (c : Chip) (k : Nat) : c.unitWaits k 0 = false := rfl

theorem Chip.fifoWaits_zero (c : Chip) (k : Nat) : c.fifoWaits k 0 = false := rfl

theorem Chip.issueNow_zero (c : Chip) (k pc : Nat) : c.issueNow k pc 0 false = c.issued k ((pc + 1) % 16384) false := rfl

/-- A word without a mark is good as it stands. -/
theorem Chip.checkUnit_unmarked {u : Nat} (h : Store.get? u c.marks = none) : c.checkUnit u = (false, c) := by
  unfold Chip.checkUnit
  rw [h]

end

/-- Settles O43: an issue by the breakpoint, the word's mark and what it waits for; a timeout and a result by theirs. -/
theorem coreIssue : Obligations.CoreIssue := by
  unfold Obligations.CoreIssue
  refine ⟨?brk, ?issues, ?empty, ?waits, ?poison, ?timeout, ?result⟩
  case brk =>
    intro s k hl hd hm hi hb ha hh hst hbl
    refine exec_core hl hd rfl (congrArg Chip.dmaLevels ?_)
    simp [Chip.issue, hm, hi, hb, ha, hh, hst, hbl]
  case issues =>
    intro s k w pc t hl hd hm hi hb hpc hu hw hn hf
    refine exec_core hl hd rfl (congrArg Chip.dmaLevels ?_)
    rw [Chip.issue_tries hm hi hb hpc hu hw, hn, hf]
    rfl
  case empty =>
    intro s k pc hl hd hm hi hb hpc hu hw
    refine exec_core hl hd rfl (congrArg Chip.dmaLevels ?_)
    rw [Chip.issue_tries hm hi hb hpc (Chip.checkUnit_unmarked hu) hw, Chip.unitWaits_zero, Chip.fifoWaits_zero,
      ← Chip.issueNow_zero]
    rfl
  case waits =>
    intro s k w pc t hl hd hm hi hb hpc hu hw hn
    refine exec_core hl hd rfl (congrArg Chip.dmaLevels ?_)
    rw [Chip.issue_tries hm hi hb hpc hu hw]
    exact if_pos hn
  case poison =>
    intro s k pc t hl hd hm hi hb hpc hu
    refine exec_core hl hd rfl (congrArg Chip.dmaLevels ?_)
    rw [Chip.issue_tries hm hi hb hpc hu rfl]
    rfl
  case timeout =>
    intro s k w pc t0 hl hd hpc hw hb hm hn hf hst ht
    refine exec_core hl hd rfl (congrArg Chip.dmaLevels ?_)
    subst hpc hw
    simp [Chip.accTimeout, hb, hm, hn, hf, hst, ht]
  case result =>
    intro s k r rest k' n hl hd ht ho
    refine exec_core hl hd rfl ?_
    simp only [Chip.fabResult, ht, ho]

/-! ### Debug windows -/

section

variable {c : Chip} {m : Master} {k o la v : Nat}

/-- A window's address lies in the windows, and within its core's. -/
theorem windowAddr_range (hk : k < 8) (ho : o < 2 ^ 22) :
    0x18000000 ≤ windowAddr k o ∧ windowAddr k o < 0x1A000000 ∧ windowAddr k o < 2 ^ 30 := by
  unfold windowAddr; omega

theorem windowAddr_split (ho : o < 2 ^ 22) : winCore (windowAddr k o) = k ∧ windowAddr k o % 0x400000 = o := by
  unfold winCore windowAddr; omega

/-- An access of this package's debug windows that nothing holds back is performed there. -/
theorem Chip.direct_window {w : Bool} (hla : 0x18000000 ≤ la ∧ la < 0x1A000000 ∧ la < 2 ^ 30)
    (hf : Free c (given m w (c.localAddr la) 4 v false)) (hd : c.domOn 41 = true) (hr : c.heldByRepair la 4 = false) :
    c.direct m w (c.localAddr la) 4 v = Chip.answer (given m w (c.localAddr la) 4 v false) (c.accessWin la 4 w v) := by
  obtain ⟨hlo, hhi, h30⟩ := hla
  refine (Chip.submit_store hf (c.localAddr_div h30) ?_).trans ?_
  · simp only [given, c.localAddr_mod h30, hr]
  · simp only [given, c.localAddr_mod h30, Chip.perform_window hd ⟨hlo, hhi⟩]

/-- The first word of an instruction of a powered core that is not stopped is refused. -/
theorem Chip.winRefuses_imem (ho : o < 2 ^ 22) (hp : c.domOn (c.physOf 0 k) = true) (ha : o % 32 = 0) (hlo : 0x200000 ≤ o)
    (hhi : o < 0x280000) (hst : 2 ≤ c.coreState k) (w : Bool) : c.winRefuses (windowAddr k o) 4 w = some .target := by
  obtain ⟨hc, hm⟩ := windowAddr_split (k := k) ho
  have h4 : windowAddr k o % 4 = 0 := by unfold windowAddr; omega
  have he : winElem o = some (o / 32 * 32, 1, (o - 0x200000) / 32, o % 32 / 4) := by
    rw [winElem, if_neg (by omega), if_pos hhi, if_pos (by omega)]
  simp [Chip.winRefuses, hc, hm, h4, he, hp, hst]

end

/-- Settles O44: an access of a window by whether the window refuses it. -/
theorem debugWindows : Obligations.DebugWindows := by
  unfold Obligations.DebugWindows
  refine ⟨?read, ?write, ?busy⟩
  case read =>
    intro s m k o la d p t hl hla hf hd hr hn ht
    subst hla
    refine exec_live (f := fun c => c.direct m false (c.localAddr (windowAddr k.1 o.toNat)) 4 0) hl rfl ?_
    rw [Chip.direct_window (windowAddr_range k.2 o.isLt) hf hd hr, Chip.accessWin_read hn ht]
    rfl
  case write =>
    intro s m k o v la hl hla hf hd hr hn
    subst hla
    refine exec_live (f := fun c => c.direct m true (c.localAddr (windowAddr k.1 o.toNat)) 4 v.toNat) hl rfl ?_
    rw [Chip.direct_window (windowAddr_range k.2 o.isLt) hf hd hr, Chip.accessWin_write hn, Nat.mod_eq_of_lt v.isLt]
    rfl
  case busy =>
    intro s m k o v la hl hla hf hd hp hr ha hlo hhi hst
    subst hla
    refine exec_live (f := fun c => c.direct m true (c.localAddr (windowAddr k.1 o.toNat)) 4 v.toNat) hl rfl ?_
    rw [Chip.direct_window (windowAddr_range k.2 o.isLt) hf hd hr,
      Chip.accessWin_refused (Chip.winRefuses_imem o.isLt hp ha hlo hhi hst true)]
    rfl

end Sys2Proof.Machine

/-! The links and the canvas (spec/14_lintel_canvas.md, R376, R441 to R456): retry and credits, training and lanes, routes,
broadcasts, and the count's alignment. -/

namespace Sys2Proof.Machine

/-! ### Retry and credits -/

section

variable {c : Chip} {l : Nat} {p : Packet} {good : Bool}

@[simp] theorem Chip.link_updLink (c : Chip) (l : Nat) (f : Link → Link) : (c.updLink l f).link l = f (c.link l) :=
  NStore.get_set_self _ _ _ _

/-- A packet whose check or type fails is refused, whatever its number. -/
theorem Chip.packetReceive_bad (hu : c.fld F.lnklStat_STATE l = 2) (hb : good = false ∨ p.crc ≠ p.crcOf ∨ 8 ≤ p.typ) :
    c.packetReceive l p good =
      ((c.bump F.lnklCrccnt_COUNT F.lnklCrccnt_SAT l).linkStick F.lnklStat_CRC l).updLink l fun x => x.refuse := by
  refine (if_neg (by simp [hu])).trans (if_pos ?_)
  rcases hb with hb | hb | hb
  · exact .inl (by simp [hb])
  · exact .inr (.inl hb)
  · exact .inr (.inr (.inl hb))

/-- A packet ahead of the one expected is refused, too. -/
theorem Chip.packetReceive_ahead (hu : c.fld F.lnklStat_STATE l = 2) (hlo : (c.link l).expect < p.seq)
    (hhi : p.seq < (c.link l).expect + 2048) :
    c.packetReceive l p good =
      ((c.bump F.lnklCrccnt_COUNT F.lnklCrccnt_SAT l).linkStick F.lnklStat_CRC l).updLink l fun x => x.refuse := by
  refine (if_neg (by simp [hu])).trans (if_pos (.inr (.inr (.inr ?_))))
  omega

/-- An intact packet that is not ahead: taken where its number is the one expected, dropped else. -/
theorem Chip.packetReceive_intact (hu : c.fld F.lnklStat_STATE l = 2) (hg : good = true) (hc : p.crc = p.crcOf)
    (ht : p.typ < 8) (hn : (p.seq + 4096 - (c.link l).expect) % 4096 = 0 ∨ 2048 ≤ (p.seq + 4096 - (c.link l).expect) % 4096) :
    c.packetReceive l p good =
      if (p.seq + 4096 - (c.link l).expect) % 4096 = 0 then
        (c.updLink l fun x => x.take p).acceptPacket l { p with inl := l }
      else c := by
  refine (if_neg (by simp [hu])).trans (if_neg ?_)
  rintro (h | h | h | h)
  · simp [hg] at h
  · exact h hc
  · omega
  · omega

/-- What a NAK or 10 µs without an ACK does: a resend, or retraining after RETRYMAX of them. -/
theorem Chip.resend_up (hr : (c.link l).replay ≠ []) (hu : c.fld F.lnklStat_STATE l = 2) :
    c.resend l =
      if c.fld F.lnklCtrl_RETRYMAX l ≤ (c.link l).resends then c.setFld F.lnklStat_STATE l 0 3
      else ((c.bump F.lnklRetrycnt_COUNT F.lnklRetrycnt_SAT l 0 (c.link l).replay.length).linkStick F.lnklStat_RETRY l).updLink
        l fun x => { x with resends := x.resends + 1, since := c.now } :=
  if_neg (by simp [hr, hu])

end

/-- Settles O45: a packet by its check and its number, what is held by ACK, NAK and the timeout, credits as given. -/
theorem linkPackets : Obligations.LinkPackets := by
  unfold Obligations.LinkPackets
  refine ⟨?taken, ?bad, ?nak, ?nakSent, ?ahead, ?behind, ?ack, ?ackNot, ?nakResend, ?nakRetrain, ?timeout, ?early, ?credit⟩
  case taken =>
    intro s l p good hl hd hu hg hc ht hseq hs
    have h0 : (p.seq + 4096 - (s.chip.link l.1).expect) % 4096 = 0 := by omega
    refine exec_on hl hd rfl ((Chip.packetReceive_intact hu hg hc ht (.inl h0)).trans ?_)
    exact if_pos h0
  case bad => exact fun s l p good hl hd hu hb => exec_on hl hd rfl (Chip.packetReceive_bad hu hb)
  case nak =>
    intro x h
    exact if_neg (by simp [h])
  case nakSent => exact fun x h => if_pos h
  case ahead =>
    exact fun s l p good hl hd hu hlo hhi _ => exec_on hl hd rfl (Chip.packetReceive_ahead hu hlo hhi)
  case behind =>
    intro s l p good hl hd hu hg hc ht hlo hhi hs
    have h0 : ¬(p.seq + 4096 - (s.chip.link l.1).expect) % 4096 = 0 := by omega
    refine exec_on hl hd rfl ((Chip.packetReceive_intact hu hg hc ht (.inr (by omega))).trans ?_)
    exact if_neg h0
  case ack => exact fun s l n hl hd ha => exec_on hl hd rfl (if_pos ha)
  case ackNot => exact fun s l n hl hd ha => exec_on hl hd rfl (if_neg (by simp [ha]))
  case nakResend =>
    intro s l hl hd hr hu hn
    exact exec_on hl hd rfl ((Chip.resend_up hr hu).trans (if_neg (Nat.not_le.mpr hn)))
  case nakRetrain =>
    intro s l hl hd hr hu hn
    exact exec_on hl hd rfl ((Chip.resend_up hr hu).trans (if_pos hn))
  case timeout =>
    intro s l hl hd ht hr hu hn
    exact exec_on hl hd rfl ((if_pos ht).trans ((Chip.resend_up hr hu).trans (if_neg (Nat.not_le.mpr hn))))
  case early => exact fun s l hl hd ht => exec_on hl hd rfl (if_neg (Nat.not_le.mpr ht))
  case credit => exact fun s l vl n hl hd => exec_on hl hd rfl rfl

end Sys2Proof.Machine

/-! The links and the canvas, continued: training and lanes, routes, broadcasts, and the count's alignment
(spec/14_lintel_canvas.md, R376, R444 to R456). -/

namespace Sys2Proof.Machine

section

variable {s : State} {c t : Chip} {l : Nat}

/-! ### Training and lanes -/

/-- A failed training counts; the third in a row takes the link down. -/
theorem Chip.retrain_failed (h : c.fld F.lnklStat_STATE l = 1 ∨ c.fld F.lnklStat_STATE l = 3) (peer : Nat) :
    c.retrain l false peer =
      if (c.link l).fails + 1 < 3 then c.updLink l fun x => { x with fails := x.fails + 1 }
      else ((c.updLink l fun x => { x with fails := x.fails + 1 }).updLink l fun x => { x with fails := 0 }).linkDown l :=
  (if_neg (by omega)).trans (if_pos rfl)

/-! ### Routes -/

/-- An edge that was up fails: where no route changes, that is all. -/
theorem Chip.failEdge_kept {e : Nat} (hn : c.net.downs.contains e = false)
    (ht : c.updNet (fun n => { n with downs := n.downs ++ [e] }) = t)
    (hs : ((List.range (c.lnkW * c.lnkH)).all fun d => c.pathOf d == t.pathOf d) = true) : c.failEdge e = t := by
  subst ht
  have hd : ((List.range (c.lnkW * c.lnkH)).filter fun d =>
      c.pathOf d != (c.updNet fun n => { n with downs := n.downs ++ [e] }).pathOf d) = [] := by
    rw [List.filter_eq_nil_iff]
    intro d hd
    simpa using List.all_eq_true.mp hs d hd
  unfold Chip.failEdge
  rw [if_neg (by rw [hn]; exact Bool.false_ne_true)]
  simp only [hd, List.isEmpty_nil, if_true]

/-- Where routes change and the parent stays, the requests on the way hold back those to the packages moved. -/
theorem Chip.failEdge_moved {e d : Nat} {ds : List Nat} {u : Chip} (hn : c.net.downs.contains e = false)
    (ht : c.updNet (fun n => { n with downs := n.downs ++ [e] }) = t)
    (hd : ((List.range (c.lnkW * c.lnkH)).filter fun d => c.pathOf d != t.pathOf d) = d :: ds)
    (hu : ((t.updNet fun n => { n with moved := (n.moved ++ (d :: ds).filter fun d => n.reqs.any fun r => r.dst == d).eraseDups
      }).netStick F.lnkStat_REROUTE).setParent = u)
    (hp : u.fld F.lnkParent_CHIP = c.fld F.lnkParent_CHIP ∧ u.fld F.lnkParent_LINK = c.fld F.lnkParent_LINK ∧
      u.fld F.lnkParent_VALID = c.fld F.lnkParent_VALID) : c.failEdge e = u := by
  subst ht hu
  unfold Chip.failEdge
  rw [if_neg (by rw [hn]; exact Bool.false_ne_true)]
  simp only [hd, List.isEmpty_cons, Bool.false_eq_true, if_false]
  exact if_pos hp

/-- An edge already down stays as it is. -/
theorem Chip.routeNotice_none {k : Nat} (h : c.inCanvas k = false ∨ c.net.downs.contains (c.edgeOf k l) = true) :
    c.routeNotice k l = c := by
  unfold Chip.routeNotice
  split
  · next hi => exact if_pos (h.resolve_left (by simp [hi]))
  · rfl

/-! ### Broadcasts -/

/-- The command's access: a write to the broadcast package. -/
def bcastAccess (c : Chip) (m : Master) (a : BitVec 30) (n : Fin 5) (v : BitVec 128) : Access :=
  given m true (c.fld F.lnkBcast_BCCHIP * 2 ^ 30 + a.toNat) (2 ^ n.1) v.toNat false

/-- The package and the address within it of the command's access. -/
theorem bcastAccess_addr (c : Chip) (m : Master) (a : BitVec 30) (n : Fin 5) (v : BitVec 128) :
    (bcastAccess c m a n v).addr / 2 ^ 30 = c.fld F.lnkBcast_BCCHIP ∧ (bcastAccess c m a n v).addr % 2 ^ 30 = a.toNat := by
  simp only [bcastAccess, given]
  omega

/-- Where that is not this package, and nothing holds it back, it is a broadcast. -/
theorem exec_broadcast (hl : Live s) {m : Master} {a : BitVec 30} {n : Fin 5} {v : BitVec 128}
    (hf : Free s.chip (bcastAccess s.chip m a n v)) (he : s.chip.on F.lnkBcast_BCEN = true)
    (hc : s.chip.fld F.lnkBcast_BCCHIP ≠ s.chip.chipNo) :
    exec (.broadcast m a n v) s = .next (s.withChip (s.chip.bcastSend (bcastAccess s.chip m a n v))) := by
  refine exec_live (f := fun c => c.direct m true (c.fld F.lnkBcast_BCCHIP * 2 ^ 30 + a.toNat) (2 ^ n.1) v.toNat) hl rfl ?_
  have hdiv := (bcastAccess_addr s.chip m a n v).1
  refine (Chip.submit_free hf).trans ?_
  unfold Chip.route
  simp only [hdiv]
  rw [if_neg hc, if_pos ⟨he, trivial⟩]

/-- Outside a formed canvas a broadcast goes to this package alone, with BCSELF, and else nowhere. -/
theorem Chip.bcastSend_alone {x : Access} (hw : x.write = true) (hcan : (c.inCanvas c.chipNo && c.net.filled) = false) :
    c.bcastSend x =
      if c.on F.lnkBcast_BCSELF then
        { c.newReq x (x.addr / 2 ^ 30) 1 with
          issueQ := c.issueQ ++ [{ x with owner := .bcast c.net.nextTag, addr := c.chipNo * 2 ^ 30 + x.addr % 2 ^ 30 }] }
      else c.respond x .okay 0 := by
  have ho : ¬(c.inCanvas c.chipNo ∧ c.net.filled) := by simpa using hcan
  by_cases hs : c.on F.lnkBcast_BCSELF
  · simp [Chip.bcastSend, hw, ho, hs, b2n]
    rfl
  · simp [Chip.bcastSend, hw, ho, hs]

/-- In a formed canvas of more than one package, without BCSELF, it goes out on this package's links. -/
theorem Chip.bcastSend_formed {x : Access} (hw : x.write = true) (hcan : c.inCanvas c.chipNo = true)
    (hfill : c.net.filled = true) (hmany : 1 < c.lnkW * c.lnkH) (hs : c.on F.lnkBcast_BCSELF = false) :
    c.bcastSend x = (c.bcastLinks c.chipNo 4).foldl
      (fun t l => t.linkPush l (c.reqPacket x 4 c.net.nextTag (x.addr / 2 ^ 30) l))
      (c.newReq x (x.addr / 2 ^ 30) (c.lnkW * c.lnkH - 1)) := by
  have ho : c.lnkW * c.lnkH - 1 ≠ 0 := by omega
  simp [Chip.bcastSend, hw, hcan, hfill, hs, ho, b2n]

/-! ### The count's alignment -/

/-- A member that is formed adjusts by the mean of its measurements. -/
theorem Chip.tickAdjust_formed {n : Int} (hr : c.fld F.lnkCfg_ROLE = 1) (hf : c.on F.lnkStat_FORMED = true)
    (ha : c.net.adjAt = none) (hn : c.net.sum = some n) :
    c.tickAdjust =
      if 256 < n then
        { c.samplePads.updNet fun q => { q with adjAt := some c.now } with skipped := some ((c.now + 1) % 2 ^ 64) }.advance 2
      else if n < -256 ∨ (c.net.ahead ∧ n < 0) then c.samplePads.updNet fun q => { q with adjAt := some c.now }
      else c := by
  simp [Chip.tickAdjust, hr, hf, ha, hn]

/-- An exchange on an UP link of a canvas sends a packet, and is measured where no tick moved. -/
theorem Chip.talign_up {t1 t2 t3 t4 : Nat} {up : Bool} (hr : c.fld F.lnkCfg_ROLE ≠ 0) (hu : c.fld F.lnklStat_STATE l = 2)
    (adj : Bool) :
    c.talign l t1 t2 t3 t4 adj up =
      if adj then c.talignSend l else (c.talignSend l).measure l t1 t2 t3 t4 up :=
  if_neg (by simp [hr, hu])

/-- A measurement that is not the eighth, at a member's parent, is recorded. -/
theorem Chip.measure_few {t1 t2 t3 t4 : Nat} {up : Bool} (hr : c.fld F.lnkCfg_ROLE = 1) (hv : c.on F.lnkParent_VALID = true)
    (hp : c.fld F.lnkParent_LINK = l) (hn : c.net.thetas.length < 7) :
    c.measure l t1 t2 t3 t4 up =
      (c.setFld F.lnklDelay_DELAY l 0 (tc 32 ((diff64 t4 t1 - diff64 t3 t2) / 2))).updNet fun n =>
        { n with thetas := (diff64 t2 t1 - diff64 t4 t3 - sx 32 (c.fld F.lnklAsym_ASYM l)) :: n.thetas } := by
  have htake : ∀ th : Int, (th :: c.net.thetas).take 8 = th :: c.net.thetas := fun th =>
    List.take_of_length_le (by simp only [List.length_cons]; omega)
  have hsum : ∀ th : Int, ({ c.net with thetas := th :: c.net.thetas } : Net).sum = none := fun th =>
    if_neg (by simp only [List.length_cons]; omega)
  simp [Chip.measure, hr, hv, hp, Chip.updNet, htake, hsum]

end

/-- Settles O46: training by the link's state, a notice by the routes it moves, a broadcast by the canvas, alignment by the
role and the measurements. -/
theorem linkUpkeep : Obligations.LinkUpkeep := by
  unfold Obligations.LinkUpkeep
  refine ⟨?fails, ?down, ?retrained, ?trained, ?noSpare, ?spare, ?noRoute, ?sameRoutes, ?moved, ?timeout, ?noTimeout,
    ?bcastNone, ?bcastSelf, ?bcastAll, ?noTalign, ?talignAdj, ?talignRoot, ?talignMember, ?forward, ?withhold, ?near,
    ?noAdjust, ?join, ?joinAhead, ?noJoin⟩
  case fails =>
    intro s l good peer hl hd hu hg hf
    subst hg
    exact exec_on hl hd rfl ((Chip.retrain_failed hu _).trans (if_pos hf))
  case down =>
    intro s l good peer hl hd hu hg hf
    subst hg
    exact exec_on hl hd rfl ((Chip.retrain_failed hu _).trans (if_neg (Nat.not_lt.mpr hf)))
  case retrained =>
    intro s l good peer hl hd hu hg
    subst hg
    refine exec_on hl hd rfl ?_
    simp [Chip.retrain, hu]
  case trained =>
    intro s l good peer t hl hd hu hg hp ht
    subst hg ht
    refine exec_on hl hd rfl ?_
    simp [Chip.retrain, hu, hp]
  case noSpare =>
    intro s l p hl hd h
    refine exec_on hl hd rfl (if_pos ?_)
    rcases h with h | h | h
    · exact .inl h
    · exact .inr (.inl (by simp [h]))
    · exact .inr (.inr (by simp [h]))
  case spare =>
    intro s l p j q js qs u t hl hd hu hb he hjs hqs hu' ht
    subst hu' ht
    refine exec_on hl hd rfl ((if_neg (by simp [hu, hb, he])).trans ?_)
    dsimp only
    rw [hjs, hqs]
  case noRoute =>
    intro s k l hl h
    exact exec_live hl rfl (Chip.routeNotice_none h)
  case sameRoutes =>
    intro s k l t hl hi hn ht hs
    exact exec_live hl rfl ((if_pos hi).trans (Chip.failEdge_kept hn ht hs))
  case moved =>
    intro s k l t u d ds hl hi hn ht hd hu hc hk hv
    exact exec_live hl rfl ((if_pos hi).trans (Chip.failEdge_moved hn ht hd hu ⟨hc, hk, hv⟩))
  case timeout =>
    intro s tag r hl hr ht
    refine exec_live (f := fun c => c.reqTimeout tag.toNat) hl rfl ?_
    simp only [Chip.reqTimeout, hr, Nat.not_lt.mpr ht, if_false]
  case noTimeout =>
    intro s tag hl hr
    refine exec_live (f := fun c => c.reqTimeout tag.toNat) hl rfl ?_
    simp only [Chip.reqTimeout, hr]
  case bcastNone =>
    intro s m a n v hl hf he hc hcan hself
    rw [exec_broadcast hl hf he hc, Chip.bcastSend_alone rfl hcan, hself]
    rfl
  case bcastSelf =>
    intro s m a n v x hl hf he hc hcan hself hx
    subst hx
    obtain ⟨hdiv, hmod⟩ := bcastAccess_addr s.chip m a n v
    rw [exec_broadcast hl hf he hc, Chip.bcastSend_alone rfl hcan, if_pos hself, hdiv, hmod]
    rfl
  case bcastAll =>
    intro s m a n v x hl hf he hc hcan hfill hmany hself hx
    subst hx
    rw [exec_broadcast hl hf he hc, Chip.bcastSend_formed rfl hcan hfill hmany hself, (bcastAccess_addr ..).1]
    rfl
  case noTalign =>
    intro s l t1 t2 t3 t4 adj up hl hd h
    exact exec_on hl hd rfl (if_pos h)
  case talignAdj =>
    intro s l t1 t2 t3 t4 adj up hl hd ha hr hu
    subst ha
    exact exec_on hl hd rfl (Chip.talign_up hr hu true)
  case talignRoot =>
    intro s l t1 t2 t3 t4 adj up t hl hd ha hr hu ht hrole
    subst ha ht
    refine exec_on hl hd rfl ((Chip.talign_up hr hu false).trans ?_)
    simp [Chip.measure, hrole]
  case talignMember =>
    intro s l t1 t2 t3 t4 adj up t hl hd ha hr hu ht hrole hv hp hn
    subst ha ht
    exact exec_on hl hd rfl ((Chip.talign_up hr hu false).trans (Chip.measure_few hrole hv hp hn))
  case forward =>
    intro s n hl hr hf ha hn hlt
    exact exec_live hl rfl ((Chip.tickAdjust_formed hr hf ha hn).trans (if_pos hlt))
  case withhold =>
    intro s n hl hr hf ha hn hlt
    exact exec_live hl rfl ((Chip.tickAdjust_formed hr hf ha hn).trans ((if_neg (by omega)).trans (if_pos (.inl hlt))))
  case near =>
    intro s n hl hr hf ha hn hlo hhi hah
    refine exec_live hl rfl ((Chip.tickAdjust_formed hr hf ha hn).trans ((if_neg (by omega)).trans (if_neg ?_)))
    simp [hah, hlo]
  case noAdjust =>
    intro s hl h
    refine exec_live (f := Chip.tickAdjust) hl rfl ?_
    rcases h with h | h <;> simp [Chip.tickAdjust, h]
  case join =>
    intro s n hl hr hf hn
    refine exec_live (f := fun c => c.lateJoin n.toNat) hl rfl ((if_neg (by simp [hr, hf])).trans ?_)
    simp [hn]
  case joinAhead =>
    intro s n hl hr hf hn
    refine exec_live (f := fun c => c.lateJoin n.toNat) hl rfl ((if_neg (by simp [hr, hf])).trans ?_)
    simp [hn]
  case noJoin =>
    intro s n hl h
    exact exec_live (f := fun c => c.lateJoin n.toNat) hl rfl (if_pos h)

end Sys2Proof.Machine

/-! Interrupt sources and claims (spec/10_anvil_system.md, R324 to R330), and the mailboxes (R335 to R343). -/

namespace Sys2Proof.Machine

/-! ### Interrupt sources -/

section

variable {c : Chip} {m : Master} {n k : Nat}

/-- A source not pending, and not 0, becomes pending. -/
theorem Chip.raiseSource_new (hn : n ≠ 0) (hlt : n < 512) (hp : c.pending n = false) :
    c.raiseSource n =
      (c.setFld F.intcPend_PEND (n / 32) 0 (c.fld F.intcPend_PEND (n / 32) + 2 ^ (n % 32))).settle :=
  if_neg (by simp [hn, Nat.not_le.mpr hlt, hp])

/-- A pending source stays as it is. -/
theorem Chip.raiseSource_pending (hp : c.pending n = true) : c.raiseSource n = c := if_pos (.inr (.inr hp))

theorem Chip.writeReg_intcSwset (i j v : Nat) :
    c.writeReg m .intcSwset i j v = if v % 512 = 0 then c else c.raiseSource (v % 512) := rfl

/-- A read of CLAIM answers the claim's word, makes the claim, and clears what a read clears. -/
theorem Chip.readReg_intcClaim (j : Nat) :
    c.readReg m .intcClaim k j =
      (c.claimWord k, ((c.claim k).setFld F.intcClaim_PREV k j 0).setFld F.intcClaim_SRC k j 0) := rfl

/-- A woken core's domain is up: it waits, where it is asleep still. -/
theorem Chip.coreWakeDone_waking (hw : (c.core k).waking = true) (hs : c.fld F.psmStat_STATE ≤ 1) :
    c.coreWakeDone k =
      if c.coreState k = 4 then ((c.setDom (c.physOf 0 k) true).enterWaiting k).leaveIdle
      else ((c.setDom (c.physOf 0 k) true).updCore k fun x => { x with waking := false }).leaveIdle := if_pos ⟨hw, hs⟩

end

/-- Settles O47: a source by its pending bit, a claim by what is assigned, a sleeper's wake by its mark and state. -/
theorem interruptSources : Obligations.InterruptSources := by
  unfold Obligations.InterruptSources
  refine ⟨?edge, ?edgeNot, ?swset, ?swsetNot, ?claim, ?claimNone, ?wake, ?wakeHalted, ?wakeNot⟩
  case edge =>
    intro s n hl hd hn hp
    exact exec_on hl hd rfl ((if_neg hn).trans (Chip.raiseSource_new hn n.isLt hp))
  case edgeNot =>
    intro s n hl hd h
    refine exec_on (f := fun c => if n.1 = 0 then c else c.raiseSource n.1) hl hd rfl ?_
    rcases h with h | h
    · exact if_pos h
    · exact (congrArg (fun t => if n.1 = 0 then s.chip else t) (Chip.raiseSource_pending h)).trans (ite_self _)
  case swset =>
    intro s m n hl hs hn hp
    have h0 : n.toNat ≠ 0 := fun h => hn (BitVec.eq_of_toNat_eq h)
    have hm : n.toNat % 512 = n.toNat := Nat.mod_eq_of_lt n.isLt
    refine exec_write hl hs rfl (by decide) (by omega) ?_
    rw [Chip.writeReg_intcSwset, hm, if_neg h0, Chip.raiseSource_new h0 n.isLt hp]
  case swsetNot =>
    intro s m n hl hs h
    have hm : n.toNat % 512 = n.toNat := Nat.mod_eq_of_lt n.isLt
    refine exec_write hl hs rfl (by decide) (by omega) ?_
    rw [Chip.writeReg_intcSwset, hm]
    rcases h with h | h
    · exact if_pos (by simp [h])
    · rw [Chip.raiseSource_pending h, ite_self]
  case claim =>
    intro s m k n hl hs hn h0
    refine exec_read hl hs rfl ?_
    rw [Chip.readReg_intcClaim, Chip.claimWord, Chip.claim]
    simp only [hn, h0, if_false]
  case claimNone =>
    intro s m k hl hs hn
    refine exec_read hl hs rfl ?_
    rw [Chip.readReg_intcClaim, Chip.claimWord, Chip.claim]
    simp only [hn, if_true]
  case wake =>
    intro s k hl hst hw hp
    exact exec_live (f := fun c => c.coreWakeDone k.1) hl rfl ((Chip.coreWakeDone_waking hw hp).trans (if_pos hst))
  case wakeHalted =>
    intro s k hl hst hw hp
    exact exec_live (f := fun c => c.coreWakeDone k.1) hl rfl ((Chip.coreWakeDone_waking hw hp).trans (if_neg hst))
  case wakeNot =>
    intro s k hl h
    refine exec_live (f := fun c => c.coreWakeDone k.1) hl rfl (if_neg ?_)
    rintro ⟨hw, hp⟩
    rcases h with h | h
    · exact absurd (h.symm.trans hw) (by decide)
    · omega

/-! ### Mailboxes -/

section

variable {c : Chip} {m : Master} {id ch : Nat}

/-- Without a core's operation in the way, a command is its own step. -/
theorem Chip.mailbox_free (h : (if id < 8 then (c.core id).msgs.head? else none) = none) :
    c.mailboxSend id ch = c.sendStep id ch (c.txWords id) ∧ c.mailboxRecv id ch = c.recvStep id ch := by
  simp only [Chip.mailboxSend, Chip.mailboxRecv, h, and_self]

/-- A core's operation goes first. -/
theorem Chip.mailbox_waiting {o : MsgOp} (hid : id < 8) (h : (c.core id).msgs.head? = some o) :
    c.mailboxSend id ch = (if o.recv then c else c.msgPerform id o) ∧
      c.mailboxRecv id ch = (if o.recv then c.msgPerform id o else c) := by
  simp only [Chip.mailboxSend, Chip.mailboxRecv, hid, if_true, h, and_self]

theorem Chip.writeReg_mbxChCfg (i j v : Nat) : c.writeReg m .mbxChCfg i j v = c.writeChCfg i v := rfl

end

/-- Settles O48: SEND and RECV by their code, a channel's CFG by its messages, a timeout by its oldest. -/
theorem mailboxes : Obligations.Mailboxes := by
  unfold Obligations.Mailboxes
  refine ⟨?send, ?sendFull, ?sendDenied, ?recv, ?recvEmpty, ?recvDenied, ?coreSend, ?coreRecv, ?cfg, ?cfgRej, ?tmo, ?tmoNot⟩
  case send =>
    intro s id ch t hl hd hf hc ht h
    refine exec_on hl hd rfl ((Chip.mailbox_free hf).1.trans ?_)
    simp [Chip.sendStep, hc, ht, h]
  case sendFull =>
    intro s id ch hl hd hf hc
    refine exec_on hl hd rfl ((Chip.mailbox_free hf).1.trans ?_)
    simp only [Chip.sendStep, hc]
    rfl
  case sendDenied =>
    intro s id ch hl hd hf hc
    refine exec_on hl hd rfl ((Chip.mailbox_free hf).1.trans ?_)
    simp [Chip.sendStep, hc]
  case recv =>
    intro s id ch q rest t hl hd hf hc hq ht
    refine exec_on hl hd rfl ((Chip.mailbox_free hf).2.trans ?_)
    simp [Chip.recvStep, hc, hq, ht]
  case recvEmpty =>
    intro s id ch hl hd hf hc
    refine exec_on hl hd rfl ((Chip.mailbox_free hf).2.trans ?_)
    simp [Chip.recvStep, hc]
  case recvDenied =>
    intro s id ch hl hd hf hc
    refine exec_on hl hd rfl ((Chip.mailbox_free hf).2.trans ?_)
    simp [Chip.recvStep, hc]
  case coreSend =>
    intro s id ch o hl hd hid ho hr
    refine exec_on hl hd rfl ((Chip.mailbox_waiting hid ho).1.trans ?_)
    simp [Chip.msgPerform, hr]
  case coreRecv =>
    intro s id ch o hl hd hid ho hr
    refine exec_on hl hd rfl ((Chip.mailbox_waiting hid ho).2.trans ?_)
    simp [Chip.msgPerform, hr]
  case cfg =>
    intro s m ch v hl hs hq hr hch
    refine exec_write hl hs rfl (by decide) v.isLt ?_
    rw [Chip.writeReg_mbxChCfg, Chip.writeChCfg, if_neg (by omega)]
    simp [hq, hr, Nat.not_lt.mpr hch]
  case cfgRej =>
    intro s m ch v hl hs h
    refine exec_write hl hs rfl (by decide) v.isLt ?_
    rw [Chip.writeReg_mbxChCfg, Chip.writeChCfg, if_neg (by omega)]
    rcases h with h | h <;> simp [h]
  case tmo =>
    intro s ch q rest hl hq h0 ht
    refine exec_live (f := fun c => c.mbxTimeout ch.1) hl rfl ?_
    simp only [Chip.mbxTimeout, hq]
    exact if_pos ⟨h0, ht⟩
  case tmoNot =>
    intro s ch hl h
    refine exec_live (f := fun c => c.mbxTimeout ch.1) hl rfl ?_
    unfold Chip.mbxTimeout
    split
    · next hq => exact if_neg fun x => h.elim x.1 (by simp [hq])
    · rfl

end Sys2Proof.Machine

/-! The pins (spec/13_pins_sequencers.md, R411 to R421): functions, latches, locks, park, the banks' supplies and edges. -/

namespace Sys2Proof.Machine

section

variable {c : Chip} {m : Master} {p b v k : Nat}

/-! ### Functions and latches -/

theorem Chip.writeReg_pinCfg (j : Nat) : c.writeReg m .pinCfg p j v = c.writePinCfg p v := rfl

/-- The latches' registers take what is written, which has 32 bits, by OR, AND NOT and XOR. -/
theorem Chip.writeReg_latches (j : Nat) (hv : v < 2 ^ 32) :
    c.writeReg m .pinSet b j v = c.setFld F.pinData_DATA b 0 (Nat.lor (c.fld F.pinData_DATA b) v) ∧
      c.writeReg m .pinClr b j v =
        c.setFld F.pinData_DATA b 0 (c.fld F.pinData_DATA b - Nat.land (c.fld F.pinData_DATA b) v) ∧
      c.writeReg m .pinTgl b j v = c.setFld F.pinData_DATA b 0 (Nat.xor (c.fld F.pinData_DATA b) v) := by
  have hm : v % 2 ^ 32 = v := Nat.mod_eq_of_lt hv
  refine ⟨?_, ?_, ?_⟩
  · exact congrArg (fun w => c.setFld F.pinData_DATA b 0 (Nat.lor (c.fld F.pinData_DATA b) w)) hm
  · exact congrArg (fun w => c.setFld F.pinData_DATA b 0 (c.fld F.pinData_DATA b - Nat.land (c.fld F.pinData_DATA b) w)) hm
  · exact congrArg (fun w => c.setFld F.pinData_DATA b 0 (Nat.xor (c.fld F.pinData_DATA b) w)) hm

/-! ### Locks -/

theorem Chip.writeReg_pinLockkey (i j : Nat) : c.writeReg m .pinLockkey i j v = c.lockKey m v := rfl

/-! ### Supplies and edges -/

/-- The supplies and the pins' outside act whatever power-on reset holds. -/
theorem exec_always {i : Instr} {s : State} {f : Chip → Chip} {t : Chip} (he : exec i s = s.always f) (ht : f s.chip = t) :
    exec i s = .next (s.withChip t) := by
  subst ht
  exact he

/-- A supply put to v, its bank powered, is judged against VSEL. -/
theorem exec_vioChange {s : State} {b : Fin 32} {v : Fin 3} (hd : s.chip.domOn (51 + b.1 / 8) = true) :
    exec (.vioChange b v) s = .next (s.withChip ({ s.chip with vio := NStore.set s.chip.vio b.1 v.1 }.vioCheck b.1)) :=
  exec_always (f := fun c => if c.domOn (51 + b.1 / 8) then c.vioChange b.1 v.1
    else { c with vio := NStore.set c.vio b.1 v.1 }) rfl (if_pos hd)

theorem Chip.vioCheck_ok (h : NStore.get 0 c.vio b = c.fld F.pinBank_VSEL b + 1) :
    c.vioCheck b = c.setFld F.pinBank_VIO_OK b 0 1 := by
  simp [Chip.vioCheck, h, Chip.setOn, b2n]

theorem Chip.vioCheck_wrong (h : NStore.get 0 c.vio b ≠ c.fld F.pinBank_VSEL b + 1) :
    c.vioCheck b = (c.setFld F.pinBank_VIO_OK b 0 0).stick F.pinBank_VIO_ERR b 375 := by
  simp [Chip.vioCheck, h, Chip.setOn, b2n]

/-- A detector that is off, is another port's, or has no edge does nothing. -/
theorem Chip.detect_none (level : Option Bool) (h : c.on F.pinEv_EN k = false ∨ c.fld F.pinEv_PORT k ≠ p ∨
    c.edgeAt p (c.fld F.pinEv_FILT k) = none) : c.detect k p level = c := by
  unfold Chip.detect
  split
  · next hi =>
    simp only [Bool.and_eq_true, beq_iff_eq] at hi
    obtain ⟨⟨⟨hen, hport⟩, -⟩, -⟩ := hi
    have he : c.edgeAt p (c.fld F.pinEv_FILT k) = none :=
      (h.resolve_left (by simp [hen])).resolve_left (by simp [hport])
    rw [he]
  · rfl

end

/-- Settles O49: a port's CFG by its lock, the latches by the word, a lock sequence by its step, park, supplies and edges
by their conditions. -/
theorem pinLatchesAndLocks : Obligations.PinLatchesAndLocks := by
  unfold Obligations.PinLatchesAndLocks
  refine ⟨?locked, ?func, ?note, ?set, ?clr, ?tgl, ?lockBegins, ?lockGoes, ?lockEnds, ?lockWrong, ?park, ?unpark, ?parked,
    ?vioOk, ?vioErr, ?wake, ?wakeNot, ?drive, ?letGo, ?detects, ?detectNot⟩
  case locked => exact fun s m p v hl hs hk => exec_write hl hs rfl (by decide) v.isLt (if_pos hk)
  case func =>
    intro s m p v t u x hl hs hk ho ht hu hx hn
    refine exec_write hl hs rfl (by decide) v.isLt ?_
    subst ht hu hx
    rw [Chip.writeReg_pinCfg, Chip.writePinCfg, if_neg (by simp [hk])]
    simp only [ho, hn, if_true, if_false]
  case note => exact fun c p old h => if_neg (by simp [h])
  case set => exact fun s m b v hl hs => exec_write hl hs rfl (by decide) v.isLt (Chip.writeReg_latches 0 v.isLt).1
  case clr => exact fun s m b v hl hs => exec_write hl hs rfl (by decide) v.isLt (Chip.writeReg_latches 0 v.isLt).2.1
  case tgl => exact fun s m b v hl hs => exec_write hl hs rfl (by decide) v.isLt (Chip.writeReg_latches 0 v.isLt).2.2
  case lockBegins =>
    intro s m v hl hs hq hk
    refine exec_write hl hs rfl (by decide) v.isLt ?_
    rw [Chip.writeReg_pinLockkey]
    simp [Chip.lockKey, hq, hk]
  case lockGoes =>
    intro s m v q hl hs hq hst hm hp hk
    refine exec_write hl hs rfl (by decide) v.isLt ?_
    rw [Chip.writeReg_pinLockkey]
    simp [Chip.lockKey, hq, hst, hm, hp, hk]
  case lockEnds =>
    intro s m v q hl hs hq hst hm hp hk hn
    refine exec_write hl hs rfl (by decide) v.isLt ?_
    rw [Chip.writeReg_pinLockkey]
    simp [Chip.lockKey, hq, hst, hm, hp, hk, hn]
  case lockWrong =>
    intro s m v q hl hs hq hst hk hk'
    refine exec_write hl hs rfl (by decide) v.isLt ?_
    rw [Chip.writeReg_pinLockkey]
    simp [Chip.lockKey, hq, hst, hk, hk']
  case park => exact fun s m hl hs => exec_write hl hs rfl (by decide) (by decide) rfl
  case unpark => exact fun s m hl hs => exec_write hl hs rfl (by decide) (by decide) rfl
  case parked => exact fun s p h => if_neg (by simp [Chip.bankFree, h])
  case vioOk =>
    intro s b v hd hv
    rw [exec_vioChange hd, Chip.vioCheck_ok]
    exact (NStore.get_set_self ..).trans hv.symm
  case vioErr =>
    intro s b v hd hv
    rw [exec_vioChange hd, Chip.vioCheck_wrong]
    exact fun h => hv (h.symm.trans (NStore.get_set_self ..))
  case wake =>
    intro s p rising hl hw hpol he hst
    refine exec_live (f := fun c => c.wakeEdge p.1 rising) hl rfl ((if_pos (by simp [hw, hpol, he])).trans (if_pos ?_))
    rw [hst]
    omega
  case wakeNot =>
    intro s p rising hl hw
    exact exec_live (f := fun c => c.wakeEdge p.1 rising) hl rfl (if_neg (by simp [hw]))
  case drive => exact fun s p v => exec_always (f := fun c => c.pinEdge p.1 (some v) none) rfl rfl
  case letGo => exact fun s p => exec_always (f := fun c => c.pinEdge p.1 none none) rfl rfl
  case detects =>
    intro s k p e hp hen hd hat hedge hsel
    refine exec_always (f := fun c => c.pinEdge p.1 (some e.2) (some k)) rfl ?_
    simp [Chip.pinEdge, Chip.detect, hp, hen, hd, hat, hedge, hsel]
  case detectNot =>
    intro s p v k h
    exact exec_always (f := fun c => c.pinEdge p.1 v (some k)) rfl (Chip.detect_none v h)

end Sys2Proof.Machine

/-! The serial peripherals (spec/13_pins_sequencers.md, R422, R423): the FIFOs, the UARTs, and the frames of SPI and I2C as
masters and as targets. -/

namespace Sys2Proof.Machine

section

variable {c : Chip} {m : Master} {x u i v : Nat}

/-! ### FIFOs -/

theorem serialDataReg_block (x : Nat) : (serialDataReg x).1.block ≠ .aud := by
  unfold serialDataReg
  split_ifs
  · exact (by decide : RegId.uartData.block ≠ .aud)
  · exact (by decide : RegId.spiData.block ≠ .aud)
  · exact (by decide : RegId.i2cData.block ≠ .aud)

/-- A write to a peripheral's DATA puts a word into its TX FIFO. -/
theorem Chip.writeReg_serialData (c : Chip) (m : Master) (v : Nat) :
    c.writeReg m (serialDataReg x).1 (serialDataReg x).2 0 v = c.serialPush x v := by
  unfold serialDataReg
  split
  · rfl
  · split
    · exact congrArg (c.serialPush · v) (by dsimp only; omega)
    · exact congrArg (c.serialPush · v) (by dsimp only; omega)

/-- A read of it answers the oldest RX word and removes it. -/
theorem Chip.readReg_serialData (c : Chip) (m : Master) :
    c.readReg m (serialDataReg x).1 (serialDataReg x).2 0 = (c.serialHead x, c.serialPop x) := by
  unfold serialDataReg
  split
  · rfl
  · split
    · exact congrArg (fun y => (c.serialHead y, c.serialPop y)) (by dsimp only; omega)
    · exact congrArg (fun y => (c.serialHead y, c.serialPop y)) (by dsimp only; omega)

/-! ### UART -/

/-- A UART that is on, idle and has a word sends it unless CTS holds it. -/
theorem Chip.uartSend_ready {w : Nat} {rest : List Nat} (he : c.on F.uartCfg_EN u = true) (ht : (c.serial u).tx = w :: rest)
    (hf : c.frameOn u = false) (hr : c.on F.uartCfg_RTSCTS u = false) :
    c.uartSend u = c.updSerial u fun e => { e with
      tx := rest, wire := c.uartBits u w, at_ := c.now, len := (c.uartBits u w).length * c.fld F.uartDiv_DIV u } := by
  simp [Chip.uartSend, ht, he, hf, hr]

/-- One that CTS holds only reads its pin. -/
theorem Chip.uartSend_held {t : Chip} (he : c.on F.uartCfg_EN u = true) (ht : (c.serial u).tx ≠ [])
    (hf : c.frameOn u = false) (hr : c.on F.uartCfg_RTSCTS u = true) (hp : c.pinLevel (768 + 4 * u + 3) = (true, t)) :
    c.uartSend u = t := by
  obtain ⟨w, rest, hw⟩ := List.exists_cons_of_ne_nil ht
  simp [Chip.uartSend, hw, he, hf, hr, hp]

/-- A word received with room enters the RX FIFO. -/
theorem Chip.serialRecv_room (h : (c.serial x).rx.length < 8) (v : Nat) :
    c.serialRecv x v = c.updSerial x fun e => { e with rx := e.rx ++ [v] } := if_neg (Nat.not_le.mpr h)

/-! ### SPI and I2C -/

/-- A frame of a target that is on, by its TX FIFO; the word taken in has the configured width. -/
theorem Chip.spiFrame_target {n w : Nat} (he : c.on F.spiCfg_EN i = true) (ht : c.on F.spiCfg_TARGET i = true)
    (hn : 8 * 2 ^ c.fld F.spiCfg_WIDTH i = n) :
    (∀ o rest, (c.serial (16 + i)).tx = o :: rest → c.spiFrame i w = (c.updSerial (16 + i) fun e =>
      { e with tx := rest, wire := c.spiBits i o }).serialRecv (16 + i) (w % 2 ^ n)) ∧
    ((c.serial (16 + i)).tx = [] → c.spiFrame i w = ((c.setFld F.spiStat_UNDER i 0 1).updSerial (16 + i) fun e =>
      { e with wire := c.spiBits i (2 ^ n - 1) }).serialRecv (16 + i) (w % 2 ^ n)) := by
  subst hn
  constructor
  · intro o rest hx
    simp [Chip.spiFrame, he, ht, hx]
  · intro hx
    simp [Chip.spiFrame, he, ht, hx]

/-- A frame of an idle master that is on and has a word. -/
theorem Chip.spiFrame_master {n w o : Nat} {rest : List Nat} (he : c.on F.spiCfg_EN i = true)
    (ht : c.on F.spiCfg_TARGET i = false) (hf : c.frameOn (16 + i) = false) (hn : 8 * 2 ^ c.fld F.spiCfg_WIDTH i = n)
    (hx : (c.serial (16 + i)).tx = o :: rest) :
    c.spiFrame i w = (c.updSerial (16 + i) fun e => { e with
      tx := rest, wire := c.spiBits i o, at_ := c.now, len := 512 * n * c.fld F.spiDiv_HALF i, cs := true
      }).serialRecv (16 + i) (w % 2 ^ n) := by
  subst hn
  simp [Chip.spiFrame, he, ht, hx, hf]

/-- An I2C master's step, and a target's event. -/
theorem Chip.i2cByte_master (he : c.on F.i2cCfg_EN i = true) (ht : c.on F.i2cCfg_TARGET i = false) (ack arb : Bool)
    (b : BitVec 8) : c.i2cByte i (.master ack arb b) = c.i2cStep i ack arb b.toNat := by
  simp [Chip.i2cByte, he, ht]

end

/-- Settles O50: a word by the FIFO's room, a frame by the peripheral's role and FIFO. -/
theorem serialPeripherals : Obligations.SerialPeripherals := by
  unfold Obligations.SerialPeripherals
  refine ⟨?push, ?pushFull, ?pop, ?uart, ?uartBits, ?uartHeld, ?uartIn, ?uartOff, ?spi, ?spiTarget, ?spiUnder, ?spiOrder,
    ?i2cWrite, ?i2cNack, ?i2cRead, ?i2cLost, ?i2cMine, ?i2cOther, ?i2cWritten, ?i2cUnder, ?i2cOut, ?i2cStop⟩
  case push =>
    intro s m x v hl hs hx
    refine exec_write hl hs rfl (serialDataReg_block _) v.isLt ?_
    rw [Chip.writeReg_serialData, Chip.serialPush, if_neg (Nat.not_le.mpr hx), Nat.mod_eq_of_lt v.isLt]
  case pushFull =>
    intro s m x v hl hs hx
    refine exec_write hl hs rfl (serialDataReg_block _) v.isLt ?_
    rw [Chip.writeReg_serialData, Chip.serialPush, if_pos hx]
    rfl
  case pop =>
    intro s m x hl hs
    exact exec_read hl hs rfl (Chip.readReg_serialData ..)
  case uart =>
    intro s u w rest l hl hd he ht hf hr hb
    subst hb
    exact exec_on hl hd rfl (congrArg Chip.dmaLevels (Chip.uartSend_ready he ht hf hr))
  case uartBits =>
    intro c u w h7 hp h2
    simp [Chip.uartBits, h7, hp, h2]
  case uartHeld =>
    intro s u t hl hd he ht hf hr hp
    exact exec_on hl hd rfl (congrArg Chip.dmaLevels (Chip.uartSend_held he ht hf hr hp))
  case uartIn =>
    intro s u b hl hd he h7 hroom
    refine exec_on hl hd rfl (congrArg Chip.dmaLevels ((if_pos he).trans ?_))
    have hb : b.toNat % 256 = b.toNat := Nat.mod_eq_of_lt b.isLt
    simp only [h7, if_true, Bool.false_eq_true, if_false, hb]
    exact Chip.serialRecv_room hroom _
  case uartOff =>
    intro s u b hl hd he
    exact exec_on hl hd rfl (congrArg Chip.dmaLevels (if_neg (by simp [he])))
  case spi =>
    intro s q w o n rest hl hd he ht hf hn hx
    exact exec_on hl hd rfl (congrArg Chip.dmaLevels (Chip.spiFrame_master he ht hf hn hx))
  case spiTarget =>
    intro s q w o n rest hl hd he ht hn hx
    exact exec_on hl hd rfl (congrArg Chip.dmaLevels ((Chip.spiFrame_target he ht hn).1 o rest hx))
  case spiUnder =>
    intro s q w n hl hd he hn hx ht
    exact exec_on hl hd rfl (congrArg Chip.dmaLevels ((Chip.spiFrame_target he ht hn).2 hx))
  case spiOrder => exact fun c q w => rfl
  case i2cWrite =>
    intro s i b w rest hl hd he ht hx hr
    refine exec_on hl hd rfl (congrArg Chip.dmaLevels ((Chip.i2cByte_master he ht _ _ _).trans ?_))
    simp [Chip.i2cStep, hx, hr]
  case i2cNack =>
    intro s i b w rest hl hd he ht hx hr
    refine exec_on hl hd rfl (congrArg Chip.dmaLevels ((Chip.i2cByte_master he ht _ _ _).trans ?_))
    simp [Chip.i2cStep, hx, hr]
  case i2cRead =>
    intro s i b ack w rest hl hd he ht hx hr
    refine exec_on hl hd rfl (congrArg Chip.dmaLevels ((Chip.i2cByte_master he ht _ _ _).trans ?_))
    simp [Chip.i2cStep, hx, hr]
  case i2cLost =>
    intro s i b ack w rest hl hd he ht hx
    refine exec_on hl hd rfl (congrArg Chip.dmaLevels ((Chip.i2cByte_master he ht _ _ _).trans ?_))
    simp [Chip.i2cStep, hx]
  case i2cMine =>
    intro s i b hl hd he ht ha
    refine exec_on hl hd rfl (congrArg Chip.dmaLevels ?_)
    simp [Chip.i2cByte, he, ht, ha]
  case i2cOther =>
    intro s i b hl hd he ht ha
    refine exec_on hl hd rfl (congrArg Chip.dmaLevels ?_)
    simp [Chip.i2cByte, he, ht, ha]
  case i2cWritten =>
    intro s i b hl hd he ht hsel
    refine exec_on hl hd rfl (congrArg Chip.dmaLevels ?_)
    simp [Chip.i2cByte, he, ht, hsel]
  case i2cUnder =>
    intro s i hl hd he ht hsel hx
    refine exec_on hl hd rfl (congrArg Chip.dmaLevels ?_)
    simp [Chip.i2cByte, he, ht, hsel, hx]
  case i2cOut =>
    intro s i w rest hl hd he ht hsel hx
    refine exec_on hl hd rfl (congrArg Chip.dmaLevels ?_)
    simp [Chip.i2cByte, he, ht, hsel, hx]
  case i2cStop =>
    intro s i hl hd he ht
    refine exec_on hl hd rfl (congrArg Chip.dmaLevels ?_)
    simp [Chip.i2cByte, he, ht]

end Sys2Proof.Machine

/-! The sequencers (spec/13_pins_sequencers.md, R426 to R436): an instruction of a running one, the end of a wait, and the
commands. -/

namespace Sys2Proof.Machine

/-! ### Instructions and waits -/

section

variable {s : State} {c t : Chip} {i : Instr} {q op w b v : Nat} {k : Nat → Chip → Chip} {f : Chip → Chip} {x : PsqWait}

/-- A change of a sequencer's inner state is the change of its TR. -/
@[simp] theorem Chip.psq_updPsq_tr (c : Chip) (q : Nat) (f : Psq → Psq) : ((c.updPsq q f).psq q).tr = (f (c.psq q)).tr := by
  simp [Chip.updPsq, Chip.psq]

/-- The instruction before a running sequencer is executed. -/
theorem Chip.psqRow_runs (h : SeqRuns c q op w) (k : Nat → Chip → Chip) : c.psqRow q op k = k w c := by
  obtain ⟨hd, hst, hw, hop, hr⟩ := h
  subst hw
  exact (Chip.whenOn_on hd _).trans (if_pos ⟨hst, hop, by simp [hr]⟩)

/-- A command that is an instruction's execution. -/
theorem exec_seq (hl : Live s) (h : SeqRuns s.chip q op w) (he : exec i s = s.act fun c => c.psqRow q op k)
    (ht : k w s.chip = t) : exec i s = .next (s.withChip t) :=
  exec_live hl he ((Chip.psqRow_runs h k).trans ht)

/-- The same where the DMA levels are looked at again. -/
theorem exec_seqDma (hl : Live s) (h : SeqRuns s.chip q op w)
    (he : exec i s = s.act fun c => (c.psqRow q op k).dmaLevels) (ht : k w s.chip = t) :
    exec i s = .next (s.withChip t.dmaLevels) :=
  exec_live hl he (congrArg Chip.dmaLevels ((Chip.psqRow_runs h k).trans ht))

/-- A command of a sequencer whose unit's domain is on. -/
theorem exec_whenSeq (hl : Live s) (hd : s.chip.domOn (55 + s.chip.physOf 5 q / 17) = true)
    (he : exec i s = s.act fun c => c.whenSeq q f) (ht : f s.chip = t) : exec i s = .next (s.withChip t) :=
  exec_live hl he ((Chip.whenOn_on hd f).trans ht)

/-- A wait on a level or on TR ends once its condition holds. -/
theorem Chip.psqAwaitEnd_level (h : SeqWaits c q w (.await b)) (hk : bits w 26 24 < 3) (rising : Bool) (off : Nat) :
    c.psqAwaitEnd q rising off = if (c.psqMet q w).1 then (c.psqMet q w).2.psqDone q else (c.psqMet q w).2 := by
  obtain ⟨-, hst, hw, hx⟩ := h
  have h6 : bits w 26 24 ≠ 6 := by omega
  simp [Chip.psqAwaitEnd, hx, hst, hw, h6, Nat.not_le.mpr hk]

/-- A wait on an edge ends with the edge, recorded to within 1 tk. -/
theorem Chip.psqAwaitEnd_edge (h : SeqWaits c q w (.await b)) (hk : 3 ≤ bits w 26 24) (h6 : bits w 26 24 ≠ 6)
    (rising : Bool) (off : Nat) :
    (∀ e, c.psqEdge q b rising = some e → c.psqAwaitEnd q rising off = (c.updPsq q fun x =>
      { x with cap := nearly e off, tr := (nearly e off + bits w 15 0) % 2 ^ 64 }).psqDone q) ∧
    (c.psqEdge q b rising = none → c.psqAwaitEnd q rising off = c) := by
  obtain ⟨-, hst, hw, hx⟩ := h
  constructor
  · intro e he
    simp [Chip.psqAwaitEnd, hx, hst, hw, h6, hk, he]
  · intro he
    simp [Chip.psqAwaitEnd, hx, hst, hw, h6, hk, he]

/-- The edge of an AWAIT for either direction: the one that appears, where it is not before the wait began. -/
theorem Chip.psqEdge_either {e : Nat} {rising : Bool} (hw : c.psqInst q = w) (hk : bits w 26 24 = 5)
    (hp : bits w 20 16 ≤ c.fld F.psqGroup_COUNTM1 q)
    (he : c.edgeAt (c.fld F.psqGroup_BASE q + bits w 20 16) 0 = some (e, rising)) (hb : reached e b = true) :
    c.psqEdge q b rising = some e := by
  have hsel : edgeIs 3 rising = true := by cases rising <;> rfl
  simp [Chip.psqEdge, hw, hk, Nat.not_lt.mpr hp, he, hb, hsel]

/-- Without an edge there is none awaited. -/
theorem Chip.psqEdge_none (hw : c.psqInst q = w)
    (he : c.edgeAt (c.fld F.psqGroup_BASE q + bits w 20 16) 0 = none) (rising : Bool) : c.psqEdge q b rising = none := by
  simp [Chip.psqEdge, hw, he]

/-- A sequencer that does not wait, does not end a wait. -/
theorem Chip.psqAwaitEnd_running (h : c.psqState q ≠ 3) (rising : Bool) (off : Nat) : c.psqAwaitEnd q rising off = c := by
  unfold Chip.psqAwaitEnd
  dsimp only
  split
  · exact if_pos (.inl h)
  · rfl

/-! ### Commands -/

theorem Chip.writeReg_psqCmd (m : Master) (j : Nat) : c.writeReg m .psqCmd q j v = c.writePsqCmd q v := rfl

/-- A word of CMD with one bit set is that bit's command. -/
theorem Chip.writePsqCmd_one (c : Chip) (q : Nat) :
    c.writePsqCmd q 1 = c.psqRestart q ∧ c.writePsqCmd q 2 = c.psqHalt q ∧ c.writePsqCmd q 4 = c.psqResume q ∧
      c.writePsqCmd q 8 = c.psqFlush q := ⟨rfl, rfl, rfl, rfl⟩

end

/-- Settles O51: an instruction by its fields, a wait by its condition, a command by the sequencer's state. -/
theorem sequencerControl : Obligations.SequencerControl := by
  unfold Obligations.SequencerControl
  refine ⟨?stop, ?badInst, ?always, ?loop, ?noTx, ?awaitMet, ?awaitNot, ?awaitTask, ?edge, ?noEdge, ?level, ?notWaiting,
    ?stampNow, ?stampTr, ?halt, ?haltNot, ?resume, ?restart, ?restartBad, ?flush, ?flushBad⟩
  case stop => exact fun s q w hl h => exec_seq hl h rfl rfl
  case badInst => exact fun s q hl hd hst hr => exec_whenSeq hl hd rfl (if_pos ⟨hst, hr⟩)
  case always =>
    intro s q w hl h hc
    refine exec_seq hl h rfl ?_
    simp [Chip.psqBranch, hc]
  case loop =>
    intro s q w lc hl h hc hlc hlt
    refine exec_seq hl h rfl ?_
    have h0 : lc ≠ 0 := by omega
    have h1 : lc ≠ 1 := by omega
    simp [Chip.psqBranch, hc, hlc, h0, h1]
  case noTx =>
    intro s q w hl h hc hx
    refine exec_seq hl h rfl ?_
    simp [Chip.psqBranch, hc, hx]
  case awaitMet =>
    intro s q w hl h hc hr
    refine exec_seq hl h rfl ?_
    have hr' : reached (s.chip.updPsq q.1 fun e => { e with hop := 0 }).now (s.chip.psq q.1).tr = true := hr
    simp [Chip.psqAwait, Chip.psqMet, hc, hr']
  case awaitNot =>
    intro s q w hl h hc hr
    refine exec_seq hl h rfl ?_
    have hr' : reached (s.chip.updPsq q.1 fun e => { e with hop := 0 }).now (s.chip.psq q.1).tr = false := hr
    simp [Chip.psqAwait, Chip.psqMet, hc, hr']
  case awaitTask =>
    intro s q w hl h hc hp
    exact exec_seq hl h rfl ((if_pos hc).trans (if_pos hp))
  case edge =>
    intro s q v off w b e hl h hk hp he hb
    refine exec_whenSeq hl h.1 rfl ?_
    exact (Chip.psqAwaitEnd_edge h (by omega) (by omega) v off.1).1 e (Chip.psqEdge_either h.2.2.1 hk hp he hb)
  case noEdge =>
    intro s q v off w b hl h hk he
    refine exec_whenSeq hl h.1 rfl ?_
    exact (Chip.psqAwaitEnd_edge h (by omega) (by omega) v off.1).2 (Chip.psqEdge_none h.2.2.1 he v)
  case level =>
    intro s q v off w b hl h hk hr
    refine exec_whenSeq hl h.1 rfl ((Chip.psqAwaitEnd_level h (by omega) v off.1).trans ?_)
    simp [Chip.psqMet, hk, hr]
  case notWaiting => exact fun s q v off hl hd hst => exec_whenSeq hl hd rfl (Chip.psqAwaitEnd_running hst v off.1)
  case stampNow =>
    intro s q w hl h hk
    refine exec_seq hl h rfl ?_
    simp [Chip.psqStamp, hk]
  case stampTr =>
    intro s q w hl h hk
    refine exec_seq hl h rfl ?_
    simp only [Chip.psqStamp, hk]
    rfl
  case halt =>
    intro s m q hl hs hst
    exact exec_write hl hs rfl (by decide) (by decide) ((Chip.writePsqCmd_one ..).2.1.trans (if_pos hst))
  case haltNot =>
    intro s m q hl hs hst
    exact exec_write hl hs rfl (by decide) (by decide)
      ((Chip.writePsqCmd_one ..).2.1.trans (if_neg (Nat.not_le.mpr hst)))
  case resume =>
    intro s m q hl hs hst
    exact exec_write hl hs rfl (by decide) (by decide) ((Chip.writePsqCmd_one ..).2.2.1.trans (if_pos hst))
  case restart =>
    intro s m q hl hs he hg
    refine exec_write hl hs rfl (by decide) (by decide) ((Chip.writePsqCmd_one ..).1.trans ?_)
    exact (if_pos he).trans (if_neg (Nat.not_lt.mpr hg))
  case restartBad =>
    intro s m q hl hs he hg
    refine exec_write hl hs rfl (by decide) (by decide) ((Chip.writePsqCmd_one ..).1.trans ?_)
    exact (if_pos he).trans (if_pos hg)
  case flush =>
    intro s m q hl hs hst
    exact exec_write hl hs rfl (by decide) (by decide) ((Chip.writePsqCmd_one ..).2.2.2.trans (if_pos hst))
  case flushBad =>
    intro s m q hl hs hst
    exact exec_write hl hs rfl (by decide) (by decide) ((Chip.writePsqCmd_one ..).2.2.2.trans (if_neg hst))

/-! ### Data -/

section

variable {c : Chip} {q w b op : Nat}

/-- An instruction without AT acts at once; its action is its operation's. -/
theorem Chip.psqAt_now (hb : bit w 27 = false) : c.psqAt q w = (c.psqAct q w).psqDone q := if_neg (by simp [hb])

/-- The action of an operation that honours AT. -/
theorem Chip.psqAct_op :
    (bits w 31 28 = 4 → c.psqAct q w = c.psqDrive q w) ∧ (bits w 31 28 = 5 → c.psqAct q w = c.psqSample q w) ∧
      (bits w 31 28 = 6 → c.psqAct q w = c.psqPut q w) ∧ (bits w 31 28 = 9 → c.psqAct q w = c.psqCopy q w) ∧
      (bits w 31 28 = 10 → c.psqAct q w = c.psqSignal q w) := by
  refine ⟨?_, ?_, ?_, ?_, ?_⟩ <;> intro h <;> simp only [Chip.psqAct, h]

/-- DRIVE of a right-shifting sequencer: the low bits of SR, to the pins it names. -/
theorem Chip.psqDrive_right {n sr : Nat} (hd : c.on F.psqCtrl_SHDIR q = false) (hn : bits w 4 0 + 1 = n)
    (hsr : c.fld F.psqSr_SR q = sr) :
    (bits w 26 24 = 0 → c.psqDrive q w =
      ((c.setFld F.psqSr_SR q 0 (sr / 2 ^ n)).psqShifted q n).psqDrivePins q F.psqOutv_OUTV
        (putBits (c.fld F.psqOutv_OUTV q) (bits w 20 16) n (sr % 2 ^ n))) ∧
    (bits w 26 24 = 2 → c.psqDrive q w = (c.setFld F.psqSr_SR q 0 (sr / 2 ^ n)).psqShifted q n) := by
  subst hn hsr
  constructor <;> intro h <;> simp [Chip.psqDrive, hd, h]

/-- The timed action of a waiting sequencer, by its tick. -/
theorem Chip.psqTimed_waits (h : SeqWaits c q w (.timed b)) :
    c.psqTimed q =
      if reached c.now (c.psq q).tr ∧ 10 ≤ sub64 c.now b then
        ((if reached (b + 9) (c.psq q).tr then c.psqStick q F.psqStat_LATE else c).psqAct q w).psqDone q
      else c := by
  obtain ⟨-, hst, hw, hx⟩ := h
  simp [Chip.psqTimed, hx, hst, hw]

/-- A FIFO wait of FETCH ends with a word. -/
theorem Chip.psqFifoEnd_fetch (h : SeqWaits c q w .fifo) (hk : bits w 31 28 = 7) :
    c.psqFifoEnd q = if (c.psq q).tx.isEmpty then c else c.psqFetch q w := by
  obtain ⟨-, hst, hw, hx⟩ := h
  simp [Chip.psqFifoEnd, hx, hst, hw, hk]

/-- FETCH of the oldest word. -/
theorem Chip.psqFetch_word {v : Nat} {rest : List Nat} (hx : (c.psq q).tx = v :: rest) :
    c.psqFetch q w = ((c.updPsq q fun e => { e with tx := rest }).psqLoad q v).psqDone q := by
  simp only [Chip.psqFetch, hx]

end

/-- Settles O52: each instruction by its destination or source, a timed action by its tick, the FIFOs by their words. -/
theorem sequencerData : Obligations.SequencerData := by
  unfold Obligations.SequencerData
  refine ⟨?drive, ?driveAt, ?drivePins, ?sample, ?putLc, ?putDr, ?putPins, ?copyLc, ?copySr, ?signal, ?fetch, ?fetchIdle,
    ?fetchWait, ?deposit, ?depositFull, ?timed, ?timedLate, ?timedNot, ?fifoEnd, ?fifoStays⟩
  case drive =>
    intro s q w n sr hl h hb hk hd hn hsr
    refine exec_seq hl h rfl ((Chip.psqAt_now hb).trans ?_)
    rw [Chip.psqAct_op.1 h.2.2.2.1, (Chip.psqDrive_right hd hn hsr).2 hk]
  case driveAt => exact fun s q w hl h hb => exec_seq hl h rfl (if_pos hb)
  case drivePins =>
    intro s q w n sr hl h hb hk hd hn hsr
    refine exec_seq hl h rfl ((Chip.psqAt_now hb).trans ?_)
    rw [Chip.psqAct_op.1 h.2.2.2.1, (Chip.psqDrive_right hd hn hsr).1 hk]
  case sample =>
    intro s q w n sr hl h hb hk hd hn hsr
    refine exec_seq hl h rfl ((Chip.psqAt_now hb).trans ?_)
    subst hn hsr
    rw [Chip.psqAct_op.2.1 h.2.2.2.1]
    simp [Chip.psqSample, Chip.psqSampled, hk, hd]
  case putLc =>
    intro s q w hl h hb hk
    refine exec_seq hl h rfl ((Chip.psqAt_now hb).trans ?_)
    rw [Chip.psqAct_op.2.2.1 h.2.2.2.1]
    simp only [Chip.psqPut, hk]
  case putDr =>
    intro s q w hl h hb hk
    refine exec_seq hl h rfl ((Chip.psqAt_now hb).trans ?_)
    rw [Chip.psqAct_op.2.2.1 h.2.2.2.1]
    simp only [Chip.psqPut, hk]
  case putPins =>
    intro s q w hl h hb hk
    refine exec_seq hl h rfl ((Chip.psqAt_now hb).trans ?_)
    rw [Chip.psqAct_op.2.2.1 h.2.2.2.1]
    simp only [Chip.psqPut, hk]
  case copyLc =>
    intro s q w hl h hb hk hsrc
    refine exec_seq hl h rfl ((Chip.psqAt_now hb).trans ?_)
    rw [Chip.psqAct_op.2.2.2.1 h.2.2.2.1]
    simp only [Chip.psqCopy, Chip.psqCopySrc, hk, hsrc]
  case copySr =>
    intro s q w hl h hb hk hsrc
    refine exec_seq hl h rfl ((Chip.psqAt_now hb).trans ?_)
    rw [Chip.psqAct_op.2.2.2.1 h.2.2.2.1]
    simp only [Chip.psqCopy, Chip.psqCopySrc, Chip.psqLoad, hk, hsrc]
  case signal =>
    intro s q w hl h hb
    refine exec_seq hl h rfl ((Chip.psqAt_now hb).trans ?_)
    rw [Chip.psqAct_op.2.2.2.2 h.2.2.2.1]
    rfl
  case fetch => exact fun s q w v rest hl h hx => exec_seqDma hl h rfl (Chip.psqFetch_word hx)
  case fetchIdle =>
    intro s q w hl h hx hb
    refine exec_seqDma hl h rfl ?_
    simp [Chip.psqFetch, hx, hb]
  case fetchWait =>
    intro s q w hl h hx hb
    refine exec_seqDma hl h rfl ?_
    simp [Chip.psqFetch, hx, hb]
  case deposit => exact fun s q w hl h hx => exec_seqDma hl h rfl (if_pos hx)
  case depositFull =>
    intro s q w hl h hx hb
    exact exec_seqDma hl h rfl ((if_neg (Nat.not_lt.mpr hx)).trans (if_neg (by simp [hb])))
  case timed =>
    intro s q w b hl h hr ht hn
    refine exec_whenSeq hl h.1 rfl ((Chip.psqTimed_waits h).trans ((if_pos ⟨hr, ht⟩).trans ?_))
    rw [hn]
    rfl
  case timedLate =>
    intro s q w b hl h hr ht hn
    refine exec_whenSeq hl h.1 rfl ((Chip.psqTimed_waits h).trans ((if_pos ⟨hr, ht⟩).trans ?_))
    rw [if_pos hn]
  case timedNot =>
    intro s q w b hl h hn
    refine exec_whenSeq hl h.1 rfl ((Chip.psqTimed_waits h).trans (if_neg ?_))
    rintro ⟨hr, ht⟩
    rcases hn with hn | hn
    · omega
    · exact absurd (hn.symm.trans hr) (by decide)
  case fifoEnd =>
    intro s q w v rest hl h hk hx
    refine exec_whenSeq hl h.1 rfl (congrArg Chip.dmaLevels ((Chip.psqFifoEnd_fetch h hk).trans ?_))
    exact (if_neg (by simp [hx])).trans (Chip.psqFetch_word hx)
  case fifoStays =>
    intro s q w hl h hk hx
    exact exec_whenSeq hl h.1 rfl (congrArg Chip.dmaLevels ((Chip.psqFifoEnd_fetch h hk).trans (if_pos (by simp [hx]))))

end Sys2Proof.Machine

/-! Start-up (spec/15_keystone_start.md, Table 15.3), the resets and the watchdog (R463 to R476, R526). -/

namespace Sys2Proof.Machine

/-! ### Start-up -/

section

variable {c t u : Chip} {due k : Nat} {e : StartEnv}

/-- Start-up ends as its first copy does: run, or held. -/
theorem Chip.startUp_first (hd : c.boot.due = some due) (hp : c.psm.tripped = false)
    (h : (c.startBegin due).tryCopy 0 due e = .ran t ∨ (c.startBegin due).tryCopy 0 due e = .held t) : c.startUp e = t := by
  rcases h with h | h <;> simp [Chip.startUp, hd, hp, h]

/-- With both copies failing, it ends in hold. -/
theorem Chip.startUp_neither (hd : c.boot.due = some due) (hp : c.psm.tripped = false)
    (h : (c.startBegin due).tryCopy 0 due e = .failed t) (h' : t.tryCopy 1 due e = .failed u) :
    c.startUp e = u.enterHold := by
  simp [Chip.startUp, hd, hp, h, h']

/-- A copy that is not good fails with its reason; a good one is applied. -/
theorem Chip.tryCopy_bad {r : Nat} (h : c.boot.reason k = some r) : c.tryCopy k due e = .failed (c.setReason k r) := by
  rw [Chip.tryCopy, h]

theorem Chip.tryCopy_good (h : c.boot.reason k = none) : c.tryCopy k due e = c.applyCopy k due e := by
  rw [Chip.tryCopy, h]

/-- A reason recorded leaves the boot memory, and so what the other copy's is. -/
theorem Chip.setReason_boot (c : Chip) (k r : Nat) : (c.setReason k r).boot = c.boot := by
  unfold Chip.setReason
  split <;> rfl

/-- A copy whose rails are out of their window holds the device. -/
theorem Chip.applyCopy_held (ht : (c.takeHeader k due).startPower k e = t)
    (hr : (t.on F.sysSupply_VCORE_OK && t.on F.sysSupply_VMEM_OK) = false) : c.applyCopy k due e = .held t.enterHold := by
  subst ht
  simp only [Chip.applyCopy, hr, Bool.not_false, if_true]

end

/-- Settles O53: start-up by whether one is due, the copies' reasons and the rails. -/
theorem startUp : Obligations.StartUp := by
  unfold Obligations.StartUp
  refine ⟨?none, ?runs, ?held, ?neither⟩
  case none =>
    intro s e hl hd
    refine exec_live (f := fun c => c.startUp e) hl rfl ?_
    rw [Chip.startUp, hd]
  case runs =>
    intro s e due b t1 t2 t3 t4 hl hd hp hb hg h1 hr hz h2 h3 h4 ha
    subst hb
    refine exec_live (f := fun c => c.startUp e) hl rfl (Chip.startUp_first hd hp (.inl ?_))
    rw [Chip.tryCopy_good hg]
    simp only [Chip.applyCopy, h1, hr, hz, h2, h3, h4, ha, Bool.not_true, Bool.false_eq_true, if_false]
  case held =>
    intro s e due t1 hl hd hp hg h1 hr
    refine exec_live (f := fun c => c.startUp e) hl rfl (Chip.startUp_first hd hp (.inr ?_))
    rw [Chip.tryCopy_good hg, Chip.applyCopy_held h1 hr]
  case neither =>
    intro s e due r0 r1 b hl hd hp hb h0 h1
    subst hb
    refine exec_live (f := fun c => c.startUp e) hl rfl (Chip.startUp_neither hd hp (Chip.tryCopy_bad h0) ?_)
    exact Chip.tryCopy_bad (by rw [Chip.setReason_boot, h1])

/-! ### Resets -/

section

variable {c : Chip} {m : Master} {kind d f : Nat} {cause : Fd}

theorem Chip.writeReg_sysReset (i j v : Nat) : c.writeReg m .sysReset i j v = c.writeSysReset v := rfl

/-- The two words of RESET with the key are the keystone and the cold reset. -/
theorem Chip.writeSysReset_key (c : Chip) :
    c.writeSysReset 0x7E510001 = c.doReset 1 F.sysRstcause_KEYSTONE ∧
      c.writeSysReset 0x7E510002 = c.doReset 0 F.sysRstcause_COLD := ⟨rfl, rfl⟩

/-- With no start due a reset records its cause and begins. -/
theorem Chip.doReset_idle (h : c.boot.due = none) (kind : Nat) (cause : Fd) :
    c.doReset kind cause = (c.setFld cause 0 0 1).beginReset kind := by
  simp only [Chip.doReset, h]

/-- With one due a cold reset replaces a lesser one, and any other only records its cause. -/
theorem Chip.doReset_due (h : c.boot.due = some d) (kind : Nat) (cause : Fd) :
    c.doReset kind cause =
      if kind = 0 ∧ d ≠ 0 then (c.setFld cause 0 0 1).beginReset 0 else c.setFld cause 0 0 1 := by
  simp only [Chip.doReset, h]

/-- The host's settings of function f, which its reset clears. -/
def Chip.funcClear (c : Chip) (f : Nat) : Chip :=
  { c.updPcie fun p => { p with
      dstate := NStore.del p.dstate f, bars := p.bars.filter fun x => !decide (x.1 / 8 = f), cmd := NStore.del p.cmd f,
      msixEn := NStore.del p.msixEn f, table := p.table.filter fun x => !decide (x.1 / 256 = f),
      pend := p.pend.filter fun x => !decide (x / 64 = f) } with
    busMaster := c.busMaster.filter fun x => x != f }

theorem Chip.funcReset_eq (c : Chip) (f : Nat) :
    c.funcReset f = if f = 0 then (c.funcClear f).endOutbound else c.funcClear f := rfl

/-- With nothing outbound, ending it only leaves it empty. -/
theorem Chip.endOutbound_empty (hq : c.pcie.outQ = []) (hr : c.pcie.reads = []) :
    c.endOutbound = c.updPcie fun p => { p with outQ := [], reads := [] } := by
  simp [Chip.endOutbound, hq, hr]

theorem Chip.writeReg_sysWdogKick (i j v : Nat) : c.writeReg m .sysWdogKick i j v = c.wdogKick v := rfl

end

/-- Settles O54: a reset by the start that is due, a function-level reset by its function, the watchdog by its key. -/
theorem resets : Obligations.Resets := by
  unfold Obligations.Resets
  refine ⟨?power, ?release, ?releaseNot, ?ball, ?cold, ?coldOver, ?coldMerged, ?keystone, ?keystoneMerged, ?perst,
    ?perstHost, ?flr1, ?flr0, ?bite, ?biteNot, ?kick, ?kickErr⟩
  case power => exact fun s b => rfl
  case release =>
    intro s k hp ht
    exact congrArg Host.Outcome.next (if_pos ⟨hp, by simp [ht]⟩)
  case releaseNot =>
    intro s k ht
    exact congrArg Host.Outcome.next (if_neg (by simp [ht]))
  case ball =>
    intro s k hl hd
    refine exec_live (f := fun c => c.resetN k.toNat) hl rfl ?_
    have hk : k.toNat % 1024 = k.toNat := Nat.mod_eq_of_lt k.isLt
    rw [Chip.resetN, Chip.doReset_idle hd, hk]
  case cold =>
    intro s m hl hs hd
    exact exec_write hl hs rfl (by decide) (by decide)
      ((Chip.writeSysReset_key _).2.trans (Chip.doReset_idle hd ..))
  case coldOver =>
    intro s m d hl hs hd h0
    exact exec_write hl hs rfl (by decide) (by decide)
      ((Chip.writeSysReset_key _).2.trans ((Chip.doReset_due hd ..).trans (if_pos ⟨rfl, h0⟩)))
  case coldMerged =>
    intro s m hl hs hd
    exact exec_write hl hs rfl (by decide) (by decide)
      ((Chip.writeSysReset_key _).2.trans ((Chip.doReset_due hd ..).trans (if_neg (by simp))))
  case keystone =>
    intro s m hl hs hd
    exact exec_write hl hs rfl (by decide) (by decide)
      ((Chip.writeSysReset_key _).1.trans (Chip.doReset_idle hd ..))
  case keystoneMerged =>
    intro s m d hl hs hd
    exact exec_write hl hs rfl (by decide) (by decide)
      ((Chip.writeSysReset_key _).1.trans ((Chip.doReset_due hd ..).trans (if_neg (by simp))))
  case perst =>
    intro s hl hb hd
    exact exec_live (f := Chip.perst) hl rfl ((if_pos hb).trans (Chip.doReset_idle hd ..))
  case perstHost =>
    intro s hl hb
    exact exec_live (f := Chip.perst) hl rfl (if_neg (by simp [hb]))
  case flr1 =>
    intro s f hl hf
    subst hf
    exact exec_live (f := fun c => c.funcReset 1) hl rfl (Chip.funcReset_eq ..)
  case flr0 =>
    intro s f hl hf hq hr
    subst hf
    refine exec_live (f := fun c => c.funcReset 0) hl rfl ?_
    exact (Chip.funcReset_eq ..).trans (Chip.endOutbound_empty (c := s.chip.funcClear 0) hq hr)
  case bite =>
    intro s hl he ht hd
    exact exec_live (f := Chip.wdogBite) hl rfl ((if_pos ⟨he, ht⟩).trans (Chip.doReset_idle hd ..))
  case biteNot =>
    intro s hl he
    exact exec_live (f := Chip.wdogBite) hl rfl (if_neg (by simp [he]))
  case kick =>
    intro s m v hl hs hk
    exact exec_write hl hs rfl (by decide) v.isLt ((Chip.writeReg_sysWdogKick ..).trans (if_pos hk))
  case kickErr =>
    intro s m v hl hs hk
    exact exec_write hl hs rfl (by decide) v.isLt ((Chip.writeReg_sysWdogKick ..).trans (if_neg hk))

end Sys2Proof.Machine

/-! The boot-memory engine (spec/15_keystone_start.md, R474 to R478), the host's requests (R479 to R482) and the accesses to
host memory (R483). -/

namespace Sys2Proof.Machine

/-! ### The boot-memory engine -/

section

variable {s : State} {c : Chip} {m : Master} {k : Nat}

/-- A command of the engine, idle and the device started: taken where its master may give it, denied else. -/
theorem Chip.writeReg_hstBfCmd (i j : Nat) (hk : bits k 3 0 = k) (h0 : k ≠ 0) (h4 : k ≤ 4)
    (hb : c.on F.hstBfStat_BUSY = false) (hs : 4 ≤ c.fld F.sysBoot_STATE) :
    c.writeReg m .hstBfCmd i j k =
      if c.bfAllowed m k then (c.setFld F.hstBfStat_BUSY 0 0 1).updBoot fun b => { b with cmd := some k }
      else c.setFld F.hstBfStat_DENY 0 0 1 := by
  show c.writeBfCmd m k = _
  have h1 : ¬(k = 0 ∨ 4 < k) := by omega
  rw [Chip.writeBfCmd, if_neg (by simp [hb, Nat.not_lt.mpr hs]), hk, if_neg h1]
  by_cases ha : c.bfAllowed m k <;> simp [ha]

/-- What a command's end leaves, whichever it was. -/
def Chip.bfIdle (c : Chip) : Chip := (c.setFld F.hstBfStat_BUSY 0 0 0).updBoot fun b => { b with cmd := none }

/-- The command waiting ends: a READ fills the buffer, and another that failed says so. -/
theorem Chip.bfDone_read (h : c.boot.cmd = some 1) (ok : Bool) :
    c.bfDone ok = ((List.range 64).foldl (fun t i =>
      t.setFld F.hstBfBuf_DATA i 0 (c.boot.bytes (c.fld F.hstBfAddr_ADDR + 4 * i) 4)) c.bfIdle).setFld F.hstBfStat_DONE 0 0 1 := by
  simp only [Chip.bfDone, h, if_true]
  rfl

theorem Chip.bfDone_failed (h : c.boot.cmd = some k) (h1 : k ≠ 1) :
    c.bfDone false = c.bfIdle.setFld F.hstBfStat_FAIL 0 0 1 := by
  simp only [Chip.bfDone, h, h1, if_false, Bool.not_false, if_true]
  rfl

theorem Chip.bfDone_erase4k (h : c.boot.cmd = some 3) :
    c.bfDone true = (c.bfIdle.updBoot fun b =>
      b.erase (c.fld F.hstBfAddr_ADDR / 4096 * 4096) 4096).setFld F.hstBfStat_DONE 0 0 1 := by
  simp only [Chip.bfDone, h]
  rfl

end

/-- Settles O55: a command by the engine's state and its master, its end by the command and its outcome. -/
theorem bootEngine : Obligations.BootEngine := by
  unfold Obligations.BootEngine
  refine ⟨?read, ?rejected, ?program, ?denied, ?erase4k, ?erase64k, ?readDone, ?eraseDone, ?failed⟩
  case read =>
    intro s m hl hs hb hst ha
    exact exec_write hl hs rfl (by decide) (by decide)
      ((Chip.writeReg_hstBfCmd 0 0 rfl (by decide) (by decide) hb hst).trans (if_pos ha))
  case rejected =>
    intro s m hl hs h
    exact exec_write hl hs rfl (by decide) (by decide) (if_pos h)
  case program =>
    intro s m hl hs hb hst ha
    exact exec_write hl hs rfl (by decide) (by decide)
      ((Chip.writeReg_hstBfCmd 0 0 rfl (by decide) (by decide) hb hst).trans (if_pos ha))
  case denied =>
    intro s m hl hs hb hst ha
    exact exec_write hl hs rfl (by decide) (by decide)
      ((Chip.writeReg_hstBfCmd 0 0 rfl (by decide) (by decide) hb hst).trans (if_neg (by simp [ha])))
  case erase4k =>
    intro s m hl hs hb hst ha
    exact exec_write hl hs rfl (by decide) (by decide)
      ((Chip.writeReg_hstBfCmd 0 0 rfl (by decide) (by decide) hb hst).trans (if_pos ha))
  case erase64k =>
    intro s m hl hs hb hst ha
    exact exec_write hl hs rfl (by decide) (by decide)
      ((Chip.writeReg_hstBfCmd 0 0 rfl (by decide) (by decide) hb hst).trans (if_pos ha))
  case readDone =>
    intro s ok t hl hk ht
    subst ht
    exact exec_live (f := fun c => c.bfDone ok) hl rfl (Chip.bfDone_read hk ok)
  case eraseDone =>
    intro s ok t hl hk hok ht
    subst hok ht
    exact exec_live (f := fun c => c.bfDone true) hl rfl (Chip.bfDone_erase4k hk)
  case failed =>
    intro s ok k hl hk h1 hok
    subst hok
    exact exec_live (f := fun c => c.bfDone false) hl rfl (Chip.bfDone_failed hk h1)

/-! ### Requests of the host -/

section

variable {s : State} {c : Chip} {f : Fin 2} {bar : Fin 3} {w : Bool} {o : BitVec 30} {n v : Nat}

/-- With the link up a request is its BAR's. -/
theorem exec_barRequest (hl : Live s) (hu : s.chip.pcie.up = true) (f : Fin 2) (w : Bool) (o : BitVec 30) (n v : Nat) :
    exec (.barRequest f 0 w o n v) s =
        .next (s.withChip (s.chip.barWindow f.1 0 w (s.chip.localAddr (0x3C000000 + o.toNat % 2 ^ 26)) n v)) ∧
      (f = 0 → exec (.barRequest f 1 w o n v) s =
        .next (s.withChip (s.chip.barWindow 0 1 w (s.chip.fld F.hstWinchip_CHIP * 2 ^ 30 + o.toNat) n v))) ∧
      (f = 1 → exec (.barRequest f 1 w o n v) s =
        .next (s.withChip (s.chip.footingPage w (o.toNat % 2 ^ 12) n v))) ∧
      exec (.barRequest f 2 w o n v) s = .next (s.withChip
        (if w then s.chip.msixWrite f.1 (o.toNat % 2 ^ 16) v
         else (s.chip.msixRead f.1 (o.toNat % 2 ^ 16)).2.complete f.1 0 (s.chip.msixRead f.1 (o.toNat % 2 ^ 16)).1)) := by
  have hn : ¬(!s.chip.pcie.up) = true := by simp [hu]
  refine ⟨?_, fun hf => ?_, fun hf => ?_, ?_⟩
  · exact exec_live (f := fun c => c.barRequest f.1 0 w o.toNat n v) hl rfl (if_neg hn)
  · subst hf
    refine exec_live (f := fun c => c.barRequest 0 1 w o.toNat n v) hl rfl ((if_neg hn).trans ?_)
    rw [if_neg (by decide), if_neg (by decide), if_pos rfl, Nat.mod_eq_of_lt o.isLt]
  · subst hf
    refine exec_live (f := fun c => c.barRequest 1 1 w o.toNat n v) hl rfl ((if_neg hn).trans ?_)
    rw [if_neg (by decide), if_pos ⟨rfl, rfl⟩]
  · exact exec_live (f := fun c => c.barRequest f.1 2 w o.toNat n v) hl rfl ((if_neg hn).trans (if_pos rfl))

/-- A window of a running device below S3 is accesses. -/
theorem Chip.barWindow_runs {g b a : Nat} (hs : c.fld F.psmStat_STATE < 3) (hb : c.fld F.sysBoot_STATE = 4) :
    c.barWindow g b w a n v = (hostAccesses g w a n v).foldl (fun t a => t.submit a) c := by
  unfold Chip.barWindow
  rw [if_neg (Nat.not_le.mpr hs), if_neg (by simp [hb])]

/-- In S3 and S4 a write that is not of four bytes only counts. -/
theorem Chip.barWindow_off {g b a : Nat} (hs : 3 ≤ c.fld F.psmStat_STATE) (hn : n ≠ 4) :
    c.barWindow g b true a n v = c.bump F.psmOffcnt_COUNT F.psmOffcnt_SAT := by
  unfold Chip.barWindow
  rw [if_pos hs, if_neg (by simp [hn])]
  rfl

/-- A word of the vector table, by its number. -/
theorem Chip.msixRead_word {g k : Nat} (hk : k < 256) :
    c.msixRead g (4 * k) = (NStore.get (if k % 4 = 3 then 1 else 0) c.pcie.table (g * 256 + k), c) := by
  have hm : 4 * k % 16 = 12 ↔ k % 4 = 3 := by omega
  have hd : 4 * k / 4 = k := by omega
  rw [Chip.msixRead, if_neg (by omega), if_pos (by omega)]
  simp only [hm, hd]

/-- A write of a word of the vector table sets it, and sends the vector where it waits. -/
theorem Chip.msixWrite_word {g off : Nat} (h4 : off % 4 = 0) (hlt : off < 0x400) :
    c.msixWrite g off v =
      (c.updPcie fun p => { p with table := NStore.set p.table (g * 256 + off / 4) (v % 2 ^ 32) }).flushVector g (off / 16) :=
  if_pos ⟨h4, hlt⟩

/-- A configuration request with the link up, by whether the keystone's check is done. -/
theorem exec_configurationRequest (hl : Live s) (hu : s.chip.pcie.up = true) (f : Fin 2) (r : CfgReg) (w : Bool)
    (v : BitVec 32) :
    exec (.configurationRequest f r w v) s = .next (s.withChip
      (if s.chip.cfgRetry then s.chip.complete f.1 3 0
       else if w then (s.chip.cfgWrite f.1 r v.toNat).complete f.1 0 0
       else (s.chip.cfgRead f.1 r).2.complete f.1 0 (s.chip.cfgRead f.1 r).1)) :=
  exec_live (f := fun c => c.cfgRequest f.1 r w v.toNat) hl rfl (if_neg (by simp [hu]))

end

/-- Settles O56: a request by its BAR and the device's state, a configuration request by the keystone's check, a vector by
its word of the table. -/
theorem hostRequests : Obligations.HostRequests := by
  unfold Obligations.HostRequests
  refine ⟨?down, ?bar0, ?bar2, ?off, ?tableRead, ?tableWrite, ?page, ?retry, ?readId, ?write, ?link, ?unmask⟩
  case down =>
    intro s f bar w o n v hl hu
    exact exec_live (f := fun c => c.barRequest f.1 bar.1 w o.toNat n v) hl rfl (if_pos (by simp [hu]))
  case bar0 =>
    intro s f w o n v hl hu hs hb
    rw [(exec_barRequest hl hu f w o n v).1, Chip.barWindow_runs hs hb]
  case bar2 =>
    intro s f w o n v hl hu hf hs hb
    rw [(exec_barRequest hl hu f w o n v).2.1 hf, Chip.barWindow_runs hs hb]
  case off =>
    intro s f w o n v hl hu hs hn hw
    subst hw
    rw [(exec_barRequest hl hu f true o n v).1, Chip.barWindow_off hs hn]
  case tableRead =>
    intro s f o n v k hl hu ho hk
    rw [(exec_barRequest hl hu f false o n v).2.2.2, ho, Chip.msixRead_word hk]
    rfl
  case tableWrite =>
    intro s f o n v hl hu h4 hlt
    have h4' : o.toNat % 2 ^ 16 % 4 = 0 := by omega
    rw [(exec_barRequest hl hu f true o n v).2.2.2, if_pos rfl, Chip.msixWrite_word h4' hlt]
  case page => exact fun s f w o n v hl hu hf => (exec_barRequest hl hu f w o n v).2.2.1 hf
  case retry =>
    intro s f r w v hl hu hr
    rw [exec_configurationRequest hl hu, if_pos hr]
    rfl
  case readId =>
    intro s f r w v hl hu hr hw hid
    subst hw hid
    rw [exec_configurationRequest hl hu, hr]
    rfl
  case write =>
    intro s f r w v hl hu hr hw
    subst hw
    rw [exec_configurationRequest hl hu, hr]
    rfl
  case link => exact fun s up hl => exec_live (f := fun c => c.pcieLink up) hl rfl rfl
  case unmask =>
    intro s f v w hl hw hlt
    have hoff : 16 * v.1 + 12 = 4 * (4 * v.1 + 3) := by omega
    have h3 : (4 * v.1 + 3) % 4 = 3 := by omega
    have h4 : 4 * (4 * v.1 + 3) / 4 = 4 * v.1 + 3 := by omega
    have h16 : 4 * (4 * v.1 + 3) / 16 = v.1 := by omega
    have hm : w / 2 * 2 % 2 ^ 32 = w / 2 * 2 := Nat.mod_eq_of_lt (by omega)
    refine exec_live (f := fun c => c.vectorUnmask f.1 v.1) hl rfl ?_
    simp only [Chip.vectorUnmask, hoff, Chip.msixRead_word (by omega : 4 * v.1 + 3 < 256), h3, if_true]
    rw [← Nat.add_assoc, hw, Chip.msixWrite_word (by omega) (by omega), h4, h16, hm, ← Nat.add_assoc]

/-! ### Accesses to host memory -/

section

variable {c : Chip} {n : Nat} {r : HostReq}

/-- An answer to a read that waits. -/
theorem Chip.outboundAnswer_waiting (h : c.pcie.reads[n]? = some r) (ok : Bool) (d : Nat) :
    c.outboundAnswer n ok d =
      if ok then (c.updPcie fun p => { p with reads := p.reads.eraseIdx n }).respond r.acc .okay (d % 2 ^ (8 * r.acc.size))
      else (c.updPcie fun p => { p with reads := p.reads.eraseIdx n }).respond r.acc .target 0 := by
  simp only [Chip.outboundAnswer, h]

end

/-- Settles O57: the oldest access by its window and the link, a read that waits by its answer or 50 ms. -/
theorem outboundAccesses : Obligations.OutboundAccesses := by
  unfold Obligations.OutboundAccesses
  refine ⟨?write, ?read, ?noWindow, ?answered, ?failed, ?timeout, ?noRead⟩
  case write =>
    intro s a rest h hl hq ha hw hu
    refine exec_live (f := fun c => c.outbound .send) hl rfl ?_
    show s.chip.outboundSend = _
    simp only [Chip.outboundSend, hq, ha, hw, hu, if_true]
  case read =>
    intro s a rest h hl hq ha hw
    refine exec_live (f := fun c => c.outbound .send) hl rfl ?_
    show s.chip.outboundSend = _
    simp only [Chip.outboundSend, hq, ha, hw, Bool.false_eq_true, if_false]
  case noWindow =>
    intro s a rest hl hq ha
    refine exec_live (f := fun c => c.outbound .send) hl rfl ?_
    show s.chip.outboundSend = _
    simp only [Chip.outboundSend, hq, ha]
  case answered =>
    intro s n ok d r hl hr hok
    subst hok
    exact exec_live (f := fun c => c.outbound (.answer n true d)) hl rfl (Chip.outboundAnswer_waiting hr true _)
  case failed =>
    intro s n ok d r hl hr hok
    subst hok
    exact exec_live (f := fun c => c.outbound (.answer n false d)) hl rfl (Chip.outboundAnswer_waiting hr false _)
  case timeout =>
    intro s n r hl hr ht
    refine exec_live (f := fun c => c.outboundTimeout n) hl rfl ?_
    simp only [Chip.outboundTimeout, hr]
    exact (if_pos ht).trans (Chip.outboundAnswer_waiting hr false 0)
  case noRead =>
    intro s n hl hr
    refine exec_live (f := fun c => c.outboundTimeout n) hl rfl ?_
    simp only [Chip.outboundTimeout, hr]

end Sys2Proof.Machine

/-! The SMBus target (spec/15_keystone_start.md, R484). -/

namespace Sys2Proof.Machine

/-- Settles O58: each command's own equation; a failed check byte ends it, and the footing's resets have none before them. -/
theorem smbusTarget : Obligations.SmbusTarget := by
  unfold Obligations.SmbusTarget
  refine ⟨?boot, ?ident, ?digest, ?addrBad, ?addr, ?read, ?write, ?writeBad, ?writeStatus, ?park, ?reload, ?cold, ?footBad⟩
  case boot => exact fun s hl => exec_live (f := fun c => c.smbBoot) hl rfl rfl
  case ident => exact fun s hl => exec_live (f := fun c => c.smbId) hl rfl rfl
  case digest => exact fun s hl => exec_live (f := fun c => c.smbDigest) hl rfl rfl
  case addrBad =>
    rintro s _ a hl rfl
    exact exec_live (f := fun c => c.smbSetAddress false a.toNat) hl rfl (if_pos rfl)
  case addr =>
    rintro s _ a hl rfl
    exact exec_live (f := fun c => c.smbSetAddress true a.toNat) hl rfl (if_neg (by decide))
  case read => exact fun s hl => exec_live (f := fun c => c.smbRead) hl rfl rfl
  case write =>
    rintro s _ v hl rfl
    exact exec_live (f := fun c => c.smbWrite true v.toNat) hl rfl (if_neg (by decide))
  case writeBad =>
    rintro s _ v hl rfl
    exact exec_live (f := fun c => c.smbWrite false v.toNat) hl rfl (if_pos rfl)
  case writeStatus => exact fun s hl => exec_live (f := fun c => c.smbWriteStatus) hl rfl rfl
  case park =>
    rintro s _ hl rfl
    exact exec_live (f := fun c => c.smbFooting true 1) hl rfl rfl
  case reload =>
    rintro s _ hl rfl hd
    exact exec_live (f := fun c => c.smbFooting true 2) hl rfl (Chip.doReset_idle hd 1 _)
  case cold =>
    rintro s _ hl rfl hd
    exact exec_live (f := fun c => c.smbFooting true 3) hl rfl (Chip.doReset_idle hd 0 _)
  case footBad =>
    rintro s _ hl rfl
    exact ⟨exec_live (f := fun c => c.smbFooting false 1) hl rfl rfl,
      exec_live (f := fun c => c.smbFooting false 2) hl rfl rfl,
      exec_live (f := fun c => c.smbFooting false 3) hl rfl rfl⟩

end Sys2Proof.Machine

/-! Temperature and the VCORE request (spec/16_power_assay_spares.md, R498 to R502). -/

namespace Sys2Proof.Machine

section

variable {c : Chip}

/-- A VOUT command sent leaves every register field. -/
theorem Chip.sendVout_fld (v : Nat) (f : Fd) (i j : Nat) : (c.sendVout v).fld f i j = c.fld f i j := by
  unfold Chip.sendVout
  split <;> rfl

/-- A request for a VCORE shows in its register. -/
theorem Chip.askVcore_req {v : Nat} (hv : v < 2 ^ 16) : (c.askVcore v).fld F.psmVcore_REQ = v := by
  rw [Chip.askVcore, Chip.sendVout_fld, Chip.fld_setFld_self]
  exact Nat.mod_eq_of_lt hv

/-- The paces of a period, in the registers of the meters. -/
def Chip.showPaces (c : Chip) (paces : List Nat) : Chip :=
  (List.range 16).foldl (fun t m => t.setFld F.psmPace_PACE m 0 (paces.getD m 0)) c

/-- The least of the paces shown. -/
def Chip.leastPace (c : Chip) : Nat := (List.range 16).foldl (fun a k => min a (c.fld F.psmPace_PACE k)) 0xFFFF

/-- A period of AVS with the least pace below the margin and room for a whole step below VMAX: the request rises by 10 and
the least pace being low does not yet show, for the request is not at VMAX. -/
theorem Chip.avsPeriod_rise {paces : List Nat} (ha : c.on F.psmAvs_AVS_EN = true) (hn : c.psm.noAvs = false)
    (hs : c.fld F.psmStat_STATE < 3) (hp : paces ≠ [])
    (hk : (c.showPaces paces).leastPace * 400 < c.fld F.psmPaceref_G * (400 + c.fld F.psmAvs_MARGIN))
    (hr : c.fld F.psmVcore_REQ + 10 < c.fld F.psmVlim_VMAX) (hv : c.fld F.psmVlim_VMAX < 2 ^ 16) :
    c.avsPeriod paces true = (((c.showPaces paces).updPsm fun p => { p with slow := 0 }).askVcore
      (c.fld F.psmVcore_REQ + 10)).updPsm fun p => { p with unacked := false } := by
  have hmin : min (c.fld F.psmVlim_VMAX) (c.fld F.psmVcore_REQ + 10) = c.fld F.psmVcore_REQ + 10 := by omega
  have hne : ¬(c.fld F.psmVcore_REQ + 10 = c.fld F.psmVcore_REQ ∧ (!c.psm.unacked) = true) := by omega
  have hreq : ((((c.showPaces paces).updPsm fun p => { p with slow := 0 }).askVcore
      (c.fld F.psmVcore_REQ + 10)).updPsm fun p => { p with unacked := false }).fld F.psmVcore_REQ =
        c.fld F.psmVcore_REQ + 10 := Chip.askVcore_req (by omega)
  have hlow : ¬(c.fld F.psmVcore_REQ + 10 = c.fld F.psmVlim_VMAX ∧
      (c.showPaces paces).leastPace < c.fld F.psmPaceref_G) := by omega
  rw [Chip.avsPeriod, if_neg (by simp [ha, hn, hp]; omega)]
  unfold Chip.showPaces at hk hlow hreq
  unfold Chip.leastPace at hk hlow
  simp only [hk, if_true, hmin, hne, if_false, hreq, hlow, Chip.showPaces]

/-- The wears read, a meter past the list's end left as it was. -/
theorem Chip.wearRefresh_eq (ws : List Nat) :
    c.wearRefresh ws = (List.range 16).foldl
      (fun t m => if h : m < ws.length then t.setFld F.psmPace_WEAR m 0 (min ws[m] 0xFFFF) else t) c := by
  refine congrArg (fun f => List.foldl f c (List.range 16)) (funext fun t => funext fun m => ?_)
  by_cases h : m < ws.length
  · simp only [List.getElem?_eq_getElem h, h, dif_pos]
  · simp only [List.getElem?_eq_none (Nat.le_of_not_lt h), h, dif_neg, not_false_eq_true]

end

/-- Settles O60: each reading by its threshold, the period of AVS by its branch, and the wears by the list's length. -/
theorem thermalAndVcore : Obligations.ThermalAndVcore := by
  unfold Obligations.ThermalAndVcore
  refine ⟨?high, ?normal, ?trip, ?below, ?recover, ?stay, ?off, ?rise, ?wear⟩
  case high => exact fun s tj hl h => exec_live (f := fun c => c.thermHi tj) hl rfl (if_pos h)
  case normal => exact fun s tj hl h => exec_live (f := fun c => c.thermHi tj) hl rfl (if_neg (Int.not_le.mpr h))
  case trip =>
    rintro s tj _ hl h rfl
    exact exec_live (f := fun c => c.thermTrip tj) hl rfl (if_pos h)
  case below => exact fun s tj hl h => exec_live (f := fun c => c.thermTrip tj) hl rfl (if_neg (Int.not_le.mpr h))
  case recover =>
    intro s tj hl h ht hd
    refine exec_live (f := fun c => c.thermRecover tj) hl rfl ?_
    rw [Chip.thermRecover, if_pos ⟨h, ht⟩]
    simp only [hd]
    rfl
  case stay =>
    intro s tj hl h
    exact exec_live (f := fun c => c.thermRecover tj) hl rfl (if_neg fun g =>
      h.elim (fun h => absurd g.1 (Int.not_le.mpr h)) fun h => by simp [h] at g)
  case off =>
    intro s paces ack hl h
    exact exec_live (f := fun c => c.avsPeriod paces ack) hl rfl (if_pos (Or.inl (by simp [h])))
  case rise =>
    rintro s paces _ _ _ hl ha hn hs hp rfl rfl hk hr hv rfl
    exact exec_live (f := fun c => c.avsPeriod paces true) hl rfl (Chip.avsPeriod_rise ha hn hs hp hk hr hv)
  case wear => exact fun s ws hl => exec_live (f := fun c => c.wearRefresh ws) hl rfl (Chip.wearRefresh_eq ws)

end Sys2Proof.Machine

/-! Domains and power states (spec/16_power_assay_spares.md, R486 to R494). -/

namespace Sys2Proof.Machine

section

variable {c : Chip}

/-- The word that forces a domain off: GO with the domain's number. -/
theorem domoffWord (d : BitVec 7) : bits (2 ^ 31 + d.toNat) 6 0 = d.toNat ∧ bit (2 ^ 31 + d.toNat) 31 = true := by
  have hd := d.isLt
  simp only [bits, bit, beq_iff_eq]
  omega

/-- The wake by software: in S2 it waits as one of cause 4, whatever the state that is being entered. -/
theorem Chip.writePsmWake_go (h : c.fld F.psmStat_STATE = 2) :
    c.writePsmWake 1 = { c with wakes := c.wakes ++ [(4, 0, c.tb.toNat)] } := by
  rw [Chip.writePsmWake, if_pos (by decide)]
  exact if_pos ⟨h ▸ Nat.le_max_left _ _, Or.inr (by decide)⟩

/-- The word that rearms PSM_CTRL has REARM, and fits a register. -/
theorem rearmWord (v : BitVec 32) :
    bit (v.toNat % 2 ^ 30 + 2 ^ 30 + v.toNat / 2 ^ 31 * 2 ^ 31) 30 = true ∧
      v.toNat % 2 ^ 30 + 2 ^ 30 + v.toNat / 2 ^ 31 * 2 ^ 31 < 2 ^ 32 := by
  have hv := v.isLt
  simp only [bit, beq_iff_eq]
  omega

/-- A state entered by turning its domains off, with no head left running. -/
theorem Chip.stateEntry_two (ha : c.on F.psmCtrl_AUTO = true) (hd : c.deepest = 2) (hs : c.fld F.psmStat_STATE = 0)
    (hl : c.psm.leaving = false) (hh : c.runningHeads = []) :
    c.stateEntry = (((c.updPsm fun p => { p with saved := c.domsOn }).setDoms (stateDoms 2) false).setFld
      F.psmStat_STATE 0 0 2).setFld F.psmStat_TARGET 0 0 0 := by
  rw [Chip.stateEntry, if_neg (by simp [ha, hd, hs, hl]), hd, if_neg (by decide), if_neg (by simp [hh])]
  simp [hs]

/-- Heads that run are put into self-refresh before a state below S1. -/
theorem Chip.stateEntry_heads {n : Nat} (ha : c.on F.psmCtrl_AUTO = true) (hd : c.deepest = n) (hn : 2 ≤ n)
    (hs : c.fld F.psmStat_STATE < n) (hl : c.psm.leaving = false) (hh : c.runningHeads ≠ []) :
    c.stateEntry = (c.runningHeads.foldl (fun t h => t.psrEnter h) (c.setFld F.psmStat_TARGET 0 0 n)).updPsm
      fun p => { p with heads := (p.heads ++ c.runningHeads).eraseDups } := by
  subst hd
  exact (if_neg (by simp [ha, hl]; omega)).trans ((if_neg (by omega)).trans (if_pos (by simp [hh])))

/-- An exit with a cause from a state that kept its units: they are restored, and the wake is recorded. -/
theorem Chip.stateExit_cause (hl : c.psm.leaving = true) (hq : c.psm.quiet = false) (hc : c.psm.cause ≠ 0)
    (hd : c.boot.due = none) (hs : c.fld F.psmStat_STATE ≠ 4) {t : Chip}
    (ht : (c.unitsBack.setFld F.psmStat_STATE 0 0 0).updPsm (fun q => { q with leaving := false, quiet := false }) = t) :
    c.stateExit = (((t.setFld F.psmWakecause_CAUSE 0 0 (Nat.lor (t.fld F.psmWakecause_CAUSE)
      (2 ^ c.psm.cause))).updPsm fun q => { q with waket := c.psm.at_ }).setFld F.psmStat_SUSP 0 0 1).raise 380 := by
  subst ht
  rw [Chip.stateExit, if_neg (by simp [hl, hd])]
  simp only [hq, hc, hs, if_false, Bool.false_eq_true]

/-- A tolerance that no longer fits S1 wakes the cores that sleep, one that no longer fits S4 starts the device. -/
theorem Chip.toleranceChange_one (hs : c.fld F.psmStat_STATE = 1) (hf : c.effTol < 2) (hl : c.psm.leaving = false)
    (ht : c.psm.tripped = false) :
    c.toleranceChange = ((List.range 8).foldl (fun t k => if t.coreState k = 4 then
      (t.setDom (t.physOf 0 k) true).enterWaiting k else t) c).setFld F.psmStat_STATE 0 0 0 := by
  have hfit : ¬(c.exitLat 1 ≤ c.effTol) := Nat.not_le.mpr hf
  rw [Chip.toleranceChange, hs, if_neg (by simp [hfit, hl, ht]), if_pos rfl]

theorem Chip.toleranceChange_four (hs : c.fld F.psmStat_STATE = 4) (hf : c.effTol < c.fld F.psmS4lat_US)
    (hl : c.psm.leaving = false) (ht : c.psm.tripped = false) :
    c.toleranceChange = { (c.updPsm fun q => { q with leaving := true, quiet := true }) with
      boot := { c.boot with due := some 2, zero := true } } := by
  have hfit : ¬(c.exitLat 4 ≤ c.effTol) := Nat.not_le.mpr hf
  rw [Chip.toleranceChange, hs, if_neg (by simp [hfit, hl, ht]), if_neg (by decide), if_pos rfl]

section

variable {k p a : Nat} {rest : List (Nat × Nat × Nat)}

/-- The first wake begins an exit, here not from S4. -/
theorem Chip.wake_exit (hw : c.wakes = (k, p, a) :: rest) (hl : c.psm.leaving = false) (ht : c.psm.tripped = false)
    (hg : c.fld F.psmStat_TARGET = 0) (hs : c.fld F.psmStat_STATE ≠ 4) :
    c.wake = { c with wakes := rest }.updPsm fun q =>
      { q with leaving := true, quiet := false, cause := k, port := p, at_ := a } := by
  simp only [Chip.wake, hw, hl, ht, hg, hs, ne_eq, not_true_eq_false, or_self, Bool.false_eq_true, if_false]

/-- In an entry under way it abandons the entry. -/
theorem Chip.wake_abort (hw : c.wakes = (k, p, a) :: rest) (hl : c.psm.leaving = false) (ht : c.psm.tripped = false)
    (hg : c.fld F.psmStat_TARGET ≠ 0) :
    c.wake = (({ c with wakes := rest }.updPsm fun q =>
      { q with leaving := true, quiet := false, cause := k, port := p, at_ := a }).setFld
        F.psmStat_TARGET 0 0 0).psmStick F.psmStat_ENTRY_ABORT := by
  simp only [Chip.wake, hw, hl, ht, hg, ne_eq, not_false_eq_true, or_self, Bool.false_eq_true, if_false, if_true]

end

end

/-- Settles O59: entries, wakes and exits by the state's guard, the writes by the word each command carries. -/
theorem powerStates : Obligations.PowerStates := by
  unfold Obligations.PowerStates
  refine ⟨?off, ?offNone, ?gate, ?noGate, ?one, ?heads, ?two, ?stay, ?noWake, ?wake, ?abort, ?exit, ?noExit, ?alarm,
    ?noAlarm, ?psmWake, ?rearm, ?fits, ?tolOne, ?tolFour⟩
  case off =>
    intro s m d hl hs h
    obtain ⟨hd, hgo⟩ := domoffWord d
    refine exec_write hl hs rfl (by decide) (by omega) ((if_pos ⟨hgo, hd.symm ▸ h⟩).trans ?_)
    rw [hd]
  case offNone =>
    intro s m d hl hs h
    obtain ⟨hd, _⟩ := domoffWord d
    exact exec_write hl hs rfl (by decide) (by omega) (if_neg fun g => by rw [hd] at g; omega)
  case gate =>
    intro s k hl hk hg ht hw
    exact exec_live (f := fun c => c.coreGate k.1) hl rfl (if_pos ⟨hk, hg, ht, hw⟩)
  case noGate =>
    intro s k hl hk
    exact exec_live (f := fun c => c.coreGate k.1) hl rfl (if_neg fun h => hk h.1)
  case one =>
    intro s hl ha hd hs hv
    exact exec_live (f := fun c => c.stateEntry) hl rfl
      ((if_neg (by simp [ha, hd, hs, hv])).trans (if_pos hd))
  case heads =>
    intro s n hl ha hd hn hs hv hh
    exact exec_live (f := fun c => c.stateEntry) hl rfl (Chip.stateEntry_heads ha hd hn hs hv hh)
  case two =>
    rintro s _ hl ha hd hs hv hh rfl
    exact exec_live (f := fun c => c.stateEntry) hl rfl (Chip.stateEntry_two ha hd hs hv hh)
  case stay =>
    intro s hl h
    exact exec_live (f := fun c => c.stateEntry) hl rfl (if_pos (h.imp_left fun h => by simp [h]))
  case noWake =>
    intro s hl h
    refine exec_live (f := fun c => c.wake) hl rfl ?_
    simp only [Chip.wake, h]
  case wake =>
    intro s k p a rest hl hw hv ht hg hs
    exact exec_live (f := fun c => c.wake) hl rfl (Chip.wake_exit hw hv ht hg hs)
  case abort =>
    intro s k p a rest hl hw hv ht hg
    exact exec_live (f := fun c => c.wake) hl rfl (Chip.wake_abort hw hv ht hg)
  case exit =>
    intro s t hl hv hq hc hd hs ht
    exact exec_live (f := fun c => c.stateExit) hl rfl (Chip.stateExit_cause hv hq hc hd hs ht)
  case noExit =>
    intro s hl h
    exact exec_live (f := fun c => c.stateExit) hl rfl (if_pos (Or.inl (by simp [h])))
  case alarm =>
    intro s hl he hr
    exact exec_live (f := fun c => c.alarm) hl rfl (if_pos ⟨he, hr⟩)
  case noAlarm =>
    intro s hl h
    exact exec_live (f := fun c => c.alarm) hl rfl (if_neg fun g => by simp [g.1, g.2] at h)
  case psmWake =>
    intro s m hl hs h
    exact exec_write hl hs rfl (by decide) (by decide) (Chip.writePsmWake_go h)
  case rearm =>
    rintro s m v _ hl hs rfl
    obtain ⟨hb, hw⟩ := rearmWord v
    exact exec_write hl hs rfl (by decide) hw (if_pos hb)
  case fits =>
    intro s hl h
    exact exec_live (f := fun c => c.toleranceChange) hl rfl (if_pos h)
  case tolOne =>
    intro s hl hs hf hv ht
    exact exec_live (f := fun c => c.toleranceChange) hl rfl (Chip.toleranceChange_one hs hf hv ht)
  case tolFour =>
    intro s hl hs hf hv ht
    exact exec_live (f := fun c => c.toleranceChange) hl rfl (Chip.toleranceChange_four hs hf hv ht)

end Sys2Proof.Machine
